-- ==== Sys2Proof/Word.lean ====
section
/-! DEFINITION. The words of the machine (R4, R6): a dword of 64 bits and a byte. -/

namespace Sys2Proof

/-- A dword (R4): a general register, a token, an address before it is canonicalised. -/
abbrev Dword := BitVec 64

/-- A byte (R4). -/
abbrev Byte := BitVec 8

end Sys2Proof
end

