-- ==== Sys2Proof/Machine/Formats.lean ====
section
/-! DEFINITION. The number formats (R112 to R132): format codes, exact values, rounding to a float, to E8M0 and to an
integer, fixed-point rounding, and the exact operations that the scalar, vector, matrix and stream instructions share.
Arithmetic is exact on dyadic values; a quotient or a root keeps more bits than any format holds and one sticky bit,
which decides every rounding (R10, R126). -/

namespace Sys2Proof.Machine

/-- Special encodings of a float format (R117): infinity and NaN as IEEE, E4M3's NaN only, or none. -/
inductive FKind where
  | ieee
  | e4m3
  | finite
  deriving DecidableEq, Repr, Inhabited

/-- A format named by a code (R112): an integer, a float with E exponent and M fraction bits, E8M0, an MX format with
its element code, or a reserved code. -/
inductive Fmt where
  | int (signed : Bool) (w : Nat)
  | flt (e m : Nat) (k : FKind)
  | e8m0
  | mx (k : Nat)
  | bad
  deriving DecidableEq, Repr, Inhabited

/-- An exact value: NaN (signalling or not), an infinity, or (-1)^neg · m · 2^e. -/
inductive XV where
  | nan (sig : Bool)
  | inf (neg : Bool)
  | fin (neg : Bool) (m : Nat) (e : Int)
  deriving DecidableEq, Repr, Inhabited

/-- The events of R172, as bits in the order of `fstat`. -/
def fINV : Nat := 1
def fDZ : Nat := 2
def fOVF : Nat := 4
def fUNF : Nat := 8
def fINX : Nat := 16
def fSAT : Nat := 32

/-- The width of an integer code's low six bits (R112): N = code + 1 for 1 to 16, 32 and 64. -/
def intWidth (k : Nat) : Option Nat := if k < 16 ∨ k = 31 ∨ k = 63 then some (k + 1) else none

/-- FP64, FP32, BF16, FP16, E4M3, E5M2, E3M2, E2M3, E2M1 (R116). -/
def fp64 : Fmt := .flt 11 52 .ieee
def fp32 : Fmt := .flt 8 23 .ieee

/-- The format of a code (R112, R116, R118). -/
def fmtOf (c : Nat) : Fmt :=
  match c / 64 with
  | 0 => match intWidth (c % 64) with | some w => .int false w | none => .bad
  | 1 => match intWidth (c % 64) with | some w => .int true w | none => .bad
  | 2 =>
    match c with
    | 0x80 => fp64
    | 0x81 => fp32
    | 0x82 => .flt 8 7 .ieee
    | 0x83 => .flt 5 10 .ieee
    | 0x84 => .flt 4 3 .e4m3
    | 0x85 => .flt 5 2 .ieee
    | 0x86 => .flt 3 2 .finite
    | 0x87 => .flt 2 3 .finite
    | 0x88 => .flt 2 1 .finite
    | 0x89 => .e8m0
    | 0x90 => .mx 0
    | 0x91 => .mx 1
    | 0x92 => .mx 2
    | 0x93 => .mx 3
    | 0x94 => .mx 4
    | 0x95 => .mx 5
    | _ => .bad
  | _ => .flt (c / 8 % 8 + 1) (c % 8) .finite

/-- The element format of an MX code (R120); MXINT8 elements are 8-bit integers. -/
def mxElem (k : Nat) : Fmt :=
  match k with
  | 0 => .flt 4 3 .e4m3
  | 1 => .flt 5 2 .ieee
  | 2 => .flt 3 2 .finite
  | 3 => .flt 2 3 .finite
  | 4 => .flt 2 1 .finite
  | _ => .int true 8

/-- The width of an element (R112). -/
def Fmt.width : Fmt → Nat
  | .int _ w => w
  | .flt e m _ => 1 + e + m
  | .e8m0 => 8
  | .mx k => match mxElem k with | .int _ w => w | .flt e m _ => 1 + e + m | _ => 8
  | .bad => 64

def Fmt.isInt : Fmt → Bool | .int _ _ => true | _ => false
def Fmt.isFlt : Fmt → Bool | .flt _ _ _ => true | _ => false
def Fmt.isMx : Fmt → Bool | .mx _ => true | _ => false
def Fmt.isBad : Fmt → Bool | .bad => true | _ => false
def Fmt.signed : Fmt → Bool | .int s _ => s | _ => false
def Fmt.isUInt : Fmt → Bool | .int s _ => !s | _ => false

/-- The significand width (R122). -/
def Fmt.sigWidth : Fmt → Nat
  | .int _ w => w
  | .flt _ m _ => m + 1
  | .e8m0 => 1
  | .mx k => match mxElem k with | .int _ w => w | .flt _ m _ => m + 1 | _ => 1
  | .bad => 1

/-- The container of an element in memory, in bytes (R178). -/
def contBytes (w : Nat) : Nat := if w ≤ 8 then 1 else if w ≤ 16 then 2 else if w ≤ 32 then 4 else 8

/-- The bits [lo+w-1:lo] of a bit string, and the string with them replaced. -/
def getBits (x lo w : Nat) : Nat := (x >>> lo) % 2 ^ w
def setBits (x lo w v : Nat) : Nat := ((x >>> (lo + w)) <<< (lo + w)) ||| ((v % 2 ^ w) <<< lo) ||| (x % 2 ^ lo)

/-- Two's complement reading of the low w bits (R113). -/
def sintOf (w x : Nat) : Int := if x % 2 ^ w < 2 ^ (w - 1) then (x % 2 ^ w : Nat) else (x % 2 ^ w : Nat) - (2 ^ w : Nat)

/-- The value of an integer element (R113). -/
def intOf (signed : Bool) (w x : Nat) : Int := if signed then sintOf w x else (x % 2 ^ w : Nat)

/-- The low w bits of an integer in two's complement. -/
def bitsOfInt (w : Nat) (n : Int) : Nat := (n % (2 ^ w : Nat)).toNat

/-- An integer as an exact value. -/
def XV.ofInt (n : Int) : XV := .fin (decide (n < 0)) n.natAbs 0

/-- The bias of a float with E exponent bits (R115). -/
def biasOf (e : Nat) : Int := 2 ^ (e - 1) - 1

/-- The value of a float element (R115, R117). -/
def fltValue (e m : Nat) (k : FKind) (x : Nat) : XV :=
  let neg := x / 2 ^ (e + m) % 2 == 1
  let ef := x / 2 ^ m % 2 ^ e
  let f := x % 2 ^ m
  let top := 2 ^ e - 1
  match k with
  | .ieee =>
    if ef = top then (if f = 0 then .inf neg else .nan (f < 2 ^ (m - 1)))
    else if ef = 0 then .fin neg f (1 - biasOf e - m) else .fin neg (2 ^ m + f) (ef - biasOf e - m)
  | .e4m3 =>
    if ef = top ∧ f = 2 ^ m - 1 then .nan false
    else if ef = 0 then .fin neg f (1 - biasOf e - m) else .fin neg (2 ^ m + f) (ef - biasOf e - m)
  | .finite =>
    if ef = 0 then .fin neg f (1 - biasOf e - m) else .fin neg (2 ^ m + f) (ef - biasOf e - m)

/-- The value of an E8M0 byte (R119). -/
def e8Value (x : Nat) : XV := if x % 256 = 255 then .nan false else .fin false 1 ((x % 256 : Nat) - 127)

/-- A value scaled by a power of two. -/
def XV.scale : XV → Int → XV
  | .fin s m e, k => .fin s m (e + k)
  | v, _ => v

/-- The unscaled value of an MX element (R120). -/
def mxRaw (k x : Nat) : XV :=
  match mxElem k with
  | .int _ w => (XV.ofInt (sintOf w x)).scale (-6)
  | .flt e m kk => fltValue e m kk x
  | _ => .nan false

/-- The value of an MX element under its block's scale byte (R120). -/
def mxValue (k x sc : Nat) : XV := if sc % 256 = 255 then .nan false else (mxRaw k x).scale ((sc % 256 : Nat) - 127)

/-- The value of an element of a format; `sc` is the scale byte of its block, for an MX format. -/
def elemValue (f : Fmt) (x sc : Nat) : XV :=
  match f with
  | .int s w => .ofInt (intOf s w x)
  | .flt e m k => fltValue e m k x
  | .e8m0 => e8Value x
  | .mx k => mxValue k x sc
  | .bad => .nan false

def XV.isNan : XV → Bool | .nan _ => true | _ => false
def XV.isSig : XV → Bool | .nan s => s | _ => false
def XV.isInf : XV → Bool | .inf _ => true | _ => false
def XV.isZero : XV → Bool | .fin _ 0 _ => true | _ => false
def XV.neg : XV → Bool | .inf s => s | .fin s _ _ => s | .nan _ => false
def XV.flip : XV → XV | .inf s => .inf (!s) | .fin s m e => .fin (!s) m e | v => v
def XV.abs : XV → XV | .inf _ => .inf false | .fin _ m e => .fin false m e | v => v

/-- Rounding modes (R123): 0 RNE, 1 RTZ, 2 RDN, 3 RUP, 4 RMM, 5 stochastic. -/
abbrev Mode := Nat

/-- `round_int` of m / 2^d, with whether it was inexact (R126); `draw` is the 16-bit draw of a stochastic rounding. -/
def roundShift (mode : Mode) (neg : Bool) (m d draw : Nat) : Nat × Bool :=
  let fl := m >>> d
  let r := m % 2 ^ d
  let up : Bool :=
    match mode with
    | 0 => 2 * r > 2 ^ d || (2 * r == 2 ^ d && fl % 2 == 1 && d > 0)
    | 1 => false
    | 2 => neg && r != 0
    | 3 => !neg && r != 0
    | 4 => r != 0 && 2 * r ≥ 2 ^ d
    | _ => (m * 2 ^ 16 + draw * 2 ^ d) >>> (d + 16) != fl
  (if up then fl + 1 else fl, r != 0)

/-- `round_int` of m · 2^k for an integer k. -/
def roundScaled (mode : Mode) (neg : Bool) (m : Nat) (k : Int) (draw : Nat) : Nat × Bool :=
  if 0 ≤ k then (m <<< k.toNat, false) else roundShift mode neg m (-k).toNat draw

/-- The exponent field and the fraction of the largest finite value (R116, R117, R118). -/
def maxField (e : Nat) (k : FKind) : Nat := match k with | .ieee => 2 ^ e - 2 | _ => 2 ^ e - 1
def maxSig (m : Nat) (k : FKind) : Nat := match k with | .e4m3 => 2 ^ (m + 1) - 2 | _ => 2 ^ (m + 1) - 1

/-- The encodings of the largest finite value, of infinity and of the canonical NaN, without a sign (R117). -/
def maxFin (e m : Nat) (k : FKind) : Nat := maxField e k * 2 ^ m + maxSig m k % 2 ^ m
def infEnc (e m : Nat) : Nat := (2 ^ e - 1) * 2 ^ m
def canonNan (e m : Nat) (k : FKind) : Nat :=
  match k with
  | .ieee => (2 ^ e - 1) * 2 ^ m + 2 ^ (m - 1)
  | _ => 2 ^ (e + m) - 1

/-- The sign bit of a float. -/
def signBit (e m : Nat) (neg : Bool) : Nat := if neg then 2 ^ (e + m) else 0

/-- `big` (R127): the infinity choice of an overflow. -/
def bigEnc (e m : Nat) (k : FKind) (neg sat : Bool) : Nat :=
  match k with
  | .ieee => signBit e m neg + (if sat then maxFin e m k else infEnc e m)
  | .e4m3 => if sat then signBit e m neg + maxFin e m k else canonNan e m k
  | .finite => signBit e m neg + maxFin e m k

/-- `over` (R127): the result of an overflow of a finite value. -/
def overEnc (e m : Nat) (k : FKind) (neg sat : Bool) (mode : Mode) : Nat :=
  let toInf : Bool := match mode with | 1 => false | 2 => neg | 3 => !neg | _ => true
  if toInf then bigEnc e m k neg sat else signBit e m neg + maxFin e m k

/-- `tiny` (R126), for a non-zero value m · 2^x below the normal range by exponent `lg`. -/
def isTiny (e m mm : Nat) (x : Int) (lg : Int) (mode : Mode) (neg : Bool) : Bool :=
  let emin := 1 - biasOf e
  if emin ≤ lg then false
  else if mode = 5 then true
  else if lg < emin - 1 then true
  else (roundScaled mode neg mm (x - (lg - m)) 0).1 < 2 ^ (m + 1)

/-- `round_to` (R126): an exact value to an encoding of a float format, with the events raised. -/
def roundTo (e m : Nat) (k : FKind) (mode : Mode) (sat : Bool) (draw : Nat) (x : XV) : Nat × Nat :=
  match x with
  | .nan _ => match k with | .finite => (0, fINV) | _ => (canonNan e m k, 0)
  | .inf s => match k with | .ieee => (signBit e m s + infEnc e m, 0) | _ => (bigEnc e m k s sat, fOVF)
  | .fin s 0 _ => (signBit e m s, 0)
  | .fin s mm xe =>
    let lg : Int := (Nat.log2 mm : Nat) + xe
    let emin : Int := 1 - biasOf e
    let ex : Int := if lg < emin then emin else lg
    let r := roundScaled mode s mm (xe - (ex - m)) draw
    let wrap : Bool := r.1 == 2 ^ (m + 1)
    let n := if wrap then 2 ^ m else r.1
    let ey : Int := if wrap then ex + 1 else ex
    let emax : Int := (maxField e k : Nat) - biasOf e
    if emax < ey ∨ (ey = emax ∧ maxSig m k < n) then (overEnc e m k s sat mode, fOVF ||| fINX)
    else
      let enc := if n < 2 ^ m then n else (ey + biasOf e).toNat * 2 ^ m + n % 2 ^ m
      let ev := if r.2 then (if isTiny e m mm xe lg mode s then fINX ||| fUNF else fINX) else 0
      (signBit e m s + enc, ev)

/-- Rounding to E8M0 (R119). -/
def roundE8 (mode : Mode) (sat : Bool) (draw : Nat) (x : XV) : Nat × Nat :=
  let big := if sat then 0xFE else 0xFF
  match x with
  | .nan _ => (0xFF, 0)
  | .inf true => (0xFF, fINV)
  | .inf false => (big, fOVF)
  | .fin _ 0 _ => (0xFF, fINV)
  | .fin true _ _ => (0xFF, fINV)
  | .fin false mm xe =>
    let lg : Int := (Nat.log2 mm : Nat) + xe
    let r := roundScaled mode false mm (xe - lg) draw
    let y : Int := if r.1 = 2 then lg + 1 else lg
    let inx := if r.2 then fINX else 0
    if 127 < y then (big, fOVF ||| fINX)
    else if y < -127 then (0, fUNF ||| fINX)
    else ((y + 127).toNat, inx)

/-- The bounds of an integer destination (R114). -/
def intMin (signed : Bool) (w : Nat) : Int := if signed then -(2 ^ (w - 1) : Nat) else 0
def intMax (signed : Bool) (w : Nat) : Int := if signed then (2 ^ (w - 1) : Nat) - 1 else (2 ^ w : Nat) - 1

/-- An exact integer to an integer destination (R114). -/
def putInt (signed : Bool) (w : Nat) (sat : Bool) (n : Int) : Nat × Nat :=
  if n < intMin signed w then (if sat then (bitsOfInt w (intMin signed w), fSAT) else (bitsOfInt w n, 0))
  else if intMax signed w < n then (if sat then (bitsOfInt w (intMax signed w), fSAT) else (bitsOfInt w n, 0))
  else (bitsOfInt w n, 0)

/-- The integer that an exact value rounds to, with whether it was inexact. -/
def XV.toIntRnd (mode : Mode) (draw : Nat) : XV → Int × Bool
  | .fin s m e =>
    let r := roundScaled mode s m e draw
    (if s then -(r.1 : Int) else r.1, r.2)
  | _ => (0, false)

/-- A float to an integer destination (R128). -/
def fltToInt (signed : Bool) (w : Nat) (mode : Mode) (draw : Nat) (x : XV) : Nat × Nat :=
  match x with
  | .nan _ => (0, fINV)
  | .inf s => (bitsOfInt w (if s then intMin signed w else intMax signed w), fINV)
  | .fin _ _ _ =>
    let r := x.toIntRnd mode draw
    if r.1 < intMin signed w then (bitsOfInt w (intMin signed w), fINV)
    else if intMax signed w < r.1 then (bitsOfInt w (intMax signed w), fINV)
    else (bitsOfInt w r.1, if r.2 then fINX else 0)

/-- The integer an exact value is, when it is one. -/
def XV.exactInt : XV → Option Int
  | .fin s m e =>
    if 0 ≤ e then some (if s then -(m <<< e.toNat : Nat) else (m <<< e.toNat : Nat))
    else if m % 2 ^ (-e).toNat = 0 then some (if s then -(m >>> (-e).toNat : Nat) else (m >>> (-e).toNat : Nat))
    else none
  | _ => none

/-- `put` (R153): an exact result to a destination format. -/
def putFmt (f : Fmt) (mode : Mode) (sat : Bool) (draw : Nat) (x : XV) : Nat × Nat :=
  match f with
  | .int s w =>
    match x.exactInt with
    | some n => putInt s w sat n
    | none => fltToInt s w mode draw x
  | .flt e m k => roundTo e m k mode sat draw x
  | .e8m0 => roundE8 mode sat draw x
  | _ => (0, 0)

/-- Fixed-point rounding (R132): an exact integer shifted right by d under FXRND. -/
def fxShift (fx : Nat) (v : Int) (d : Nat) : Int :=
  if d = 0 then v
  else
    let q := v / (2 ^ d : Nat)
    let r := v % (2 ^ d : Nat)
    let half : Int := (2 ^ (d - 1) : Nat)
    match fx with
    | 0 => if half ≤ r then q + 1 else q
    | 1 => if half < r ∨ (r = half ∧ q % 2 = 1) then q + 1 else q
    | 2 => q
    | _ => if r ≠ 0 ∧ q % 2 = 0 then q + 1 else q

/-- The larger of two exponents' common base: both values on one exponent. -/
def alignFin (m1 : Nat) (e1 : Int) (m2 : Nat) (e2 : Int) : Nat × Nat × Int :=
  if e1 ≤ e2 then (m1, m2 <<< (e2 - e1).toNat, e1) else (m1 <<< (e1 - e2).toNat, m2, e2)

/-- The exact sum; `rdn` gives the sign of a zero sum of opposite values (IEEE 754-2019). A NaN operand gives NaN. -/
def XV.add (rdn : Bool) : XV → XV → XV
  | .nan a, .nan b => .nan (a || b)
  | .nan a, _ => .nan a
  | _, .nan b => .nan b
  | .inf a, .inf b => if a = b then .inf a else .nan false
  | .inf a, _ => .inf a
  | _, .inf b => .inf b
  | .fin s1 m1 e1, .fin s2 m2 e2 =>
    let (a, b, e) := alignFin m1 e1 m2 e2
    if s1 = s2 then .fin s1 (a + b) e
    else if a = b then .fin rdn 0 e
    else if b < a then .fin s1 (a - b) e else .fin s2 (b - a) e

/-- The exact product. -/
def XV.mul : XV → XV → XV
  | .nan a, .nan b => .nan (a || b)
  | .nan a, _ => .nan a
  | _, .nan b => .nan b
  | .inf a, .inf b => .inf (a != b)
  | .inf a, .fin s m _ => if m = 0 then .nan false else .inf (a != s)
  | .fin s m _, .inf b => if m = 0 then .nan false else .inf (s != b)
  | .fin s1 m1 e1, .fin s2 m2 e2 => .fin (s1 != s2) (m1 * m2) (e1 + e2)

/-- Whether a sum of two is infinity minus infinity, and whether a product is zero times infinity. -/
def XV.addInvalid : XV → XV → Bool
  | .inf a, .inf b => a != b
  | _, _ => false
def XV.mulInvalid : XV → XV → Bool
  | .inf _, .fin _ m _ => m == 0
  | .fin _ m _, .inf _ => m == 0
  | _, _ => false

/-- The quotient, to 300 bits and a sticky bit, with its events (R155). -/
def XV.div (a b : XV) : XV × Nat :=
  match a, b with
  | .nan x, .nan y => (.nan (x || y), 0)
  | .nan x, _ => (.nan x, 0)
  | _, .nan y => (.nan y, 0)
  | .inf _, .inf _ => (.nan false, fINV)
  | .inf s, .fin t _ _ => (.inf (s != t), 0)
  | .fin s _ _, .inf t => (.fin (s != t) 0 0, 0)
  | .fin s m1 e1, .fin t m2 e2 =>
    if m2 = 0 then (if m1 = 0 then (.nan false, fINV) else (.inf (s != t), fDZ))
    else if m1 = 0 then (.fin (s != t) 0 0, 0)
    else
      let k := 300 + Nat.log2 m2
      let n := m1 <<< k
      (.fin (s != t) (2 * (n / m2) + (if n % m2 = 0 then 0 else 1)) (e1 - e2 - k - 1), 0)

/-- The integer square root, by its bits from bit k−1 down. -/
def isqrtBits : Nat → Nat → Nat → Nat
  | 0, _, acc => acc
  | k + 1, n, acc => if (acc + 2 ^ k) * (acc + 2 ^ k) ≤ n then isqrtBits k n (acc + 2 ^ k) else isqrtBits k n acc

/-- The largest r with r·r at most n. -/
def isqrt (n : Nat) : Nat := isqrtBits (Nat.log2 n / 2 + 1) n 0

/-- The square root, to 300 bits and a sticky bit, with its events (R155). -/
def XV.sqrt : XV → XV × Nat
  | .nan x => (.nan x, 0)
  | .inf s => if s then (.nan false, fINV) else (.inf false, 0)
  | .fin s m e =>
    if m = 0 then (.fin s 0 0, 0)
    else if s then (.nan false, fINV)
    else
      let odd : Nat := (e % 2).toNat
      let n := m <<< (600 + odd)
      let r := isqrt n
      (.fin false (2 * r + (if r * r = n then 0 else 1)) ((e - odd - 600) / 2 - 1), 0)

/-- The reciprocal square root, to 300 bits and a sticky bit, with its events (R98, R155). -/
def XV.rsqrt : XV → XV × Nat
  | .nan x => (.nan x, 0)
  | .inf s => if s then (.nan false, fINV) else (.fin false 0 0, 0)
  | .fin s m e =>
    if m = 0 then (.inf s, fDZ)
    else if s then (.nan false, fINV)
    else
      let odd : Nat := (e % 2).toNat
      let mm := m <<< odd
      let t := 300 + Nat.log2 mm
      let r := isqrt ((1 <<< (2 * t)) / mm)
      (.fin false (2 * r + (if r * r * mm = 1 <<< (2 * t) then 0 else 1)) (-((e - odd) / 2) - t - 1), 0)

/-- Comparison of two values that are no NaN: less, with -0 = +0. -/
def XV.lt : XV → XV → Bool
  | .inf a, .inf b => a && !b
  | .inf a, .fin _ _ _ => a
  | .fin _ _ _, .inf b => !b
  | .fin s1 m1 e1, .fin s2 m2 e2 =>
    let (a, b, _) := alignFin m1 e1 m2 e2
    if a = 0 ∧ b = 0 then false
    else match s1, s2 with
      | true, true => b < a
      | false, false => a < b
      | true, false => true
      | false, true => false
  | _, _ => false

/-- Equality of two values that are no NaN, with -0 = +0. -/
def XV.eqv : XV → XV → Bool
  | .nan _, _ => false
  | _, .nan _ => false
  | a, b => !(a.lt b) && !(b.lt a)

/-- minimumNumber and maximumNumber (R98, R155): -0 below +0; a number beats a NaN; two NaNs give a quiet NaN. -/
def XV.minNum (a b : XV) : XV :=
  if a.isNan && b.isNan then .nan false
  else if a.isNan then b
  else if b.isNan then a
  else if a.isZero && b.isZero then (if a.neg then a else b)
  else if b.lt a then b else a
def XV.maxNum (a b : XV) : XV :=
  if a.isNan && b.isNan then .nan false
  else if a.isNan then b
  else if b.isNan then a
  else if a.isZero && b.isZero then (if a.neg then b else a)
  else if a.lt b then b else a

/-- The class of a value (R99, R159), one-hot; `sub` tells a subnormal. -/
def classBit (x : XV) (sub : Bool) : Nat :=
  match x with
  | .nan s => if s then 2 ^ 8 else 2 ^ 9
  | .inf s => if s then 1 else 2 ^ 7
  | .fin s 0 _ => if s then 2 ^ 3 else 2 ^ 4
  | .fin s _ _ => if sub then (if s then 2 ^ 2 else 2 ^ 5) else (if s then 2 else 2 ^ 6)

/-- Whether an encoding is a subnormal: its exponent field is zero and its fraction is not (R115). -/
def isSubnormal (f : Fmt) (x : Nat) : Bool :=
  match f with
  | .flt e m _ => x / 2 ^ m % 2 ^ e == 0 && x % 2 ^ m != 0
  | _ => false

/-- `inv` for a signalling NaN among the operands (R155). -/
def sigInv (xs : List XV) : Nat := if xs.any XV.isSig then fINV else 0

/-- The fields of a format word (R123). -/
def fwSrc1 (f : Nat) : Nat := f % 256
def fwSrc2 (f : Nat) : Nat := f / 2 ^ 8 % 256
def fwDst (f : Nat) : Nat := f / 2 ^ 16 % 256
def fwLgrp (f : Nat) : Nat := f / 2 ^ 24 % 4
def fwTail (f : Nat) : Bool := f / 2 ^ 26 % 2 == 1
def fwMask (f : Nat) : Bool := f / 2 ^ 27 % 2 == 1
def fwFrnd (f : Nat) : Nat := f / 2 ^ 28 % 8
def fwFxrnd (f : Nat) : Nat := f / 2 ^ 31 % 4
def fwSat (f : Nat) : Bool := f / 2 ^ 33 % 2 == 1
def fwSlices (f : Nat) : Nat := f / 2 ^ 34 % 8
def fwScla (f : Nat) : Nat := f / 2 ^ 37 % 8
def fwSclb (f : Nat) : Nat := f / 2 ^ 40 % 8
def fwScld (f : Nat) : Nat := f / 2 ^ 43 % 8
def fwReserved (f : Nat) : Bool := f / 2 ^ 46 != 0

/-- The group factor (R123). -/
def fwGroup (f : Nat) : Nat := 2 ^ fwLgrp f

/-- One advance of a stochastic state, and the draw of the state reached (R130). -/
def srNext (s : BitVec 32) : BitVec 32 := if s.getLsbD 0 then (s >>> 1) ^^^ 0x80200003#32 else s >>> 1
def srDraw (s : BitVec 32) : Nat := s.toNat / 2 ^ 16

/-- The state of lane L after a seed (R131). -/
def srSeed (z : BitVec 32) (lane : Nat) : BitVec 32 :=
  let x := z + BitVec.ofNat 32 (lane * 0x9E3779B9)
  if x = 0 then 1 else x

end Sys2Proof.Machine
end

