-- ==== Sys2Proof/Config.lean ====
section
/-! DEFINITION. What an implementation fixes, and the free values: constants without a body, so that no proof can see
what they are. A statement that mentions one holds whatever it is. -/

namespace Sys2Proof

/-- The free values (R9): the value that the k-th undefined read of a run delivers, as an unbounded bit string of which
the reader takes as many low bits as it is wide. Nothing constrains it (log 3). -/
opaque freeValue : Nat → Nat

/-- STEP of `ident` (R291): the stepping of the silicon, which the spec does not give (log 5). -/
opaque stepping : BitVec 8

/-- The number of cores, of strand contexts of a core, and of slabs of a core (R13, R20). -/
def coreCount : Nat := 32
def ctxCount : Nat := 8
def slabCount : Nat := 32

/-- The scratchpad window (R109): 2 MiB from this address, in canonical form. -/
def spBase : Nat := 0xFFFFFF0000000000
def spSize : Nat := 0x200000

/-- The ranges of the device physical map (R305). -/
def hbmTop : Nat := 0x8000000000
def devBase : Nat := 0x10000000000
def devTop : Nat := 0x10004000000
def hostBase : Nat := 0x100000000000
def hostTop : Nat := 0x200000000000
def fabBase : Nat := 0x400000000000
def fabTop : Nat := 0x800000000000

/-- Where the model keeps a core's scratchpad bytes in the one byte map: beyond every physical address (R305 has 47
bits), 2^21 bytes for each core (log 4). -/
def spPhys (core off : Nat) : Nat := 0x1000000000000 + core * 0x200000 + off

/-- The default block completion timeout (R75, R291). -/
def btmoDefault : Dword := 0x1000000

end Sys2Proof
end

