-- ==== Sys2Proof/Machine/Map.lean ====
section
/-! DEFINITION. Sparse maps from numbers, kept as lists of key and value with the keys strictly rising: registers,
resident strands, cache lines, queues by number. A key that is not listed has the reader's default. -/

namespace Sys2Proof

/-- A sparse map from numbers. -/
abbrev NMap (α : Type) := List (Nat × α)

/-- The value at a key. -/
def NMap.get? {α : Type} : NMap α → Nat → Option α
  | [], _ => none
  | (k, v) :: m, n => if n = k then some v else if n < k then none else NMap.get? m n

/-- The value at a key, or a default. -/
def NMap.getD {α : Type} (m : NMap α) (n : Nat) (d : α) : α := (m.get? n).getD d

/-- Write a value at a key. -/
def NMap.put {α : Type} : NMap α → Nat → α → NMap α
  | [], n, x => [(n, x)]
  | (k, v) :: m, n, x => if n = k then (n, x) :: m else if n < k then (n, x) :: (k, v) :: m else (k, v) :: NMap.put m n x

/-- Remove a key. -/
def NMap.erase {α : Type} : NMap α → Nat → NMap α
  | [], _ => []
  | (k, v) :: m, n => if n = k then m else if n < k then (k, v) :: m else (k, v) :: NMap.erase m n

/-- Whether a key is listed. -/
def NMap.has {α : Type} (m : NMap α) (n : Nat) : Bool := (m.get? n).isSome

/-- Change the value at a listed key. -/
def NMap.adjust {α : Type} (m : NMap α) (n : Nat) (f : α → α) : NMap α :=
  match m.get? n with
  | some x => m.put n (f x)
  | none => m

/-- Change the value at a key, from a default where it is not listed. -/
def NMap.alter {α : Type} (m : NMap α) (n : Nat) (d : α) (f : α → α) : NMap α := m.put n (f (m.getD n d))

/-- The keys and the values. -/
def NMap.keys {α : Type} (m : NMap α) : List Nat := m.map Prod.fst
def NMap.vals {α : Type} (m : NMap α) : List α := m.map Prod.snd

/-- Change every value. -/
def NMap.mapVals {α : Type} (m : NMap α) (f : Nat → α → α) : NMap α := m.map fun kv => (kv.1, f kv.1 kv.2)

/-- Build a map from any list of pairs; later pairs win. -/
def NMap.ofList {α : Type} (l : List (Nat × α)) : NMap α := l.foldl (fun m kv => m.put kv.1 kv.2) []

/-- Keys strictly rise. -/
def NMap.sorted {α : Type} : NMap α → Bool
  | [] => true
  | [_] => true
  | a :: b :: m => decide (a.1 < b.1) && NMap.sorted (b :: m)

end Sys2Proof
end

