-- ==== Sys2Proof/Syntax.lean ====
section
/-! DEFINITION. The instructions of the Arvan Zepen (spec/opcode_table.json): one constructor for each row of the
table. An instruction of the Arvan set carries the fields of its format (R29, R31, R32); a machine event carries the
numbers that say which part it is about. The operand fields are bit vectors because the encodings are; a target
(R27) and a predicate mode (R29) are alternatives. -/

namespace Sys2Proof

/-- A target field (R27): nothing, the write slot of a general register, a reserved write-slot index, or an operand
slot of an instruction of the block. -/
inductive Target where
  | none
  | reg (g : BitVec 6)
  | resv (k : BitVec 7)
  | left (i : BitVec 7)
  | right (i : BitVec 7)
  | third (i : BitVec 7)
  deriving DecidableEq, Repr, Inhabited

/-- A predicate mode (R29): PR 00, 01 and 10. PR 11 is illegal and has no constructor. -/
inductive Pr where
  | always
  | onZero
  | onNonzero
  deriving DecidableEq, Repr, Inhabited

/-- Format G (R29). -/
structure GOp where
  pr : Pr
  t0 : Target
  t1 : Target
  deriving DecidableEq, Repr, Inhabited

/-- Format G with the third slot used for data, so PR is 00 (R38). -/
structure G3Op where
  t0 : Target
  t1 : Target
  deriving DecidableEq, Repr, Inhabited

/-- Format I (R29). -/
structure IOp where
  pr : Pr
  imm : BitVec 13
  t0 : Target
  deriving DecidableEq, Repr, Inhabited

/-- Format IT (R29). -/
structure ITOp where
  pr : Pr
  imm : BitVec 9
  t0 : Target
  deriving DecidableEq, Repr, Inhabited

/-- Format RD (R29). -/
structure RDOp where
  reg : BitVec 6
  t0 : Target
  t1 : Target
  deriving DecidableEq, Repr, Inhabited

/-- Formats L and S (R29). -/
structure MOp where
  pr : Pr
  lsid : BitVec 5
  off : BitVec 4
  t0 : Target
  deriving DecidableEq, Repr, Inhabited

/-- Formats A and F (R29). -/
structure AOp where
  pr : Pr
  lsid : BitVec 5
  scope : BitVec 4
  t0 : Target
  deriving DecidableEq, Repr, Inhabited

/-- Format A with the third slot used for data, so PR is 00 (R38). -/
structure A3Op where
  lsid : BitVec 5
  scope : BitVec 4
  t0 : Target
  deriving DecidableEq, Repr, Inhabited

/-- Format B (R29). -/
structure BOp where
  pr : Pr
  exit : BitVec 3
  off : BitVec 18
  deriving DecidableEq, Repr, Inhabited

/-- Format BX (R29). -/
structure BXOp where
  pr : Pr
  exit : BitVec 3
  deriving DecidableEq, Repr, Inhabited

/-- Format CP (R29). -/
structure CPOp where
  pr : Pr
  stream : BitVec 3
  t0 : Target
  deriving DecidableEq, Repr, Inhabited

/-- Format V (R29). -/
structure VOp where
  fmt : BitVec 3
  msk : BitVec 3
  vs2 : BitVec 5
  vs1 : BitVec 5
  vd : BitVec 5
  deriving DecidableEq, Repr, Inhabited

/-- Format VX (R29). -/
structure VXOp where
  t0 : Target
  fmt : BitVec 3
  msk : BitVec 3
  vs1 : BitVec 5
  deriving DecidableEq, Repr, Inhabited

/-- Format VM (R29). -/
structure VMOp where
  fmt : BitVec 3
  msk : BitVec 3
  lsid : BitVec 5
  vi : BitVec 5
  vd : BitVec 5
  deriving DecidableEq, Repr, Inhabited

/-- The 16-bit compressed format (R31). -/
structure COp where
  t0 : Target
  deriving DecidableEq, Repr, Inhabited

/-- The 64-bit tile format (R32). -/
structure TOp where
  kg : BitVec 2
  fmt : BitVec 3
  scb : BitVec 3
  sca : BitVec 3
  vb : BitVec 5
  va : BitVec 5
  acc : BitVec 3
  imm : BitVec 15
  msk : BitVec 3
  lsid : BitVec 5
  t0 : Target
  deriving DecidableEq, Repr, Inhabited

/-- One constructor for each row of spec/opcode_table.json, the machine events first (they are
built by the scheduler; see log 10), then the instructions, each group in the table's order. -/
inductive Instr where
  | blockFetch (sid addr : Nat)
  | blockStart (sid : Nat)
  | blockQuiescent (sid : Nat)
  | blockTimeout (sid : Nat)
  | scalarProbeComplete (sid idx : Nat)
  | loadDataReturn (sid idx seg : Nat)
  | storePerform (sid item seg : Nat)
  | stampReturn (sid reg : Nat)
  | divideStart (core : Nat)
  | divideComplete (core unit : Nat)
  | fpDivideStart (core : Nat)
  | fpDivideComplete (core : Nat)
  | vectorDispatch (core : Nat)
  | vectorExecuteStart (core : Nat)
  | vectorExecuteDone (core : Nat)
  | fifoAccept (core side : Nat)
  | laneSliceGate (core die : Nat)
  | localCountCheck (kind region : Nat)
  | pllRelockStop (cluster : Nat)
  | pllRelockEnd (cluster : Nat)
  | referenceClockLoss
  | referenceClockReturn
  | marginWarning
  | matrixIssue (core : Nat)
  | matrixPerformDone (core : Nat)
  | tileMemoryMoveDone (core : Nat)
  | streamStripFetch (core stream : Nat)
  | streamElementArrival (core stream elem : Nat)
  | streamRed2FinalWrite (core stream elem : Nat)
  | streamDone (core stream : Nat)
  | streamAccessFault (core stream elem : Nat)
  | interlockWaitEnd (sid : Nat)
  | scopeAcknowledge (core ctx entry : Nat)
  | atomicPerform (sid item : Nat)
  | atomicOldValueReturn (sid reg : Nat)
  | heldWriteRelease (line : Nat)
  | vaccUpdatePerform (sid item elem : Nat)
  | vamergeFold (sid item : Nat)
  | watchedLineWrite (core line : Nat)
  | qdlDeadlinePass (sid : Nat)
  | sleepExpiry (sid : Nat)
  | barrierArrival (sid : Nat)
  | l1LineInvalidate (core line : Nat)
  | l2Eviction (die line : Nat)
  | tlbWalkComplete (walk : Nat)
  | tlbInvalidatePerform (inv : Nat)
  | replayPendingReplay (core : Nat)
  | fatalRecord (gang sub pa : Nat)
  | routerRecordWrite (core : Nat)
  | resumeGo (core ctxn : Nat)
  | resumeRedirect (core ctxn : Nat)
  | resumeKill (core ctxn : Nat)
  | contextSaveStart (gang : Nat)
  | contextSaveComplete (gang : Nat)
  | saveBroken (gang : Nat)
  | contextRestore (gang : Nat)
  | qwrWrite (queue value : Nat)
  | dispatcherTakeRecord (src : Nat)
  | dispatchPlace
  | preemptWaitExpiry (src : Nat)
  | reclaimTimeout (gang : Nat)
  | laneGrant (gang : Nat)
  | gangComplete (gang : Nat)
  | clusterIdleEntry (cluster : Nat)
  | clusterWake (cluster : Nat)
  | clusterExitDone (cluster : Nat)
  | packageC4Entry
  | packageC4Exit
  | quiesceDrain (cluster : Nat)
  | quiesceEvict (cluster : Nat)
  | quiesceHold (cluster : Nat)
  | quiesceRelease (cluster : Nat)
  | clusterQuiesced (cluster : Nat)
  | clusterWakeWrite (cluster value : Nat)
  | controlInterval (watts : Nat)
  | fastLimiterSample (watts : Nat)
  | thermalControlInterval (tmax slope : Nat)
  | thermalEmergency
  | hardTrip
  | peakClear
  | aostatLogClear
  | hbmCorrectedError (stack : Nat)
  | hbmUncorrectableError (stack pa : Nat)
  | patrolScrub (stack : Nat)
  | channelIdleLend (stack chan : Nat)
  | lendHandshakeDone (stack chan : Nat)
  | lendReverse (stack chan : Nat)
  | dieLinkLaneError (link : Nat)
  | linkRetrainDone (link : Nat)
  | hostAtomicop (op size addr value cmp : Nat)
  | hostLinkDown
  | hostLinkUp
  | hotReset
  | flitReceive (port flit : Nat)
  | flitNakReplay (port good : Nat)
  | flitReplayTimeout (port : Nat)
  | laneErrorInterval (port lane : Nat)
  | portRetrainDone (port : Nat)
  | portTrainingTimeout (port : Nat)
  | fabricAccessArrival (port kind size offset value : Nat)
  | remoteLostDeferred (sid : Nat)
  | mctpMessage (message : Nat)
  | tlbInvStart
  | portDisable (port : Nat)
  | registerWrite (addr size value : Nat)
  | packageReset
  | firmwareVerifyDone (ok : Nat)
  | dieLinksTrained (failed : Nat)
  | hostPortTrained
  | hbmTrained (failed : Nat)
  | hostdnClear
  | lendDisable (stack : Nat)
  | hostPostedWrite (addr size value : Nat)
  | read (o : RDOp)
  | mov (o : GOp)
  | null (o : GOp)
  | sel (o : G3Op)
  | movi (o : IOp)
  | orhi (o : IOp)
  | lpci (o : IOp)
  | teq (o : GOp)
  | tne (o : GOp)
  | tlt (o : GOp)
  | tltu (o : GOp)
  | tle (o : GOp)
  | tleu (o : GOp)
  | tgt (o : GOp)
  | tgtu (o : GOp)
  | tge (o : GOp)
  | tgeu (o : GOp)
  | tbit (o : GOp)
  | teqi (o : ITOp)
  | tnei (o : ITOp)
  | tlti (o : ITOp)
  | tltui (o : ITOp)
  | tlei (o : ITOp)
  | tleui (o : ITOp)
  | tgti (o : ITOp)
  | tgtui (o : ITOp)
  | tgei (o : ITOp)
  | tgeui (o : ITOp)
  | tbiti (o : ITOp)
  | br (o : BOp)
  | call (o : BOp)
  | bro (o : BXOp)
  | callo (o : BXOp)
  | halt (o : BXOp)
  | yld (o : BXOp)
  | sys (o : BXOp)
  | brk (o : BXOp)
  | spawn (o : GOp)
  | bar (o : GOp)
  | gid (o : GOp)
  | gsize (o : GOp)
  | cid (o : GOp)
  | sleep (o : GOp)
  | add (o : GOp)
  | sub (o : GOp)
  | mul (o : GOp)
  | mulh (o : GOp)
  | mulhu (o : GOp)
  | div (o : GOp)
  | divu (o : GOp)
  | rem (o : GOp)
  | remu (o : GOp)
  | and (o : GOp)
  | or (o : GOp)
  | xor (o : GOp)
  | andn (o : GOp)
  | shl (o : GOp)
  | shr (o : GOp)
  | sra (o : GOp)
  | rotl (o : GOp)
  | rotr (o : GOp)
  | min (o : GOp)
  | max (o : GOp)
  | minu (o : GOp)
  | maxu (o : GOp)
  | clz (o : GOp)
  | ctz (o : GOp)
  | popc (o : GOp)
  | sextb (o : GOp)
  | sexth (o : GOp)
  | sextw (o : GOp)
  | zextb (o : GOp)
  | zexth (o : GOp)
  | zextw (o : GOp)
  | abs (o : GOp)
  | addi (o : IOp)
  | andi (o : IOp)
  | ori (o : IOp)
  | xori (o : IOp)
  | shli (o : ITOp)
  | shri (o : ITOp)
  | srai (o : ITOp)
  | rotli (o : ITOp)
  | muli (o : ITOp)
  | leai (o : ITOp)
  | faddS (o : GOp)
  | fsubS (o : GOp)
  | fmulS (o : GOp)
  | fdivS (o : GOp)
  | fsqrtS (o : GOp)
  | fmaS (o : G3Op)
  | fminS (o : GOp)
  | fmaxS (o : GOp)
  | frsqrtS (o : GOp)
  | fcvtfiS (o : GOp)
  | fcvtifS (o : GOp)
  | fcvtffS (o : GOp)
  | fteqS (o : GOp)
  | ftltS (o : GOp)
  | ftleS (o : GOp)
  | fclassS (o : GOp)
  | faddD (o : GOp)
  | fsubD (o : GOp)
  | fmulD (o : GOp)
  | fdivD (o : GOp)
  | fsqrtD (o : GOp)
  | fmaD (o : G3Op)
  | fminD (o : GOp)
  | fmaxD (o : GOp)
  | frsqrtD (o : GOp)
  | fcvtfiD (o : GOp)
  | fcvtifD (o : GOp)
  | fcvtffD (o : GOp)
  | fteqD (o : GOp)
  | ftltD (o : GOp)
  | ftleD (o : GOp)
  | fclassD (o : GOp)
  | ldb (o : MOp)
  | ldbu (o : MOp)
  | ldh (o : MOp)
  | ldhu (o : MOp)
  | ldw (o : MOp)
  | ldwu (o : MOp)
  | ldd (o : MOp)
  | stb (o : MOp)
  | sth (o : MOp)
  | stw (o : MOp)
  | std (o : MOp)
  | stqw (o : MOp)
  | stqd (o : MOp)
  | aadd (o : AOp)
  | aand (o : AOp)
  | aor (o : AOp)
  | axor (o : AOp)
  | amin (o : AOp)
  | amax (o : AOp)
  | aminu (o : AOp)
  | amaxu (o : AOp)
  | aswap (o : AOp)
  | acas (o : A3Op)
  | ainc (o : AOp)
  | abfa (o : A3Op)
  | aaddw (o : AOp)
  | acasw (o : A3Op)
  | aincw (o : AOp)
  | fenceAcq (o : AOp)
  | fenceRel (o : AOp)
  | fenceAr (o : AOp)
  | fenceSc (o : AOp)
  | scopeSet (o : AOp)
  | scopeGet (o : AOp)
  | scopeInv (o : AOp)
  | scopeGen (o : AOp)
  | qtime (o : GOp)
  | qlocal (o : GOp)
  | qdl (o : GOp)
  | qper (o : GOp)
  | ctlRd (o : GOp)
  | ctlWr (o : GOp)
  | tret (o : GOp)
  | tlbInv (o : GOp)
  | ctxSave (o : GOp)
  | ctxLoad (o : GOp)
  | vlset (o : GOp)
  | vlget (o : GOp)
  | vlmax (o : GOp)
  | vrel (o : GOp)
  | vgrant (o : GOp)
  | vawin (o : GOp)
  | vamerge (o : GOp)
  | vawclr (o : GOp)
  | cpsCfg (o : CPOp)
  | cpsGo (o : CPOp)
  | cpsStep (o : CPOp)
  | cpsAvail (o : CPOp)
  | cpsWait (o : CPOp)
  | cpsKill (o : CPOp)
  | cMov (o : COp)
  | cNull (o : COp)
  | cInc (o : COp)
  | cDec (o : COp)
  | cNot (o : COp)
  | cNeg (o : COp)
  | cZextw (o : COp)
  | cSextw (o : COp)
  | cZero (o : COp)
  | cOne (o : COp)
  | vadd (o : VOp)
  | vsub (o : VOp)
  | vrsub (o : VOp)
  | vmul (o : VOp)
  | vmulh (o : VOp)
  | vmadd (o : VOp)
  | vmsub (o : VOp)
  | vnmadd (o : VOp)
  | vdiv (o : VOp)
  | vrem (o : VOp)
  | vsqrt (o : VOp)
  | vrsqrt (o : VOp)
  | vrecip (o : VOp)
  | vmin (o : VOp)
  | vmax (o : VOp)
  | vabs (o : VOp)
  | vand (o : VOp)
  | vor (o : VOp)
  | vxor (o : VOp)
  | vnot (o : VOp)
  | vshl (o : VOp)
  | vshr (o : VOp)
  | vsra (o : VOp)
  | vneg (o : VOp)
  | vsadd (o : VOp)
  | vssub (o : VOp)
  | vaadd (o : VOp)
  | vsmul (o : VOp)
  | vnclip (o : VOp)
  | vnsra (o : VOp)
  | vclass (o : VOp)
  | vcvt (o : VOp)
  | vcvtmx (o : VOp)
  | vmerge (o : VOp)
  | vid (o : VOp)
  | vperm (o : VOp)
  | vslup (o : VOp)
  | vsldn (o : VOp)
  | vcompress (o : VOp)
  | vceq (o : VOp)
  | vcne (o : VOp)
  | vclt (o : VOp)
  | vcle (o : VOp)
  | vcgt (o : VOp)
  | vcge (o : VOp)
  | vcun (o : VOp)
  | vrsum (o : VOp)
  | vrosum (o : VOp)
  | vrmax (o : VOp)
  | vrmin (o : VOp)
  | vrand (o : VOp)
  | vror (o : VOp)
  | vrxor (o : VOp)
  | vrsummx (o : VOp)
  | vadds (o : VOp)
  | vsubs (o : VOp)
  | vmuls (o : VOp)
  | vmadds (o : VOp)
  | vmins (o : VOp)
  | vmaxs (o : VOp)
  | vshls (o : VOp)
  | vbcast (o : VOp)
  | vext (o : VXOp)
  | vcnt (o : VXOp)
  | mpop (o : VXOp)
  | mfirst (o : VXOp)
  | vins (o : VOp)
  | mand (o : VOp)
  | mor (o : VOp)
  | mxor (o : VOp)
  | mandn (o : VOp)
  | mnot (o : VOp)
  | mset (o : VOp)
  | mclr (o : VOp)
  | mfromv (o : VOp)
  | vld (o : VMOp)
  | vlds (o : VMOp)
  | vldx (o : VMOp)
  | vldseg (o : VMOp)
  | vldff (o : VMOp)
  | vldxo (o : VMOp)
  | vldmx (o : VMOp)
  | vldcs (o : VMOp)
  | vst (o : VMOp)
  | vsts (o : VMOp)
  | vstx (o : VMOp)
  | vstseg (o : VMOp)
  | vstxo (o : VMOp)
  | vsto (o : VMOp)
  | vstmx (o : VMOp)
  | vgl (o : VMOp)
  | vsc (o : VMOp)
  | vacc (o : VMOp)
  | vwait (o : VMOp)
  | mshape (o : TOp)
  | mzero (o : TOp)
  | mop (o : TOp)
  | mopmx (o : TOp)
  | mopd (o : TOp)
  | mld (o : TOp)
  | mst (o : TOp)
  | mrowv (o : TOp)
  | mvrow (o : TOp)
  | mcolv (o : TOp)
  deriving DecidableEq, Repr, Inhabited

/-- An instruction seen by its format, with its major and operation numbers (R34 to R36): what the encoder, the
operand-slot table and the fetch checks read. A machine event has no format. -/
inductive View where
  | g (maj xop : Nat) (o : GOp)
  | g3 (maj xop : Nat) (o : G3Op)
  | i (maj : Nat) (o : IOp)
  | it (maj xop : Nat) (o : ITOp)
  | rd (o : RDOp)
  | mem (maj xop : Nat) (o : MOp)
  | amo (maj xop : Nat) (o : AOp)
  | amo3 (xop : Nat) (o : A3Op)
  | b (maj : Nat) (o : BOp)
  | bx (xop : Nat) (o : BXOp)
  | cp (xop : Nat) (o : CPOp)
  | v (maj vop : Nat) (o : VOp)
  | vx (vop : Nat) (o : VXOp)
  | vm (maj vop : Nat) (o : VMOp)
  | c (cop : Nat) (o : COp)
  | tile (pmaj : Nat) (o : TOp)
  | event
  deriving DecidableEq, Repr

/-- The data slots an operation declares (R35 to R38): left, right, and the third slot when it is used for data. -/
structure Slots where
  l : Bool
  r : Bool
  t : Bool
  deriving DecidableEq, Repr, Inhabited

/-- Why a word is no instruction; the three codes of R40 that an instruction earns from its own bits, and a body that
ends before the instruction does. -/
inductive Reject where
  /-- Code 0x01: length class 11 or major 0x00. -/
  | illegal
  /-- Code 0x02: a reserved major, XOP, VOP, COP or PMAJ. -/
  | reserved
  /-- Code 0x03: a field drawn as 0 is not zero, PR is 11, or PR is not 00 beside a third data operand. -/
  | field
  /-- The bytes end inside the instruction. -/
  | short
  deriving DecidableEq, Repr

end Sys2Proof
end

