-- ==== Sys2Proof/Machine/State.lean ====
section
/-! DEFINITION. The state of the package: plain data, sparse, holding every piece of state the spec gives the machine.
INVENTORY.md lists each piece with its rule and its reset value. Registers that software reads as words are bit
vectors; counts, times, addresses of cells and indices are natural numbers. -/

namespace Sys2Proof.Machine

open Sys2Proof

/-- What a slot can hold (R28, R70, R106): a value, a null, or, in a write slot only, a value that comes after commit. -/
inductive Tok where
  | val (x : Dword)
  | null
  | later
  deriving DecidableEq, Repr, Inhabited

/-- A token in a slot: the quantum at which it may be used (R71), and the instruction that delivered it (R74). -/
structure Held where
  tok : Tok
  at_ : Nat
  src : Nat := 0
  deriving DecidableEq, Repr, Inhabited

/-- The operand slots of one instruction of a running block (R69, R70). -/
structure OpState where
  l : Option Held
  r : Option Held
  t : Option Held
  fired : Bool
  nulled : Bool
  deriving DecidableEq, Repr, Inhabited

/-- A fault of a running block (R74, R76, R296): when it was detected, its class in the order of R76, and what its
record carries. -/
structure FaultRec where
  key : Nat
  cls : Nat
  kind : Nat
  sub : Nat
  index : Nat
  vaddr : Nat
  info : Nat
  info2 : Nat
  deriving DecidableEq, Repr, Inhabited

/-- A leaf of the page tables (R304, R305): the 64 KiB-page number of its first byte, its level, its physical
address and its permissions. -/
structure Leaf where
  page : Nat
  level : Nat
  pa : Nat
  w : Bool
  sup : Bool
  x : Bool
  glob : Bool
  deriving DecidableEq, Repr, Inhabited

/-- The outcome of translating one 64 KiB page: a leaf, a fault with its sub-code, or an uncorrectable error at a table entry (R349). -/
inductive XRes where
  | ok (leaf : Leaf)
  | fail (sub : Nat)
  | poison (pa : Nat)
  deriving DecidableEq, Repr, Inhabited

/-- A TLB entry (R307). -/
structure TlbEntry where
  asid : Nat
  leaf : Leaf
  deriving DecidableEq, Repr, Inhabited

/-- One element of an access: its number, its address, the bit of that byte at which it starts, its width in bits, and
the bytes that the access touches for it. -/
structure Part where
  key : Nat
  va : Nat
  bit : Nat
  w : Nat
  size : Nat
  deriving DecidableEq, Repr, Inhabited

/-- Where an access stands: probing its pages, reading its segments, or done (R104, R107, R181). -/
inductive Phase where
  | probing
  | reading
  | done
  deriving DecidableEq, Repr, Inhabited

/-- One byte of a buffered store: its value and the mask of the bits it writes (R185, R191). -/
structure BByte where
  val : Byte
  mask : Byte
  deriving DecidableEq, Repr, Inhabited

/-- An L1 data line (R194): 64 bytes as one number, least significant byte first, and the fill that brought it. -/
structure L1Line where
  bytes : Nat
  fill : Nat
  deriving DecidableEq, Repr, Inhabited

/-- An access of a running block that has fired: its LSID, its kind of access (R298: 0 read, 1 write, 3 atomic), the rules
on the physical place of its bytes (`placeFault`), its element parts, the pages translated, the segments still to read and
their size, the bytes read, the bytes it stores, and what its instruction fixed when it fired (data operands, format word,
element count, register length, and the count at which `vldff` stops). `gath` is the stride of a load that allocates gathered
lines (R194), `sent` the quantum at which the datum that it waits for was sent (R280), `raw` the lines it has read, with the
strand's committed stores over them, while a load of a lower LSID may still have to read them (R264), and `snap` memory as it read it, with those
stores, while a `vldxo` or `vldmx` of a lower LSID may still come, whose own reads have an order or are one (R192). `took` is the fill of the line, read
ahead, from which the last segment of an ordered form took its value (R79, R192), and `route` what R193 says of the dies of a unit-stride access: bits 10 to 8 of
a base that is a multiple of 256. -/
structure Access where
  lsid : Nat
  acc : Nat
  place : Nat
  parts : List Part
  phase : Phase
  xl : NMap XRes
  segs : List Nat
  unit : Nat
  got : NMap Byte
  ordered : Bool
  out : NMap BByte
  data : Nat
  data2 : Nat
  fw : Nat
  n : Nat
  vlenb : Nat
  cut : Nat
  gath : Option Nat := none
  sent : Nat := 0
  raw : NMap Nat := []
  snap : Option (List Host.Cell) := none
  took : Option Nat := none
  route : Option Nat := none
  deriving DecidableEq, Repr, Inhabited

/-- The part of a write that lies in one segment (R192): the virtual address of its first byte, its physical bytes, the leaf
pages whose pins it holds (R182), whether its home holds it back (R252), and the `route` of its access (R193). -/
structure SegW where
  va : Nat
  bytes : NMap BByte
  pages : List Nat
  held : Bool
  route : Option Nat := none
  deriving DecidableEq, Repr, Inhabited

/-- The data of a store form that has resolved (R104, R182): its segments, whether they perform in order (R192), and the
register that waits for its stamp (R106). -/
structure StoreBuf where
  lsid : Nat
  segs : List SegW
  ordered : Bool
  stamp : Option Nat
  sc : Bool
  deriving DecidableEq, Repr, Inhabited

/-- A renamed register of a running block (R138, R162): its bits, its writer, whether its value has arrived, whether its write has been
reported, whether its writer was nulled. A block keeps one for each writer of a register, at 128 times the register plus the writer's index. -/
structure Renamed where
  bits : Nat
  writer : Nat
  ready : Bool
  reported : Bool
  nulled : Bool
  deriving DecidableEq, Repr, Inhabited

/-- A Sedge table entry (R235). -/
structure Sedge where
  cores : BitVec 32
  l2 : BitVec 8
  slough : BitVec 8
  host : Bool
  fabric : Bool
  meet : BitVec 2
  gen : BitVec 8
  valid : Bool
  deriving DecidableEq, Repr, Inhabited

/-- A tile shape record (R199): rows, columns, and the cell type 0 FP32, 1 INT32, 2 FP64. -/
structure Shape where
  rows : Nat
  cols : Nat
  cell : Nat
  deriving DecidableEq, Repr, Inhabited

/-- A copy-stream record (R221). -/
structure StreamRec where
  srcBase : Nat
  srcStride : Nat
  dstBase : Nat
  dstStride : Nat
  n : Nat
  free : Bool
  scope : Nat
  red : Nat
  fmt : Nat
  strip : Nat
  deriving DecidableEq, Repr, Inhabited

/-- A start record (R317). -/
structure StartRec where
  entry : Dword
  args : Dword
  ctx : Dword
  done : Dword
  asid : BitVec 16
  doneScope : BitVec 4
  super : Bool
  prio : BitVec 3
  affinity : BitVec 32
  gsize : BitVec 4
  slabPref : BitVec 6
  slabMin : BitVec 6
  vceil : BitVec 22
  reservedOk : Bool
  deriving DecidableEq, Repr, Inhabited

/-- What a posted tile form fixed before commit (R202): its operation, its tile, its operands and masks as bits, its
element count, its format word and its register length; `early` holds the lines that later loads of its block have read before it
(R264), `sent` the quantum at which it left the front end (R280), or at which an `mld` that has read memory, which `read` tells, had its
bytes sent to the plane array. -/
structure TileOp where
  idx : Nat
  item : Nat
  op : Nat
  tile : Nat
  shape : Shape
  va : List Nat
  vb : List Nat
  mask : Nat
  sca : Nat
  scb : Nat
  fw : Nat
  n : Nat
  kg : Nat
  vlenb : Nat
  row : Nat
  count : Nat
  base : Nat
  stride : Nat
  xl : NMap XRes
  early : NMap Nat := []
  sent : Nat := 0
  read : Bool := false
  deriving DecidableEq, Repr, Inhabited

/-- One element update of a `vacc` (R254): the lane group, the index, the element's bits read in SRC1, the stochastic
draw it takes, and the format word of its `vacc`. -/
structure VUpdate where
  elem : Nat
  group : Nat
  index : Nat
  bits : Nat
  draw : Nat
  fw : Nat
  deriving DecidableEq, Repr, Inhabited

/-- What a block posts to its commit, beside its register writes (R73). A `vacc` and a `vamerge` carry the number of their window (R254, R255). -/
inductive Post where
  | ctl (num : Nat) (val : Dword)
  | tile (op : TileOp)
  | cpsCfg (stream : Nat) (rec : StreamRec)
  | cpsGo (stream : Nat) (snap : Sedge) (rec : StreamRec)
  | cpsStep (stream : Nat)
  | cpsKill (stream : Nat)
  | scopeSet (entry : Nat) (def_ : Sedge)
  | scopeInv (entry : Nat)
  | spawn (rec : StartRec)
  | bar
  | sleep (q : Dword)
  | vwait (count n : Nat)
  | vrel
  | tret
  | tlbInv (va : Dword) (ctl : Dword)
  | ctxSave (gang : Nat)
  | ctxLoad (addr : Dword) (hdr : Nat)
  | vawin (id : Nat) (base : Dword) (desc : Dword)
  | vamerge (base desc : Dword) (pages : NMap XRes) (win : Nat)
  | vawclr
  | vlset (slabs : Nat)
  | fence (lsid kind : Nat) (snap : Sedge)
  | atomic (lsid xop size pa va : Nat) (r t : Dword) (reg : Option Nat) (snap : Sedge) (pins : List Nat)
  | vacc (lsid : Nat) (ups : List VUpdate) (win : Nat)
  deriving DecidableEq, Repr, Inhabited

/-- The exit that has fired, with the end of the step in which it did and the block it names (R86 to R89): 0 a plain
branch, 1 a call that sets g1 to the carried value, 2 halt, 3 yld, 4 sys with its token, 5 brk. -/
structure Exit where
  idx : Nat
  at_ : Nat
  kind : Nat
  target : Dword
  link : Dword
  deriving DecidableEq, Repr, Inhabited

/-- The header of a block (R24). -/
structure Header where
  version : Nat
  icount : Nat
  exits : Nat
  stmask : BitVec 32
  wrmask : BitVec 64
  vwmask : BitVec 32
  mwmask : BitVec 7
  acmask : BitVec 8
  csmask : BitVec 8
  reservedOk : Bool
  deriving DecidableEq, Repr, Inhabited

/-- A fetched block (R42, R43, R66): its address, header and body words as the fetch read them, the fault that the fetch holds, the quantum
at which its home sent it and some of its physical bytes there (R280), and the lines that it has read ahead of the commit of its predecessor, each with the
read that brought it (R79, R265). -/
structure Fetched where
  base : Dword
  hdr : Header
  body : List Nat
  len : Nat
  sup : Bool
  fault : Option FaultRec
  at_ : Nat := 0
  home : List Nat := []
  ahead : NMap L1Line := []
  deriving DecidableEq, Repr, Inhabited

/-- A running block (R66): what it was fetched as, and everything of it that an abort discards (R77). `lsids` gives, for each LSID that has
resolved, the instruction that resolved it and the step in which it did (R74); `waits`, for each lane instruction that has fired, the lane steps that
its core had made then (R324). -/
structure Window where
  blk : Fetched
  start : Nat
  excluded : Nat
  waits : NMap Nat := []
  ops : NMap OpState
  slots : NMap Held
  lsids : NMap (Nat × Nat)
  exit : Option Exit
  accs : NMap Access
  stores : NMap StoreBuf
  v : NMap Renamed
  m : NMap Renamed
  scl : NMap Renamed
  vl : Option Nat
  counts : NMap Nat
  events : NMap Nat
  sr : NMap (BitVec 32)
  posts : NMap Post
  resv : List Nat
  armed : List Nat
  armedHit : Bool
  links : List Nat
  fault : Option FaultRec
  deriving DecidableEq, Repr, Inhabited

/-- A committed memory operation that has not performed yet, with its place in program order. A tile move has its hull, the leaves of its probe and
the first physical byte of each of its lines. -/
inductive PKind where
  | store (segs : List SegW) (ordered : Bool) (stamp : Option Nat) (sc : Bool)
  | fence (kind : Nat) (snap : Sedge)
  | atomic (xop size pa va : Nat) (r t : Dword) (reg : Option Nat) (snap : Sedge) (pins : List Nat)
  | vacc (ups : List VUpdate)
  | vamerge (base desc : Nat) (pages : NMap XRes) (next : Nat)
  | tile (write : Bool) (lo hi : Nat) (leafs : NMap XRes) (homes : List Nat)
  deriving DecidableEq, Repr, Inhabited

/-- `sent` is the quantum at which it left the front end (R280); `port` carries an atomic to another device (R362). -/
structure PItem where
  q : Nat
  kind : PKind
  sent : Nat := 0
  port : Option Nat := none
  deriving DecidableEq, Repr, Inhabited

/-- A register that waits for a stamp, or for an atomic's old value (R106, R246): the posted item, which of the two, the value once it is on
its way back, and the quantum at which it was sent (R280) and the place that sent it, as a byte number. -/
structure Pending where
  item : Nat
  old : Bool
  value : Option Dword
  sent : Nat := 0
  place : Nat := 0
  deriving DecidableEq, Repr, Inhabited

/-- An entry of the address-range interlock (R231): the operation (a stream number, or a posted item), the hull of
virtual addresses, and whether the operation writes it. -/
structure Interlock where
  stream : Option Nat
  item : Nat
  lo : Nat
  hi : Nat
  write : Bool
  deriving DecidableEq, Repr, Inhabited

/-- What keeps a strand from starting its next block (R334): parked, replay-pending, halted, or held until its save area is read. That a
fatal record has stopped its gang (R301) stands beside this, in `Strand.stopped`. -/
inductive RunState where
  | active
  | parked
  | pend
  | halted
  | held
  deriving DecidableEq, Repr, Inhabited

/-- A sleep in `vwait` (R256): the lines watched; whether a watched write has been seen. -/
structure Sleep where
  lines : List Nat
  hit : Bool
  deriving DecidableEq, Repr, Inhabited

/-- A strand (R19, R290, R291): its architectural state and what its core holds for it; `stopped` while a fatal record keeps its gang stopped
(R301), which leaves `run` as it was; `again` while it replays for a slot that has freed (R300). -/
structure Strand where
  pc : Dword
  g : Vector Dword 64
  pend : NMap Pending
  v : NMap Nat
  m : NMap Nat
  scl : NMap Nat
  vl : BitVec 22
  grant : Nat
  posted : Option Nat
  vceil : BitVec 22
  fstat : BitVec 6
  eix : NMap (Nat × Nat)
  srseed : BitVec 32
  sr : NMap (BitVec 32)
  mstat : BitVec 6
  qdl : Dword
  wstat : BitVec 64
  sup : Bool
  tcause : Dword
  taddr : Dword
  tinfo : Dword
  btmo : Dword
  gang : Nat
  cid : Nat
  asid : BitVec 16
  ctx : Nat
  run : RunState
  stopped : Bool
  barWait : Bool
  sleepTo : Option Nat
  vsleep : Option Sleep
  tlbWait : Option Nat
  fetched : Option Fetched
  win : Option Window
  items : List PItem
  acqs : List Sedge
  mq : List TileOp
  lock : List Interlock
  deferred : List FaultRec
  parkKind : Nat
  parkInfo : Dword
  redo : Bool
  again : Bool := false
  deriving DecidableEq, Repr

/-- A save asked for (R308): by whom (0 `ctx.save`, 1 the dispatcher, 2 a quiesce, 3 the thermal response), whether only scalar
state is saved (R312), whether the engine has begun. -/
structure SaveOp where
  by_ : Nat
  scalarOnly : Bool
  started : Bool
  deriving DecidableEq, Repr, Inhabited

/-- What is kept of a saved copy stream beside its save area (R226 to R228, R231 to R233): its current strip, the partial sums as they stood before that
strip, the snapshot, the elements above its position that are written, its place in the program order of its strand, and the final writes of
RED = 2 that it has made. -/
structure KeptStream where
  stream : Nat
  cur : Nat
  saved : NMap (BitVec 32)
  snap : Sedge
  written : NMap Bool := []
  item : Nat := 0
  finals : NMap Bool := []
  deriving DecidableEq, Repr, Inhabited

/-- A resident gang (R18, R317, R329), or one whose id is reserved while it waits to be restored (R328). `donePa` is where its DONE
lies (R321); `restore` is the save area of a placed resumption that is still to be read, with the descriptor it is read through;
`doneSnap` is the entry of its completion scope as its last strand halted (R329); `refused` numbers the waiting records for which a
save of it was refused, and `forHead` the record that it is to make room for (R326); `kept` is what a save of it keeps of its streams beside the save area. -/
structure Gang where
  ctx : Nat
  asid : BitVec 16
  core : Nat
  members : List Nat
  gsize : Nat
  prio : Nat
  affinity : BitVec 32
  slabMin : Nat
  slabPref : Nat
  super : Bool
  args : Dword
  done : Dword
  donePa : Option Nat
  doneScope : Nat
  qstart : Option Nat
  src : Option Nat
  restore : Option (Nat × Nat)
  born : Nat
  arrived : List Nat
  reclaim : Option (Nat × Nat)
  save : Option SaveOp
  killed : Bool
  stopped : Option Nat
  refused : List Nat
  resident : Bool
  doneSnap : Option Sedge := none
  forHead : Option Nat := none
  kept : List KeptStream := []
  deriving DecidableEq, Repr, Inhabited

/-- A context (R235, R306): its descriptor and its Sedge table, the copies its cores hold, the reservations of R240 and
the acknowledgements still awaited, with the quantum at which the last change of each entry was sent to the cores (R280). -/
structure Context where
  ptroot : Dword
  sabase : Dword
  sasize : Dword
  table : NMap Sedge
  copies : NMap (NMap Sedge)
  resv : NMap Nat
  unacked : List (Nat × Nat)
  broken : Bool
  sentAt : NMap Nat := []
  deriving DecidableEq, Repr, Inhabited

/-- An instruction in the lane pipe (R279): its class, the execute steps left, whether it writes a register, whether it has
been a step in its stage, whether it has acted, and the token it delivers at the end of its execute steps. -/
structure PipeE where
  sid : Nat
  idx : Nat
  sent : Nat
  cls : Nat
  left : Nat
  writes : Bool
  aged : Bool
  ran : Bool
  tok : Option Tok
  deriving DecidableEq, Repr, Inhabited

/-- A datum on its way to the front end (R280): a token of an instruction, or a write-completion report. -/
structure Datum where
  sid : Nat
  idx : Nat
  sent : Nat
  tok : Option Tok
  deriving DecidableEq, Repr, Inhabited

/-- A division in a divider or waiting for one (R96, R102): the step in which it fired, its result, its flags, its steps; `dead` when its
block has aborted, so that it leaves its unit at the end of the step (R111). -/
structure DivOp where
  key : Nat
  sid : Nat
  idx : Nat
  result : Dword
  flags : Nat
  left : Nat
  dead : Bool := false
  deriving DecidableEq, Repr, Inhabited

/-- A region's clock (R276, R281): the step in progress, its local count's difference from `qtime`, the slews still to make, and the
period floor under which the step in progress began (R285). -/
structure Region where
  start : Nat
  stop : Nat
  lag : Int
  slew : Int
  steps : Nat
  frozen : Option Nat
  floor : Nat := 2
  deriving DecidableEq, Repr, Inhabited

/-- One lane slice or plane array slice of a core (R22, R281): the difference of its local count from `qtime`, the slews still to make and the steps
made; `stop` ends the last step that a lane slice has made of its own, for an access of its scratchpad banks while its pipe is empty (R195, R276). The
slices make the pipe's steps together, since each has the same instructions and the same floor (R279). -/
structure SliceCount where
  lag : Int
  slew : Int
  steps : Nat
  stop : Nat := 0
  deriving DecidableEq, Repr, Inhabited

/-- An entry the plane array works on (R206). -/
structure PlaneE where
  sid : Nat
  left : Nat
  deriving DecidableEq, Repr, Inhabited

/-- An accumulator tile (R198 to R200): the gang that holds it, its shape as performed and as committed, its cells. -/
structure Tile where
  gang : Option Nat
  shape : Option Shape
  committed : Option Shape
  cells : NMap (BitVec 32)
  deriving DecidableEq, Repr, Inhabited

/-- A strip in a strip buffer (R227): its number, the elements read from the source, and the quantum at which each left there, with its place (R280). -/
structure Strip where
  t : Nat
  vals : NMap Nat
  came : NMap (Nat × Nat) := []
  deriving DecidableEq, Repr, Inhabited

/-- A copy stream (R220 to R233): its gang and record, its state code, its current strip, the strips in its buffer, the
elements written in full below `done_` and those written above, its events, its partial sums and those before the current
strip, the final writes of RED = 2 made, its issuing strand (with its `cid` and address space), its snapshot, and the
element and kind of a failed access; `draining` after its issuing strand halted; the quantum at which it last sent for a strip (R280). -/
structure Stream where
  gang : Option Nat
  desc : StreamRec
  state : Nat
  cur : Nat
  strips : List Strip
  done_ : Nat
  written : NMap Bool
  events : BitVec 6
  part : NMap (BitVec 32)
  saved : NMap (BitVec 32)
  finals : NMap Bool
  issuer : Nat
  cid : Nat
  snap : Sedge
  item : Nat
  failKind : Nat
  failAt : Nat
  draining : Bool
  sent : Nat := 0
  deriving DecidableEq, Repr, Inhabited

/-- An accumulation window (R253): its number, the gang it is open for, its base and descriptor, the elements of its copies (lane group g,
index i at key 32768·g + i) that differ from the identity, the free value its copies took when they became undefined, and
whether it has closed while operations of earlier commits still work on it (R254, R255); `out` has, for the posted item of a `vamerge`, the copies
of the element that it folds next, once the banks have sent them (R280). -/
structure AccWin where
  id : Nat := 0
  gang : Nat
  base : Dword
  desc : Dword
  copies : NMap Nat
  undef : Option Nat
  closed : Bool
  out : NMap (List Nat) := []
  deriving DecidableEq, Repr, Inhabited

/-- A trap record (R297), field by field. -/
structure TrapRec where
  asid : BitVec 16
  core : BitVec 5
  ctxn : BitVec 3
  fovf : Bool
  repeat_ : Bool
  parked : Bool
  fatal : Bool
  rpl : Bool
  index : BitVec 8
  sub : BitVec 8
  kind : BitVec 8
  block : Dword
  vaddr : Dword
  info : Dword
  info2 : Dword
  qt : Dword
  seq : BitVec 32
  gang : BitVec 8
  deriving DecidableEq, Repr, Inhabited

/-- A gathered line (R194): its tag, the address of its first element and the stride; the bytes of its elements by physical address; the
fill that brought the last of them. -/
structure GLine where
  base : Nat
  stride : Nat
  bytes : NMap Byte
  fill : Nat
  deriving DecidableEq, Repr, Inhabited

/-- A link (R251): the strand, the line, whether its block has committed. -/
structure Link where
  sid : Nat
  line : Nat
  usable : Bool
  deriving DecidableEq, Repr, Inhabited

/-- A core (R13, R14) and what its front end, lanes, plane array and engines hold. `fills` are the loads whose data the lane slices have accepted and
not yet reported, `banks` the scratchpad banks that serve an access in the step of their lane slice that begins next, `served` those that have served one in
the step in progress (R195), `late` of each strand context the lane step since which the promoted instructions that it last had dispatched had waited, and their
number (R324), `planeWake` tells that the plane array has
accepted data (R276). `smear` lists the free values that windows left in the
scratchpad, each with the offset below which it did, the newest first (R253); `slices` the counts of lane slices 0 to 7 and of
plane array slices 8 to 15; `resumes` the writes to RESUME, with RESUMEPC, that wait for the exit from a power state (R334, R340). -/
structure Core where
  fe : Region
  issue : Option (Nat × Nat)
  issueRr : Nat
  late : NMap (Nat × Nat) := []
  wake : Bool
  lanes : Region
  inbox : List PipeE
  rd : Option PipeE
  ex : Option PipeE
  wr : Option PipeE
  fills : List Datum := []
  banks : List Nat := []
  served : List Nat := []
  gated : List Nat
  slices : NMap SliceCount
  toFe : List Datum
  idiv : NMap DivOp
  idivWait : List DivOp
  fdiv : Option DivOp
  fdivWait : List DivOp
  plane : Region
  planeCur : Option PlaneE
  planeFill : List PlaneE
  planeRr : Nat
  planeWake : Bool := false
  tiles : NMap Tile
  streams : NMap Stream
  accWin : Option AccWin
  smear : List (Nat × Nat)
  l1 : NMap L1Line
  gl1 : List GLine
  tlb : List TlbEntry
  links : List Link
  watches : List (Nat × Nat)
  queue : List TrapRec
  fatal : Option TrapRec
  notices : List TrapRec
  seq : BitVec 32
  spawn : List (StartRec × Nat)
  resumePc : Dword
  resumes : List (Nat × Nat × Dword) := []
  owner : Option (BitVec 16)
  deriving DecidableEq, Repr, Inhabited

/-- A page walk in progress (R307): its ASID, root and page, and the cores that wait for it. -/
structure Walk where
  asid : BitVec 16
  root : Dword
  page : Nat
  cores : List Nat
  deriving DecidableEq, Repr, Inhabited

/-- A write held at its home behind another strand's reservation (R252): the source port, the bytes,
and the posted item and segment it belongs to; `src` is the host queue of a completion record, whose MSI-X follows it (R329). -/
structure HeldWrite where
  port : Nat
  bytes : NMap BByte
  item : Option (Nat × Nat × Nat)
  src : Option Nat := none
  deriving DecidableEq, Repr, Inhabited

/-- A Reed die: its L2 TLB, its L2 and Slough lines, its region's clock, and its HBM stack's registers (R307, R194, R364). -/
structure Die where
  tlb : List TlbEntry
  l2 : List Nat
  slough : List Nat
  clock : Region
  trained : Bool
  uecnt : BitVec 16
  cecnt : BitVec 32
  lend : Bool
  lent : BitVec 32
  lastUse : NMap Nat
  handshake : NMap Nat
  poison : List Nat
  deriving DecidableEq, Repr, Inhabited

/-- A die link (R351, R353, R364). -/
structure DieLink where
  mods : BitVec 3
  repaired : Bool
  retraining : Bool
  lost : Bool
  deriving DecidableEq, Repr, Inhabited

/-- A scale-up port (R358 to R360, R364); `since` is the quantum at which its training began, and `unacked` its replay buffer: each flit's SEQ, with the
times it has been replayed. -/
structure Port where
  replays : BitVec 32
  badLane : BitVec 4
  peer : BitVec 8
  state : BitVec 3
  en : Bool
  pending : BitVec 3
  retraining : Bool
  since : Nat := 0
  nextSeq : Nat
  unacked : List (Nat × Nat)
  sentAt : Nat
  expect : Nat
  received : List Nat
  naks : List Nat
  deriving DecidableEq, Repr, Inhabited

/-- A core cluster's power registers and state (R333 to R341): `floor` is the floor fixed for it alone, `eff` the floor in force, `level`
its voltage level, `effAt` the control interval in which `eff` last changed, counted from 1 (R341). -/
structure Cluster where
  cltr : BitVec 32
  wakes : BitVec 16
  spilled : Bool
  quiesced : Bool
  predRef : Bool
  state : Nat
  force : Bool
  target : BitVec 2
  mode : BitVec 2
  qreq : Bool
  floor : Nat
  eff : Nat
  level : Nat
  effAt : Nat
  stopAt : Option Nat
  idleSince : Option Nat
  idles : List Nat
  underReq : Bool
  waking : Bool
  deriving DecidableEq, Repr, Inhabited

/-- The package registers of R342 and R344, and the controller's history; `ctlAt` and `thmAt` are the control intervals whose ends the cap
and the thermal controllers have acted on (R342). -/
structure Pkg where
  pltr : BitVec 32
  predRef : Bool
  c4 : Bool
  capEn : Bool
  cap : BitVec 16
  win : BitVec 16
  peak : BitVec 16
  avg : BitVec 16
  capf : Nat
  capf10 : Nat
  thmf : Nat
  limf : Nat
  tsaved : Bool
  limit : Bool
  unmet : Bool
  overFor : Nat
  watts : List Nat
  tmax : BitVec 8
  slope : BitVec 8
  warn : BitVec 8
  emergency : Bool
  idles : List Nat
  c4Since : Option Nat
  ctlAt : Nat
  thmAt : Nat
  deriving DecidableEq, Repr, Inhabited

/-- AOSTAT (R346), in the always-on domain. -/
structure AoStat where
  qtrip : BitVec 32
  nsaved : BitVec 8
  refused : Bool
  vlost : Bool
  esave : Bool
  trip : Bool
  deriving DecidableEq, Repr, Inhabited

/-- A host ring of the trap router (R302). -/
structure Ring where
  rbase : Dword
  vec : BitVec 11
  en : Bool
  rsize : BitVec 5
  rhead : BitVec 32
  rtail : BitVec 32
  deriving DecidableEq, Repr, Inhabited

/-- A host queue (R315). -/
structure HostQueue where
  qbase : Dword
  vec : BitVec 11
  cie : Bool
  en : Bool
  qsize : BitVec 5
  qwr : BitVec 32
  qrd : BitVec 32
  badIdx : BitVec 32
  badCode : BitVec 8
  ovr : Bool
  bad : Bool
  deriving DecidableEq, Repr, Inhabited

/-- A record that the dispatcher has read and found good, waiting at its head to be placed (R319, R326), with a number of its own. -/
structure HeadRec where
  start : StartRec
  since : Nat
  id : Nat := 0
  deriving DecidableEq, Repr, Inhabited

/-- An entry of the resumption list (R328), with the code of the fatal record that keeps its gang stopped (R301); the save area is read under the translation of the descriptor at
`via`; `bars` and `arrived` are the `cid`s that wait at the gang's barrier and that have arrived (R258). -/
structure Resume where
  gang : Nat
  area : Dword
  ctx : Nat
  via : Nat
  prio : Nat
  affinity : BitVec 32
  gsize : Nat
  slabMin : Nat
  slabPref : Nat
  idKept : Bool
  since : Nat
  args : Dword
  src : Option Nat
  qstart : Option Nat
  bars : List Nat
  arrived : List Nat
  kept : List KeptStream := []
  stopped : Option Nat := none
  deriving DecidableEq, Repr, Inhabited

/-- What the dispatcher keeps of a gang that `ctx.save` has saved, by the gang and its save area (R329, R330): the ARGS and QSTART of its
completion record, its host queue, what it keeps of its streams, the code of the fatal record that keeps it stopped (R301), and the `cid`s that wait at
its barrier and that have arrived (R258). -/
structure SavedGang where
  gang : Nat
  ctx : Nat
  area : Dword
  args : Dword
  qstart : Option Nat
  src : Option Nat
  kept : List KeptStream := []
  stopped : Option Nat := none
  bars : List Nat := []
  arrived : List Nat := []
  deriving DecidableEq, Repr, Inhabited

/-- The launch dispatcher (R315, R319, R328). `notes` holds, by gang and save area, the stream notices that a save has found still held, to be
written from the new core after the restore (R314); in the place of the strand context each has the `cid` of its strand meanwhile. -/
structure Dispatcher where
  queues : NMap HostQueue
  rcltmo : BitVec 32
  pwait : BitVec 32
  heads : NMap HeadRec
  resumes : List Resume
  saved : List SavedGang
  notes : List (Nat × Nat × TrapRec) := []
  rrQueue : Nat
  rrSpawn : Nat
  deriving DecidableEq, Repr, Inhabited

/-- An invalidation that has been committed or started and has not finished (R293): its kind, ASID and address, the
strand that waits for it (none for the host's), the walks that began before it. -/
structure Inval where
  id : Nat
  kind : Nat
  asid : BitVec 16
  va : Dword
  sid : Option Nat
  walks : Nat
  deriving DecidableEq, Repr, Inhabited

/-- The registers of R364 that belong to no stack, link or port, and what bring-up keeps (R365, R366): `romOnly` after a failed verification.
`rrRouter` is the core that the trap router served last (R302); `msixTable` holds the dwords of the MSI-X table (R355). -/
structure Board where
  taddr : Dword
  tasid : BitVec 16
  tkind : BitVec 2
  notif : BitVec 8
  msiEn : Bool
  nvec : BitVec 11
  failInfo : BitVec 8
  romOnly : Bool
  phase : BitVec 4
  devnum : BitVec 8
  fxbase : Dword
  fxsize : BitVec 39
  route : NMap (BitVec 18)
  reduced : Bool
  refClock : Bool
  railsOn : Bool
  rrRouter : Nat
  msixTable : NMap Dword
  deriving DecidableEq, Repr, Inhabited

/-- What the outside of the package holds that the package can see, and what it has been sent (R355, R357, R363): MSI-X
vectors, management events and replies, and fabric requests, newest first. -/
structure Outside where
  linkUp : Bool
  atomicEn : Bool
  msix : List Nat
  events : List Nat
  replies : List Nat
  deriving DecidableEq, Repr, Inhabited

/-- The stamp and the source port of the last write of a byte (R245). -/
structure Mark where
  stamp : Nat
  port : Nat
  deriving DecidableEq, Repr, Inhabited

/-- The strand and the instruction of its running block that a meaning acts on. -/
structure Cursor where
  sid : Nat
  idx : Nat
  deriving DecidableEq, Repr, Inhabited

/-- What an agent may do next: an instruction of a running block executes, a machine event happens, or time passes to
the given quantum. -/
inductive Activity where
  | fire (sid idx : Nat)
  | event (i : Instr)
  | tick (q : Nat)
  deriving DecidableEq, Repr

/-- The package. `plan`, `cursor`, `free` and `seq` are the model's own (log 1, 2, 3). -/
structure State where
  plan : List Activity
  cursor : Cursor
  free : Nat
  seq : Nat
  now : Nat
  mem : List Host.Cell
  marks : NMap Mark
  cores : NMap Core
  strands : NMap Strand
  gangs : NMap Gang
  contexts : NMap Context
  dies : NMap Die
  walks : NMap Walk
  held : NMap (List HeldWrite)
  resv : NMap Nat
  links : NMap DieLink
  ports : NMap Port
  clusters : NMap Cluster
  pkg : Pkg
  ao : AoStat
  trtbase : Dword
  rings : NMap Ring
  disp : Dispatcher
  invals : List Inval
  board : Board
  out : Outside
  deriving DecidableEq, Repr

/-- Why the machine stops. -/
inductive Fault where
  /-- Raised by `step` when the main rails are removed (R345): nothing of the package runs until power returns. Safe. -/
  | railsOff
  deriving DecidableEq, Repr

/-- Why a step has no meaning. -/
inductive Refusal where
  /-- An instruction that the model gives no meaning yet: none is left. Raised by no arm. Safe. -/
  | notModelled (mnemonic : String)
  /-- Raised by `step` when the plan fires a position whose word is no instruction: a block with such a word never runs
  (R40), so no run reaches it. Safe. -/
  | noInstruction
  deriving DecidableEq, Repr

/-- A region that has not run (R276). -/
def Region.reset : Region := { start := 0, stop := 0, lag := 0, slew := 0, steps := 0, frozen := none }

/-- A core after reset. -/
def Core.reset : Core :=
  { fe := .reset, issue := none, issueRr := 0, wake := false, lanes := .reset, inbox := [], rd := none, ex := none, wr := none, gated := [], slices := [],
    toFe := [], idiv := [], idivWait := [], fdiv := none, fdivWait := [], plane := .reset, planeCur := none, planeFill := [],
    planeRr := 0, tiles := [], streams := [], accWin := none, smear := [], l1 := [], gl1 := [], tlb := [], links := [], watches := [], queue := [],
    fatal := none, notices := [], seq := 0, spawn := [], resumePc := 0, owner := none }

/-- A Reed die after reset (R364). -/
def Die.reset : Die :=
  { tlb := [], l2 := [], slough := [], clock := .reset, trained := false, uecnt := 0, cecnt := 0, lend := true, lent := 0,
    lastUse := [], handshake := [], poison := [] }

/-- A die link after reset (R364). -/
def DieLink.reset : DieLink := { mods := 4, repaired := false, retraining := false, lost := false }

/-- A scale-up port after reset (R364). -/
def Port.reset : Port :=
  { replays := 0, badLane := 15, peer := 0, state := 0, en := true, pending := 0, retraining := false, nextSeq := 0, unacked := [],
    sentAt := 0, expect := 0, received := [], naks := [] }

/-- A cluster after reset (R338, R341). -/
def Cluster.reset : Cluster :=
  { cltr := 0, wakes := 0, spilled := false, quiesced := false, predRef := false, state := 0, force := false, target := 0,
    mode := 0, qreq := false, floor := 2, eff := 2, level := 0, effAt := 0, stopAt := none, idleSince := none, idles := [], underReq := false,
    waking := false }

/-- The package registers after reset (R342, R344); the spec gives TMAX no value (log 7). -/
def Pkg.reset : Pkg :=
  { pltr := 0, predRef := false, c4 := false, capEn := false, cap := 1800, win := 122, peak := 0, avg := 0, capf := 2,
    capf10 := 2, thmf := 2, limf := 2, tsaved := false, limit := false, unmet := false, overFor := 0, watts := [],
    tmax := 0, slope := 0, warn := 95, emergency := false, idles := [], c4Since := none,
    ctlAt := 0, thmAt := 0 }

/-- AOSTAT at first power-up (R346). -/
def AoStat.reset : AoStat :=
  { qtrip := 0, nsaved := 0, refused := false, vlost := false, esave := false, trip := false }

/-- A host ring after reset (R302). -/
def Ring.reset : Ring := { rbase := 0, vec := 0, en := false, rsize := 0, rhead := 0, rtail := 0 }

/-- A host queue after reset (R315). -/
def HostQueue.reset : HostQueue :=
  { qbase := 0, vec := 0, cie := false, en := false, qsize := 0, qwr := 0, qrd := 0, badIdx := 0, badCode := 0, ovr := false,
    bad := false }

/-- The dispatcher after reset (R315). -/
def Dispatcher.reset : Dispatcher :=
  { queues := [], rcltmo := 0x40000, pwait := 0x8000, heads := [], resumes := [], saved := [], rrQueue := 63, rrSpawn := 31 }

/-- The board registers after reset (R364, R365). -/
def Board.reset : Board :=
  { taddr := 0, tasid := 0, tkind := 0, notif := 0, msiEn := false, nvec := 0, failInfo := 0, romOnly := false, phase := 1, devnum := 0, fxbase := 0,
    fxsize := 0, route := [], reduced := false, refClock := true, railsOn := true, rrRouter := 31, msixTable := [] }

/-- The outside when the package leaves reset (log 9). -/
def Outside.reset : Outside := { linkUp := true, atomicEn := false, msix := [], events := [], replies := [] }

/-- The package right after reset: PHASE 1, no gang resident, memory with nothing listed (R365, R364, R342). -/
def State.reset : State :=
  { plan := [], cursor := { sid := 0, idx := 0 }, free := 0, seq := 0, now := 0, mem := [], marks := [], cores := [], strands := [],
    gangs := [], contexts := [], dies := [], walks := [], held := [], resv := [], links := [], ports := [], clusters := [],
    pkg := .reset, ao := .reset, trtbase := 0, rings := [], disp := .reset, invals := [], board := .reset, out := .reset }

/-- A core, a die, a link, a port, a cluster, a ring or a queue by number: at its reset value where it is not listed. -/
def State.core (s : State) (c : Nat) : Core := s.cores.getD c .reset
def State.die (s : State) (d : Nat) : Die := s.dies.getD d .reset
def State.link (s : State) (l : Nat) : DieLink := s.links.getD l .reset
def State.port (s : State) (p : Nat) : Port := s.ports.getD p .reset
def State.cluster (s : State) (k : Nat) : Cluster := s.clusters.getD k .reset
def State.ring (s : State) (k : Nat) : Ring := s.rings.getD k .reset
def State.queue (s : State) (q : Nat) : HostQueue := s.disp.queues.getD q .reset

end Sys2Proof.Machine
end

