-- ==== Sys2Proof/Machine/Mem.lean ====
section
/-! DEFINITION. The bytes of the package: one map from byte number to byte, in canonical form. Physical addresses (R305)
are their own numbers; scratchpad bytes lie beyond them (`spPhys`). A byte that is not listed reads 0 (log 4). -/

namespace Sys2Proof.Machine

/-- The form that equal memories share: addresses strictly rising, no byte that reads as an unlisted one. -/
def Memory.wf (m : List Host.Cell) : Bool := NMap.sorted m && m.all fun c => c.2 != 0

/-- What a byte that nothing has written reads as (log 4). -/
def Memory.unlisted : Byte := 0

/-- One byte. -/
def Memory.read (m : List Host.Cell) (a : Nat) : Byte := NMap.getD m a Memory.unlisted

/-- One byte written; writing what an unlisted byte reads as removes the entry. -/
def Memory.write (m : List Host.Cell) (a : Nat) (b : Byte) : List Host.Cell :=
  if b = Memory.unlisted then NMap.erase m a else NMap.put m a b

/-- Bytes written at rising addresses. -/
def Memory.writeList (m : List Host.Cell) (a : Nat) : List Byte → List Host.Cell
  | [] => m
  | b :: bs => Memory.writeList (Memory.write m a b) (a + 1) bs

/-- `n` bytes read as one little-endian number (R6). -/
def Memory.readLe (m : List Host.Cell) (a : Nat) : Nat → Nat
  | 0 => 0
  | n + 1 => (Memory.read m a).toNat + 256 * Memory.readLe m (a + 1) n

/-- A dword, and a list of dwords. -/
def Memory.dword (m : List Host.Cell) (a : Nat) : Dword := BitVec.ofNat 64 (Memory.readLe m a 8)

/-- The bytes of a write laid over a byte: the bits under the mask change. -/
def BByte.over (b : BByte) (old : Byte) : Byte := (old &&& ~~~b.mask) ||| (b.val &&& b.mask)

/-- The Reed die of a byte's home (R193), and its channel. -/
def homeDie (pa : Nat) : Nat := pa / 256 % 8
def homeChan (pa : Nat) : Nat := pa / 2048 % 32

/-- Where a physical byte is (R305). -/
inductive Place where
  | hbm
  | device
  | host
  | fabric
  | scratch
  | none
  deriving DecidableEq, Repr, Inhabited

/-- The place of a byte number. -/
def placeOf (pa : Nat) : Place :=
  if pa < hbmTop then .hbm
  else if devBase ≤ pa ∧ pa < devTop then .device
  else if hostBase ≤ pa ∧ pa < hostTop then .host
  else if fabBase ≤ pa ∧ pa < fabTop then .fabric
  else if spPhys 0 0 ≤ pa then .scratch
  else .none

/-- A byte that lies outside the package: in host memory or in a remote device's (R355, R361). -/
def outsideByte (pa : Nat) : Bool := placeOf pa == .host || placeOf pa == .fabric

/-- The 64-byte segment of an address (R192). -/
def lineOf (a : Nat) : Nat := a / 64

/-- A step of a region is in progress (R276). -/
def Region.stepping (r : Region) (now : Nat) : Bool := r.start ≤ now && now < r.stop

/-- The local count of a region (R281): `qtime` less its lag; a relock stops it at the quantum that ends the step in progress (R282). -/
def Region.count (r : Region) (now : Nat) : Nat :=
  match r.frozen with
  | some t => ((min now t : Int) - r.lag).toNat
  | none => ((now : Int) - r.lag).toNat

/-- A count after one more step, with the quantum of R281 counted more or less in one step of 256 while a difference is left: the steps
made, the slews still to make, the lag. -/
def slewStep (steps : Nat) (slew lag : Int) : Nat × Int × Int :=
  if slew ≠ 0 ∧ (steps + 1) % 256 = 0 then
    let d : Int := if 0 < slew then 1 else -1
    (steps + 1, slew - d, lag - d)
  else (steps + 1, slew, lag)

/-- A region ends a step. -/
def Region.end_ (r : Region) : Region :=
  let x := slewStep r.steps r.slew r.lag
  { r with steps := x.1, slew := x.2.1, lag := x.2.2 }

/-- An L2 region has work of a delay class (R276, R278): it begins a step, which lasts the largest class of what it accepts at that boundary, since no
floor holds it (R341). -/
def Region.work (r : Region) (now cls : Nat) : Region :=
  if r.stepping now then (if r.start = now then { r with stop := max r.stop (now + cls) } else r) else { r with start := now, stop := now + cls }

/-- A slice's count: as none has slewed where it is not listed; after a step; at a quantum, as a relock of its core's region leaves it. -/
def SliceCount.reset : SliceCount := { lag := 0, slew := 0, steps := 0 }
def SliceCount.end_ (x : SliceCount) : SliceCount :=
  let y := slewStep x.steps x.slew x.lag
  { steps := y.1, slew := y.2.1, lag := y.2.2 }
def Core.sliceCount (k : Core) (i now : Nat) : Nat :=
  let x := k.slices.getD i .reset
  let r := if i < 8 then k.lanes else k.plane
  ({ r with lag := x.lag, frozen := r.frozen.map (max x.stop) }).count now

/-- The Reed die of a scratchpad offset (R195). -/
def spDie (o : Nat) : Nat := o / 256 % 8

/-- The core and the bank of a scratchpad byte (R195). -/
def spCore (pa : Nat) : Nat := (pa - spPhys 0 0) / 0x200000
def spBank (pa : Nat) : Nat := let o := (pa - spPhys 0 0) % 0x200000; 8 * spDie o + o / 2048 % 8

/-- `qtime` (R275). -/
def State.qtime (s : State) : Dword := BitVec.ofNat 64 s.now

/-- The count with which a place stamps a write (R106, R245): the home's L2 region, the scratchpad's lane slice, or
`qtime` at the host port and the register blocks. -/
def State.stampAt (s : State) (pa : Nat) : Nat :=
  match placeOf pa with
  | .hbm => (s.die (homeDie pa)).clock.count s.now
  | .scratch => (s.core ((pa - spPhys 0 0) / 0x200000)).sliceCount (spDie ((pa - spPhys 0 0) % 0x200000)) s.now
  | _ => s.now

/-- Whether a write with this stamp and port is later in coherence order than a byte's last write (R245). -/
def Mark.before (m : Mark) (stamp port : Nat) : Bool := m.stamp < stamp || (m.stamp == stamp && m.port ≤ port)

/-- The home of a byte stands at a boundary at which it can accept an access (R276, R280): the L2 region of an HBM byte makes no step, or begins one in
this quantum. Other places always can, as far as an L2 region has to. -/
def State.homeFree (s : State) (pa : Nat) : Bool :=
  hbmTop ≤ pa || (let r := (s.dies.getD (homeDie pa) .reset).clock; !r.stepping s.now || r.start == s.now)

/-- A write of some bytes would be the last of each in coherence order. A write of a core waits for that: an indivisible read-modify-write reads
the write just before its own, and no write comes between the two (R269); and a strand's writes of a byte, its streams' among them, enter
coherence order in program order (R263). Their home can accept it (R280). -/
def State.lastNow (s : State) (port : Nat) (bytes : NMap BByte) : Bool :=
  match bytes with
  | [] => true
  | (pa, _) :: _ => s.homeFree pa && bytes.all fun kv => match s.marks.get? kv.1 with | some m => m.before (s.stampAt pa) port | none => true

/-- The length in bytes of an accumulation window (R253), and that times 64 rounded up: what the copies of all lane groups take. -/
def winLen (d : Dword) : Nat := d.toNat % 2 ^ 16
def roundUp256 (n : Nat) : Nat := (n + 255) / 256 * 256
def AccWin.lim (x : AccWin) : Nat := 64 * roundUp256 (winLen x.desc)

/-- A scratchpad byte that an open window keeps undefined, whatever is written there (R253). -/
def State.underWin (s : State) (pa : Nat) : Bool :=
  placeOf pa == .scratch && (match (s.core (spCore pa)).accWin with | some x => !x.closed && decide ((pa - spPhys 0 0) % 0x200000 < x.lim) | none => false)

/-- One byte as memory holds it: a scratchpad byte that a window has left undefined, and that nothing has written since it closed, reads as
a free value (R253), that of the newest window that reached it. -/
def State.plainByte (s : State) (pa : Nat) : Byte :=
  if placeOf pa = .scratch then
    let o := pa - spPhys 0 0
    match (s.core (o / 0x200000)).smear.find? fun x => o % 0x200000 < x.2 with
    | some x => if s.marks.has pa then Memory.read s.mem pa else BitVec.ofNat 8 (freeValue x.1 >>> (8 * (o % 0x200000)))
    | none => Memory.read s.mem pa
  else Memory.read s.mem pa

/-- One byte of a write in coherence order: it lands unless a later write has landed (R245). Under an open window the byte stays undefined. -/
def State.coherent (s : State) (port stamp : Nat) (pa : Nat) (b : BByte) : State :=
  let mk := s.marks.getD pa ⟨0, 0⟩
  if mk.before stamp port then
    { s with mem := Memory.write s.mem pa (b.over (s.plainByte pa)), marks := if s.underWin pa then s.marks.erase pa else s.marks.put pa ⟨stamp, port⟩ }
  else s

/-- The bytes of a write in coherence order. -/
def State.coherentAll (s : State) (port stamp : Nat) (bytes : NMap BByte) : State :=
  bytes.foldl (fun s kv => s.coherent port stamp kv.1 kv.2) s

/-- A byte replaced in an L1 line's 64 bytes. -/
def L1Line.setByte (l : L1Line) (k : Nat) (b : BByte) : L1Line :=
  let old : Byte := BitVec.ofNat 8 (l.bytes >>> (8 * k))
  { l with bytes := (l.bytes >>> (8 * k + 8)) <<< (8 * k + 8) ||| (b.over old).toNat <<< (8 * k) ||| l.bytes % 2 ^ (8 * k) }

/-- A core's own L1 copies, ordinary and gathered, follow its stores (R194). -/
def Core.storeL1 (c : Core) (bytes : NMap BByte) : Core :=
  { c with l1 := bytes.foldl (fun l kv => l.adjust (lineOf kv.1) (·.setByte (kv.1 % 64) kv.2)) c.l1,
           gl1 := c.gl1.map fun g => { g with bytes := bytes.foldl (fun m kv => m.adjust kv.1 kv.2.over) g.bytes } }

/-- The L1 lines that hold a byte of some 64-byte lines leave, of either kind (R194). -/
def Core.dropL1 (c : Core) (p : Nat → Bool) : Core :=
  { c with l1 := c.l1.filter fun e => !p e.1, gl1 := c.gl1.filter fun g => !g.bytes.any fun b => p (lineOf b.1) }

/-- The lines that a write touches. -/
def linesOf (bytes : NMap BByte) : List Nat := (bytes.map fun kv => lineOf kv.1).eraseDups

/-- The links on the written lines are lost (R251); a successful `vsc` element of strand `keep` keeps none either, since its
links are cleared once it has performed (R252). -/
def Core.loseLinks (c : Core) (ls : List Nat) : Core := { c with links := c.links.filter fun k => !ls.contains k.line }

/-- A write reaches the watched lines of strands other than the writer (R256): a sleeping strand's watch is hit; an
armed watch of a running block is hit too. -/
def Strand.watchHit (t : Strand) (ls : List Nat) : Strand :=
  match t.vsleep with
  | some w => if w.lines.any ls.contains then { t with vsleep := some { w with hit := true } } else t
  | none => t

/-- An armed watch of a running block is hit (R256: a write that arrives before commit counts). -/
def Window.watchHit (w : Window) (ls : List Nat) : Window :=
  if w.armed.any fun l => ls.contains l then { w with armedHit := true } else w

/-- Lines that a strand has read ahead of a block (R79) are forgotten: it has written them since, or read them anew. -/
def Fetched.forget (f : Fetched) (ls : List Nat) : Fetched := { f with ahead := f.ahead.filter fun kv => !ls.contains kv.1 }
def Strand.forget (t : Strand) (ls : List Nat) : Strand :=
  { t with fetched := t.fetched.map (·.forget ls), win := t.win.map fun w => { w with blk := w.blk.forget ls } }

/-- The lines that an L2 slice and a Slough slice hold (R11, R16): 48 MiB and 128 MiB of 64-byte lines. -/
def l2Lines : Nat := 786432
def sloughLines : Nat := 2097152

/-- The lines of an L2 slice that programs have (R194, R336): a cluster that has spilled locks 3.75 MiB of them. -/
def State.l2Room (s : State) : Nat := l2Lines - 61440 * (s.clusters.filter fun kv => kv.2.spilled).length

/-- A line comes into a die's L2 slice of `room` lines, and leaves the Slough (R194); a slice that is full evicts its oldest line into the Slough, whose own
oldest leaves. -/
def Die.bring (d : Die) (room line : Nat) : Die :=
  let l2 := line :: d.l2
  { d with l2 := l2.take room, slough := (l2.drop room ++ d.slough.filter (· != line)).take sloughLines }

/-- A line is in its die's L2 slice or Slough slice, and asks nothing of its HBM channel (R194, R350). -/
def Die.cached (d : Die) (line : Nat) : Bool := d.l2.contains line || d.slough.contains line

/-- An access to a byte has nothing to wait for at its home (R280, R350): its L2 region can accept it, and a channel that lends its lanes, or is in a
handshake, serves nothing. -/
def State.chanOpen (s : State) (pa : Nat) : Bool :=
  let d := s.dies.getD (homeDie pa) .reset
  hbmTop ≤ pa || s.homeFree pa && (d.cached (lineOf pa) || (!d.lent.getLsbD (homeChan pa) && !d.handshake.has (homeChan pa)))

/-- The home of a byte has work of a delay class (R278). -/
def State.l2Work (s : State) (pa cls : Nat) : State :=
  if pa < hbmTop then { s with dies := s.dies.put (homeDie pa) (let d := s.dies.getD (homeDie pa) .reset; { d with clock := d.clock.work s.now cls }) } else s

/-- An access of the home of a byte in HBM: its L2 region makes a step, at 2 q (R22, R276, R278); its line is in the L2 slice afterwards. A miss of L2 and of the
Slough is a request to the line's HBM channel; one that lends its lanes begins to take them back (R350). -/
def State.touchL2 (s : State) (pa : Nat) : State :=
  if pa < hbmTop then
    let k := homeDie pa
    let d := s.dies.getD k .reset
    let d := { d with clock := d.clock.work s.now 2 }
    let ch := homeChan pa
    let d :=
      if d.l2.contains (lineOf pa) then d
      else if d.slough.contains (lineOf pa) then d.bring s.l2Room (lineOf pa)
      else { d.bring s.l2Room (lineOf pa) with lastUse := d.lastUse.put ch s.now, handshake := if d.lent.getLsbD ch && !d.handshake.has ch then d.handshake.put ch 2 else d.handshake }
    { s with dies := s.dies.put k d }
  else s

/-- What a performed write does beside changing the bytes: it updates the writer's own L1 lines and drops those of its
core's copy engine, and what the strands of that core have read ahead there (R229), loses links, hits watches of other agents, and brings the line into its home's L2 slice. `port` is
the source port (R245); `writer` is the strand, if one wrote; `late` are the bytes that stand before another write in coherence order, whose
lines leave the writer's L1, so that nothing older than that write is read there (R264). -/
def State.afterWrite (s : State) (port : Nat) (writer : Option Nat) (bytes late : NMap BByte) : State :=
  let ls := linesOf bytes
  let cores := s.cores.mapVals fun c k =>
    let k := k.loseLinks ls
    if c = port then (k.storeL1 bytes).dropL1 (linesOf late).contains
    else if c + 32 = port then k.dropL1 ls.contains
    else k
  let strands := s.strands.mapVals fun sid t =>
    if some sid = writer then t.forget ls
    else
      let t := (if 32 + sid / 8 = port then t.forget ls else t).watchHit ls
      { t with win := t.win.map (·.watchHit ls) }
  ls.foldl (fun (s : State) l => s.touchL2 (l * 64)) { s with cores := cores, strands := strands }

/-- A write performs at its place, stamped (R245). -/
def State.performBytes (s : State) (port : Nat) (writer : Option Nat) (bytes : NMap BByte) : State :=
  match bytes with
  | [] => s
  | (pa, _) :: _ => (s.coherentAll port (s.stampAt pa) bytes).afterWrite port writer bytes (bytes.filter fun kv => !(s.marks.getD kv.1 ⟨0, 0⟩).before (s.stampAt pa) port)

/-- A whole number written as bytes, each with a full mask. -/
def bytesOf (pa n v : Nat) : NMap BByte :=
  (List.range n).map fun k => (pa + k, ⟨BitVec.ofNat 8 (v >>> (8 * k)), 0xFF⟩)

end Sys2Proof.Machine
end

