-- ==== Sys2Proof/Decode.lean ====
section
/-! DEFINITION. The decoder and the encoder, written from the format drawings of R26 to R36. Decoding takes the bytes
of an instruction and answers the instruction and the bytes after it, or the name of the check of R40 it fails. The
checks that R30, R33 and R37 make on the values of well-drawn fields stand in WellFormed.lean. -/

namespace Sys2Proof

/-- The format, major and operation of an instruction (R29 to R36). -/
def Instr.view : Instr → View
  | .blockFetch _ _ => .event
  | .blockStart _ => .event
  | .blockQuiescent _ => .event
  | .blockTimeout _ => .event
  | .scalarProbeComplete _ _ => .event
  | .loadDataReturn _ _ _ => .event
  | .storePerform _ _ _ => .event
  | .stampReturn _ _ => .event
  | .divideStart _ => .event
  | .divideComplete _ _ => .event
  | .fpDivideStart _ => .event
  | .fpDivideComplete _ => .event
  | .vectorDispatch _ => .event
  | .vectorExecuteStart _ => .event
  | .vectorExecuteDone _ => .event
  | .fifoAccept _ _ => .event
  | .laneSliceGate _ _ => .event
  | .localCountCheck _ _ => .event
  | .pllRelockStop _ => .event
  | .pllRelockEnd _ => .event
  | .referenceClockLoss => .event
  | .referenceClockReturn => .event
  | .marginWarning => .event
  | .matrixIssue _ => .event
  | .matrixPerformDone _ => .event
  | .tileMemoryMoveDone _ => .event
  | .streamStripFetch _ _ => .event
  | .streamElementArrival _ _ _ => .event
  | .streamRed2FinalWrite _ _ _ => .event
  | .streamDone _ _ => .event
  | .streamAccessFault _ _ _ => .event
  | .interlockWaitEnd _ => .event
  | .scopeAcknowledge _ _ _ => .event
  | .atomicPerform _ _ => .event
  | .atomicOldValueReturn _ _ => .event
  | .heldWriteRelease _ => .event
  | .vaccUpdatePerform _ _ _ => .event
  | .vamergeFold _ _ => .event
  | .watchedLineWrite _ _ => .event
  | .qdlDeadlinePass _ => .event
  | .sleepExpiry _ => .event
  | .barrierArrival _ => .event
  | .l1LineInvalidate _ _ => .event
  | .l2Eviction _ _ => .event
  | .tlbWalkComplete _ => .event
  | .tlbInvalidatePerform _ => .event
  | .replayPendingReplay _ => .event
  | .fatalRecord _ _ _ => .event
  | .routerRecordWrite _ => .event
  | .resumeGo _ _ => .event
  | .resumeRedirect _ _ => .event
  | .resumeKill _ _ => .event
  | .contextSaveStart _ => .event
  | .contextSaveComplete _ => .event
  | .saveBroken _ => .event
  | .contextRestore _ => .event
  | .qwrWrite _ _ => .event
  | .dispatcherTakeRecord _ => .event
  | .dispatchPlace => .event
  | .preemptWaitExpiry _ => .event
  | .reclaimTimeout _ => .event
  | .laneGrant _ => .event
  | .gangComplete _ => .event
  | .clusterIdleEntry _ => .event
  | .clusterWake _ => .event
  | .clusterExitDone _ => .event
  | .packageC4Entry => .event
  | .packageC4Exit => .event
  | .quiesceDrain _ => .event
  | .quiesceEvict _ => .event
  | .quiesceHold _ => .event
  | .quiesceRelease _ => .event
  | .clusterQuiesced _ => .event
  | .clusterWakeWrite _ _ => .event
  | .controlInterval _ => .event
  | .fastLimiterSample _ => .event
  | .thermalControlInterval _ _ => .event
  | .thermalEmergency => .event
  | .hardTrip => .event
  | .peakClear => .event
  | .aostatLogClear => .event
  | .hbmCorrectedError _ => .event
  | .hbmUncorrectableError _ _ => .event
  | .patrolScrub _ => .event
  | .channelIdleLend _ _ => .event
  | .lendHandshakeDone _ _ => .event
  | .lendReverse _ _ => .event
  | .dieLinkLaneError _ => .event
  | .linkRetrainDone _ => .event
  | .hostAtomicop _ _ _ _ _ => .event
  | .hostLinkDown => .event
  | .hostLinkUp => .event
  | .hotReset => .event
  | .flitReceive _ _ => .event
  | .flitNakReplay _ _ => .event
  | .flitReplayTimeout _ => .event
  | .laneErrorInterval _ _ => .event
  | .portRetrainDone _ => .event
  | .portTrainingTimeout _ => .event
  | .fabricAccessArrival _ _ _ _ _ => .event
  | .remoteLostDeferred _ => .event
  | .mctpMessage _ => .event
  | .tlbInvStart => .event
  | .portDisable _ => .event
  | .registerWrite _ _ _ => .event
  | .packageReset => .event
  | .firmwareVerifyDone _ => .event
  | .dieLinksTrained _ => .event
  | .hostPortTrained => .event
  | .hbmTrained _ => .event
  | .hostdnClear => .event
  | .lendDisable _ => .event
  | .hostPostedWrite _ _ _ => .event
  | .read o => .rd o
  | .mov o => .g 0x02 0 o
  | .null o => .g 0x02 1 o
  | .sel o => .g3 0x02 2 o
  | .movi o => .i 0x03 o
  | .orhi o => .i 0x04 o
  | .lpci o => .i 0x0B o
  | .teq o => .g 0x05 0 o
  | .tne o => .g 0x05 1 o
  | .tlt o => .g 0x05 2 o
  | .tltu o => .g 0x05 3 o
  | .tle o => .g 0x05 4 o
  | .tleu o => .g 0x05 5 o
  | .tgt o => .g 0x05 6 o
  | .tgtu o => .g 0x05 7 o
  | .tge o => .g 0x05 8 o
  | .tgeu o => .g 0x05 9 o
  | .tbit o => .g 0x05 10 o
  | .teqi o => .it 0x06 0 o
  | .tnei o => .it 0x06 1 o
  | .tlti o => .it 0x06 2 o
  | .tltui o => .it 0x06 3 o
  | .tlei o => .it 0x06 4 o
  | .tleui o => .it 0x06 5 o
  | .tgti o => .it 0x06 6 o
  | .tgtui o => .it 0x06 7 o
  | .tgei o => .it 0x06 8 o
  | .tgeui o => .it 0x06 9 o
  | .tbiti o => .it 0x06 10 o
  | .br o => .b 0x07 o
  | .call o => .b 0x08 o
  | .bro o => .bx 0 o
  | .callo o => .bx 1 o
  | .halt o => .bx 2 o
  | .yld o => .bx 3 o
  | .sys o => .bx 4 o
  | .brk o => .bx 5 o
  | .spawn o => .g 0x0A 0 o
  | .bar o => .g 0x0A 1 o
  | .gid o => .g 0x0A 2 o
  | .gsize o => .g 0x0A 3 o
  | .cid o => .g 0x0A 4 o
  | .sleep o => .g 0x0A 5 o
  | .add o => .g 0x10 0 o
  | .sub o => .g 0x10 1 o
  | .mul o => .g 0x10 2 o
  | .mulh o => .g 0x10 3 o
  | .mulhu o => .g 0x10 4 o
  | .div o => .g 0x10 5 o
  | .divu o => .g 0x10 6 o
  | .rem o => .g 0x10 7 o
  | .remu o => .g 0x10 8 o
  | .and o => .g 0x10 9 o
  | .or o => .g 0x10 10 o
  | .xor o => .g 0x10 11 o
  | .andn o => .g 0x10 12 o
  | .shl o => .g 0x10 13 o
  | .shr o => .g 0x10 14 o
  | .sra o => .g 0x10 15 o
  | .rotl o => .g 0x11 0 o
  | .rotr o => .g 0x11 1 o
  | .min o => .g 0x11 2 o
  | .max o => .g 0x11 3 o
  | .minu o => .g 0x11 4 o
  | .maxu o => .g 0x11 5 o
  | .clz o => .g 0x11 6 o
  | .ctz o => .g 0x11 7 o
  | .popc o => .g 0x11 8 o
  | .sextb o => .g 0x11 9 o
  | .sexth o => .g 0x11 10 o
  | .sextw o => .g 0x11 11 o
  | .zextb o => .g 0x11 12 o
  | .zexth o => .g 0x11 13 o
  | .zextw o => .g 0x11 14 o
  | .abs o => .g 0x11 15 o
  | .addi o => .i 0x12 o
  | .andi o => .i 0x13 o
  | .ori o => .i 0x14 o
  | .xori o => .i 0x15 o
  | .shli o => .it 0x16 0 o
  | .shri o => .it 0x16 1 o
  | .srai o => .it 0x16 2 o
  | .rotli o => .it 0x16 3 o
  | .muli o => .it 0x16 4 o
  | .leai o => .it 0x16 5 o
  | .faddS o => .g 0x17 0 o
  | .fsubS o => .g 0x17 1 o
  | .fmulS o => .g 0x17 2 o
  | .fdivS o => .g 0x17 3 o
  | .fsqrtS o => .g 0x17 4 o
  | .fmaS o => .g3 0x17 5 o
  | .fminS o => .g 0x17 6 o
  | .fmaxS o => .g 0x17 7 o
  | .frsqrtS o => .g 0x17 8 o
  | .fcvtfiS o => .g 0x17 9 o
  | .fcvtifS o => .g 0x17 10 o
  | .fcvtffS o => .g 0x17 11 o
  | .fteqS o => .g 0x17 12 o
  | .ftltS o => .g 0x17 13 o
  | .ftleS o => .g 0x17 14 o
  | .fclassS o => .g 0x17 15 o
  | .faddD o => .g 0x18 0 o
  | .fsubD o => .g 0x18 1 o
  | .fmulD o => .g 0x18 2 o
  | .fdivD o => .g 0x18 3 o
  | .fsqrtD o => .g 0x18 4 o
  | .fmaD o => .g3 0x18 5 o
  | .fminD o => .g 0x18 6 o
  | .fmaxD o => .g 0x18 7 o
  | .frsqrtD o => .g 0x18 8 o
  | .fcvtfiD o => .g 0x18 9 o
  | .fcvtifD o => .g 0x18 10 o
  | .fcvtffD o => .g 0x18 11 o
  | .fteqD o => .g 0x18 12 o
  | .ftltD o => .g 0x18 13 o
  | .ftleD o => .g 0x18 14 o
  | .fclassD o => .g 0x18 15 o
  | .ldb o => .mem 0x19 0 o
  | .ldbu o => .mem 0x19 1 o
  | .ldh o => .mem 0x19 2 o
  | .ldhu o => .mem 0x19 3 o
  | .ldw o => .mem 0x19 4 o
  | .ldwu o => .mem 0x19 5 o
  | .ldd o => .mem 0x19 6 o
  | .stb o => .mem 0x1A 0 o
  | .sth o => .mem 0x1A 1 o
  | .stw o => .mem 0x1A 2 o
  | .std o => .mem 0x1A 3 o
  | .stqw o => .mem 0x1A 5 o
  | .stqd o => .mem 0x1A 6 o
  | .aadd o => .amo 0x1B 0 o
  | .aand o => .amo 0x1B 1 o
  | .aor o => .amo 0x1B 2 o
  | .axor o => .amo 0x1B 3 o
  | .amin o => .amo 0x1B 4 o
  | .amax o => .amo 0x1B 5 o
  | .aminu o => .amo 0x1B 6 o
  | .amaxu o => .amo 0x1B 7 o
  | .aswap o => .amo 0x1B 8 o
  | .acas o => .amo3 9 o
  | .ainc o => .amo 0x1B 10 o
  | .abfa o => .amo3 11 o
  | .aaddw o => .amo 0x1B 12 o
  | .acasw o => .amo3 13 o
  | .aincw o => .amo 0x1B 14 o
  | .fenceAcq o => .amo 0x1C 0 o
  | .fenceRel o => .amo 0x1C 1 o
  | .fenceAr o => .amo 0x1C 2 o
  | .fenceSc o => .amo 0x1C 3 o
  | .scopeSet o => .amo 0x1C 4 o
  | .scopeGet o => .amo 0x1C 5 o
  | .scopeInv o => .amo 0x1C 6 o
  | .scopeGen o => .amo 0x1C 7 o
  | .qtime o => .g 0x1D 0 o
  | .qlocal o => .g 0x1D 1 o
  | .qdl o => .g 0x1D 2 o
  | .qper o => .g 0x1D 3 o
  | .ctlRd o => .g 0x1E 0 o
  | .ctlWr o => .g 0x1E 1 o
  | .tret o => .g 0x1E 2 o
  | .tlbInv o => .g 0x1E 3 o
  | .ctxSave o => .g 0x1E 4 o
  | .ctxLoad o => .g 0x1E 5 o
  | .vlset o => .g 0x2A 0 o
  | .vlget o => .g 0x2A 1 o
  | .vlmax o => .g 0x2A 2 o
  | .vrel o => .g 0x2A 3 o
  | .vgrant o => .g 0x2A 4 o
  | .vawin o => .g 0x2F 0 o
  | .vamerge o => .g 0x2F 1 o
  | .vawclr o => .g 0x2F 2 o
  | .cpsCfg o => .cp 0 o
  | .cpsGo o => .cp 1 o
  | .cpsStep o => .cp 2 o
  | .cpsAvail o => .cp 3 o
  | .cpsWait o => .cp 4 o
  | .cpsKill o => .cp 5 o
  | .cMov o => .c 0 o
  | .cNull o => .c 1 o
  | .cInc o => .c 2 o
  | .cDec o => .c 3 o
  | .cNot o => .c 4 o
  | .cNeg o => .c 5 o
  | .cZextw o => .c 6 o
  | .cSextw o => .c 7 o
  | .cZero o => .c 8 o
  | .cOne o => .c 9 o
  | .vadd o => .v 0x20 0 o
  | .vsub o => .v 0x20 1 o
  | .vrsub o => .v 0x20 2 o
  | .vmul o => .v 0x20 3 o
  | .vmulh o => .v 0x20 4 o
  | .vmadd o => .v 0x20 5 o
  | .vmsub o => .v 0x20 6 o
  | .vnmadd o => .v 0x20 7 o
  | .vdiv o => .v 0x21 0 o
  | .vrem o => .v 0x21 1 o
  | .vsqrt o => .v 0x21 2 o
  | .vrsqrt o => .v 0x21 3 o
  | .vrecip o => .v 0x21 4 o
  | .vmin o => .v 0x21 5 o
  | .vmax o => .v 0x21 6 o
  | .vabs o => .v 0x21 7 o
  | .vand o => .v 0x22 0 o
  | .vor o => .v 0x22 1 o
  | .vxor o => .v 0x22 2 o
  | .vnot o => .v 0x22 3 o
  | .vshl o => .v 0x22 4 o
  | .vshr o => .v 0x22 5 o
  | .vsra o => .v 0x22 6 o
  | .vneg o => .v 0x22 7 o
  | .vsadd o => .v 0x23 0 o
  | .vssub o => .v 0x23 1 o
  | .vaadd o => .v 0x23 2 o
  | .vsmul o => .v 0x23 3 o
  | .vnclip o => .v 0x23 4 o
  | .vnsra o => .v 0x23 5 o
  | .vclass o => .v 0x23 6 o
  | .vcvt o => .v 0x24 0 o
  | .vcvtmx o => .v 0x24 1 o
  | .vmerge o => .v 0x24 2 o
  | .vid o => .v 0x24 3 o
  | .vperm o => .v 0x24 4 o
  | .vslup o => .v 0x24 5 o
  | .vsldn o => .v 0x24 6 o
  | .vcompress o => .v 0x24 7 o
  | .vceq o => .v 0x25 0 o
  | .vcne o => .v 0x25 1 o
  | .vclt o => .v 0x25 2 o
  | .vcle o => .v 0x25 3 o
  | .vcgt o => .v 0x25 4 o
  | .vcge o => .v 0x25 5 o
  | .vcun o => .v 0x25 6 o
  | .vrsum o => .v 0x26 0 o
  | .vrosum o => .v 0x26 1 o
  | .vrmax o => .v 0x26 2 o
  | .vrmin o => .v 0x26 3 o
  | .vrand o => .v 0x26 4 o
  | .vror o => .v 0x26 5 o
  | .vrxor o => .v 0x26 6 o
  | .vrsummx o => .v 0x26 7 o
  | .vadds o => .v 0x27 0 o
  | .vsubs o => .v 0x27 1 o
  | .vmuls o => .v 0x27 2 o
  | .vmadds o => .v 0x27 3 o
  | .vmins o => .v 0x27 4 o
  | .vmaxs o => .v 0x27 5 o
  | .vshls o => .v 0x27 6 o
  | .vbcast o => .v 0x27 7 o
  | .vext o => .vx 0 o
  | .vcnt o => .vx 1 o
  | .mpop o => .vx 2 o
  | .mfirst o => .vx 3 o
  | .vins o => .v 0x29 0 o
  | .mand o => .v 0x2B 0 o
  | .mor o => .v 0x2B 1 o
  | .mxor o => .v 0x2B 2 o
  | .mandn o => .v 0x2B 3 o
  | .mnot o => .v 0x2B 4 o
  | .mset o => .v 0x2B 5 o
  | .mclr o => .v 0x2B 6 o
  | .mfromv o => .v 0x2B 7 o
  | .vld o => .vm 0x2C 0 o
  | .vlds o => .vm 0x2C 1 o
  | .vldx o => .vm 0x2C 2 o
  | .vldseg o => .vm 0x2C 3 o
  | .vldff o => .vm 0x2C 4 o
  | .vldxo o => .vm 0x2C 5 o
  | .vldmx o => .vm 0x2C 6 o
  | .vldcs o => .vm 0x2C 7 o
  | .vst o => .vm 0x2D 0 o
  | .vsts o => .vm 0x2D 1 o
  | .vstx o => .vm 0x2D 2 o
  | .vstseg o => .vm 0x2D 3 o
  | .vstxo o => .vm 0x2D 4 o
  | .vsto o => .vm 0x2D 5 o
  | .vstmx o => .vm 0x2D 6 o
  | .vgl o => .vm 0x2E 0 o
  | .vsc o => .vm 0x2E 1 o
  | .vacc o => .vm 0x2E 2 o
  | .vwait o => .vm 0x2E 3 o
  | .mshape o => .tile 0 o
  | .mzero o => .tile 1 o
  | .mop o => .tile 2 o
  | .mopmx o => .tile 3 o
  | .mopd o => .tile 4 o
  | .mld o => .tile 5 o
  | .mst o => .tile 6 o
  | .mrowv o => .tile 7 o
  | .mvrow o => .tile 8 o
  | .mcolv o => .tile 9 o

/-- Operations of format A, major 0x1B (R31 to R36). -/
noncomputable def mkA1B : Nat → Option (AOp → Instr)
  | 0 => some .aadd
  | 1 => some .aand
  | 2 => some .aor
  | 3 => some .axor
  | 4 => some .amin
  | 5 => some .amax
  | 6 => some .aminu
  | 7 => some .amaxu
  | 8 => some .aswap
  | 10 => some .ainc
  | 12 => some .aaddw
  | 14 => some .aincw
  | _ => none

/-- Operations of format A, major 0x1C (R31 to R36). -/
noncomputable def mkA1C : Nat → Option (AOp → Instr)
  | 0 => some .fenceAcq
  | 1 => some .fenceRel
  | 2 => some .fenceAr
  | 3 => some .fenceSc
  | 4 => some .scopeSet
  | 5 => some .scopeGet
  | 6 => some .scopeInv
  | 7 => some .scopeGen
  | _ => none

/-- Operations of format A3 (R31 to R36). -/
noncomputable def mkA3 : Nat → Option (A3Op → Instr)
  | 9 => some .acas
  | 11 => some .abfa
  | 13 => some .acasw
  | _ => none

/-- Operations of format B (R31 to R36). -/
noncomputable def mkB : Nat → Option (BOp → Instr)
  | 7 => some .br
  | 8 => some .call
  | _ => none

/-- Operations of format BX (R31 to R36). -/
noncomputable def mkBX : Nat → Option (BXOp → Instr)
  | 0 => some .bro
  | 1 => some .callo
  | 2 => some .halt
  | 3 => some .yld
  | 4 => some .sys
  | 5 => some .brk
  | _ => none

/-- Operations of format C (R31 to R36). -/
noncomputable def mkC : Nat → Option (COp → Instr)
  | 0 => some .cMov
  | 1 => some .cNull
  | 2 => some .cInc
  | 3 => some .cDec
  | 4 => some .cNot
  | 5 => some .cNeg
  | 6 => some .cZextw
  | 7 => some .cSextw
  | 8 => some .cZero
  | 9 => some .cOne
  | _ => none

/-- Operations of format CP (R31 to R36). -/
noncomputable def mkCP : Nat → Option (CPOp → Instr)
  | 0 => some .cpsCfg
  | 1 => some .cpsGo
  | 2 => some .cpsStep
  | 3 => some .cpsAvail
  | 4 => some .cpsWait
  | 5 => some .cpsKill
  | _ => none

/-- Operations of format G, major 0x02 (R31 to R36). -/
noncomputable def mkG02 : Nat → Option (GOp → Instr)
  | 0 => some .mov
  | 1 => some .null
  | _ => none

/-- Operations of format G, major 0x05 (R31 to R36). -/
noncomputable def mkG05 : Nat → Option (GOp → Instr)
  | 0 => some .teq
  | 1 => some .tne
  | 2 => some .tlt
  | 3 => some .tltu
  | 4 => some .tle
  | 5 => some .tleu
  | 6 => some .tgt
  | 7 => some .tgtu
  | 8 => some .tge
  | 9 => some .tgeu
  | 10 => some .tbit
  | _ => none

/-- Operations of format G, major 0x0A (R31 to R36). -/
noncomputable def mkG0A : Nat → Option (GOp → Instr)
  | 0 => some .spawn
  | 1 => some .bar
  | 2 => some .gid
  | 3 => some .gsize
  | 4 => some .cid
  | 5 => some .sleep
  | _ => none

/-- Operations of format G, major 0x10 (R31 to R36). -/
noncomputable def mkG10 : Nat → Option (GOp → Instr)
  | 0 => some .add
  | 1 => some .sub
  | 2 => some .mul
  | 3 => some .mulh
  | 4 => some .mulhu
  | 5 => some .div
  | 6 => some .divu
  | 7 => some .rem
  | 8 => some .remu
  | 9 => some .and
  | 10 => some .or
  | 11 => some .xor
  | 12 => some .andn
  | 13 => some .shl
  | 14 => some .shr
  | 15 => some .sra
  | _ => none

/-- Operations of format G, major 0x11 (R31 to R36). -/
noncomputable def mkG11 : Nat → Option (GOp → Instr)
  | 0 => some .rotl
  | 1 => some .rotr
  | 2 => some .min
  | 3 => some .max
  | 4 => some .minu
  | 5 => some .maxu
  | 6 => some .clz
  | 7 => some .ctz
  | 8 => some .popc
  | 9 => some .sextb
  | 10 => some .sexth
  | 11 => some .sextw
  | 12 => some .zextb
  | 13 => some .zexth
  | 14 => some .zextw
  | 15 => some .abs
  | _ => none

/-- Operations of format G, major 0x17 (R31 to R36). -/
noncomputable def mkG17 : Nat → Option (GOp → Instr)
  | 0 => some .faddS
  | 1 => some .fsubS
  | 2 => some .fmulS
  | 3 => some .fdivS
  | 4 => some .fsqrtS
  | 6 => some .fminS
  | 7 => some .fmaxS
  | 8 => some .frsqrtS
  | 9 => some .fcvtfiS
  | 10 => some .fcvtifS
  | 11 => some .fcvtffS
  | 12 => some .fteqS
  | 13 => some .ftltS
  | 14 => some .ftleS
  | 15 => some .fclassS
  | _ => none

/-- Operations of format G, major 0x18 (R31 to R36). -/
noncomputable def mkG18 : Nat → Option (GOp → Instr)
  | 0 => some .faddD
  | 1 => some .fsubD
  | 2 => some .fmulD
  | 3 => some .fdivD
  | 4 => some .fsqrtD
  | 6 => some .fminD
  | 7 => some .fmaxD
  | 8 => some .frsqrtD
  | 9 => some .fcvtfiD
  | 10 => some .fcvtifD
  | 11 => some .fcvtffD
  | 12 => some .fteqD
  | 13 => some .ftltD
  | 14 => some .ftleD
  | 15 => some .fclassD
  | _ => none

/-- Operations of format G, major 0x1D (R31 to R36). -/
noncomputable def mkG1D : Nat → Option (GOp → Instr)
  | 0 => some .qtime
  | 1 => some .qlocal
  | 2 => some .qdl
  | 3 => some .qper
  | _ => none

/-- Operations of format G, major 0x1E (R31 to R36). -/
noncomputable def mkG1E : Nat → Option (GOp → Instr)
  | 0 => some .ctlRd
  | 1 => some .ctlWr
  | 2 => some .tret
  | 3 => some .tlbInv
  | 4 => some .ctxSave
  | 5 => some .ctxLoad
  | _ => none

/-- Operations of format G, major 0x2A (R31 to R36). -/
noncomputable def mkG2A : Nat → Option (GOp → Instr)
  | 0 => some .vlset
  | 1 => some .vlget
  | 2 => some .vlmax
  | 3 => some .vrel
  | 4 => some .vgrant
  | _ => none

/-- Operations of format G, major 0x2F (R31 to R36). -/
noncomputable def mkG2F : Nat → Option (GOp → Instr)
  | 0 => some .vawin
  | 1 => some .vamerge
  | 2 => some .vawclr
  | _ => none

/-- Operations of format G3, major 0x02 (R31 to R36). -/
noncomputable def mkG302 : Nat → Option (G3Op → Instr)
  | 2 => some .sel
  | _ => none

/-- Operations of format G3, major 0x17 (R31 to R36). -/
noncomputable def mkG317 : Nat → Option (G3Op → Instr)
  | 5 => some .fmaS
  | _ => none

/-- Operations of format G3, major 0x18 (R31 to R36). -/
noncomputable def mkG318 : Nat → Option (G3Op → Instr)
  | 5 => some .fmaD
  | _ => none

/-- Operations of format I (R31 to R36). -/
noncomputable def mkI : Nat → Option (IOp → Instr)
  | 3 => some .movi
  | 4 => some .orhi
  | 11 => some .lpci
  | 18 => some .addi
  | 19 => some .andi
  | 20 => some .ori
  | 21 => some .xori
  | _ => none

/-- Operations of format IT, major 0x06 (R31 to R36). -/
noncomputable def mkIT06 : Nat → Option (ITOp → Instr)
  | 0 => some .teqi
  | 1 => some .tnei
  | 2 => some .tlti
  | 3 => some .tltui
  | 4 => some .tlei
  | 5 => some .tleui
  | 6 => some .tgti
  | 7 => some .tgtui
  | 8 => some .tgei
  | 9 => some .tgeui
  | 10 => some .tbiti
  | _ => none

/-- Operations of format IT, major 0x16 (R31 to R36). -/
noncomputable def mkIT16 : Nat → Option (ITOp → Instr)
  | 0 => some .shli
  | 1 => some .shri
  | 2 => some .srai
  | 3 => some .rotli
  | 4 => some .muli
  | 5 => some .leai
  | _ => none

/-- Operations of format L, major 0x19 (R31 to R36). -/
noncomputable def mkL19 : Nat → Option (MOp → Instr)
  | 0 => some .ldb
  | 1 => some .ldbu
  | 2 => some .ldh
  | 3 => some .ldhu
  | 4 => some .ldw
  | 5 => some .ldwu
  | 6 => some .ldd
  | _ => none

/-- Operations of format L, major 0x1A (R31 to R36). -/
noncomputable def mkL1A : Nat → Option (MOp → Instr)
  | 0 => some .stb
  | 1 => some .sth
  | 2 => some .stw
  | 3 => some .std
  | 5 => some .stqw
  | 6 => some .stqd
  | _ => none

/-- Operations of format T (R31 to R36). -/
noncomputable def mkT : Nat → Option (TOp → Instr)
  | 0 => some .mshape
  | 1 => some .mzero
  | 2 => some .mop
  | 3 => some .mopmx
  | 4 => some .mopd
  | 5 => some .mld
  | 6 => some .mst
  | 7 => some .mrowv
  | 8 => some .mvrow
  | 9 => some .mcolv
  | _ => none

/-- Operations of format V, major 0x20 (R31 to R36). -/
noncomputable def mkV20 : Nat → Option (VOp → Instr)
  | 0 => some .vadd
  | 1 => some .vsub
  | 2 => some .vrsub
  | 3 => some .vmul
  | 4 => some .vmulh
  | 5 => some .vmadd
  | 6 => some .vmsub
  | 7 => some .vnmadd
  | _ => none

/-- Operations of format V, major 0x21 (R31 to R36). -/
noncomputable def mkV21 : Nat → Option (VOp → Instr)
  | 0 => some .vdiv
  | 1 => some .vrem
  | 2 => some .vsqrt
  | 3 => some .vrsqrt
  | 4 => some .vrecip
  | 5 => some .vmin
  | 6 => some .vmax
  | 7 => some .vabs
  | _ => none

/-- Operations of format V, major 0x22 (R31 to R36). -/
noncomputable def mkV22 : Nat → Option (VOp → Instr)
  | 0 => some .vand
  | 1 => some .vor
  | 2 => some .vxor
  | 3 => some .vnot
  | 4 => some .vshl
  | 5 => some .vshr
  | 6 => some .vsra
  | 7 => some .vneg
  | _ => none

/-- Operations of format V, major 0x23 (R31 to R36). -/
noncomputable def mkV23 : Nat → Option (VOp → Instr)
  | 0 => some .vsadd
  | 1 => some .vssub
  | 2 => some .vaadd
  | 3 => some .vsmul
  | 4 => some .vnclip
  | 5 => some .vnsra
  | 6 => some .vclass
  | _ => none

/-- Operations of format V, major 0x24 (R31 to R36). -/
noncomputable def mkV24 : Nat → Option (VOp → Instr)
  | 0 => some .vcvt
  | 1 => some .vcvtmx
  | 2 => some .vmerge
  | 3 => some .vid
  | 4 => some .vperm
  | 5 => some .vslup
  | 6 => some .vsldn
  | 7 => some .vcompress
  | _ => none

/-- Operations of format V, major 0x25 (R31 to R36). -/
noncomputable def mkV25 : Nat → Option (VOp → Instr)
  | 0 => some .vceq
  | 1 => some .vcne
  | 2 => some .vclt
  | 3 => some .vcle
  | 4 => some .vcgt
  | 5 => some .vcge
  | 6 => some .vcun
  | _ => none

/-- Operations of format V, major 0x26 (R31 to R36). -/
noncomputable def mkV26 : Nat → Option (VOp → Instr)
  | 0 => some .vrsum
  | 1 => some .vrosum
  | 2 => some .vrmax
  | 3 => some .vrmin
  | 4 => some .vrand
  | 5 => some .vror
  | 6 => some .vrxor
  | 7 => some .vrsummx
  | _ => none

/-- Operations of format V, major 0x27 (R31 to R36). -/
noncomputable def mkV27 : Nat → Option (VOp → Instr)
  | 0 => some .vadds
  | 1 => some .vsubs
  | 2 => some .vmuls
  | 3 => some .vmadds
  | 4 => some .vmins
  | 5 => some .vmaxs
  | 6 => some .vshls
  | 7 => some .vbcast
  | _ => none

/-- Operations of format V, major 0x29 (R31 to R36). -/
noncomputable def mkV29 : Nat → Option (VOp → Instr)
  | 0 => some .vins
  | _ => none

/-- Operations of format V, major 0x2B (R31 to R36). -/
noncomputable def mkV2B : Nat → Option (VOp → Instr)
  | 0 => some .mand
  | 1 => some .mor
  | 2 => some .mxor
  | 3 => some .mandn
  | 4 => some .mnot
  | 5 => some .mset
  | 6 => some .mclr
  | 7 => some .mfromv
  | _ => none

/-- Operations of format VM, major 0x2C (R31 to R36). -/
noncomputable def mkVM2C : Nat → Option (VMOp → Instr)
  | 0 => some .vld
  | 1 => some .vlds
  | 2 => some .vldx
  | 3 => some .vldseg
  | 4 => some .vldff
  | 5 => some .vldxo
  | 6 => some .vldmx
  | 7 => some .vldcs
  | _ => none

/-- Operations of format VM, major 0x2D (R31 to R36). -/
noncomputable def mkVM2D : Nat → Option (VMOp → Instr)
  | 0 => some .vst
  | 1 => some .vsts
  | 2 => some .vstx
  | 3 => some .vstseg
  | 4 => some .vstxo
  | 5 => some .vsto
  | 6 => some .vstmx
  | _ => none

/-- Operations of format VM, major 0x2E (R31 to R36). -/
noncomputable def mkVM2E : Nat → Option (VMOp → Instr)
  | 0 => some .vgl
  | 1 => some .vsc
  | 2 => some .vacc
  | 3 => some .vwait
  | _ => none

/-- Operations of format VX (R31 to R36). -/
noncomputable def mkVX : Nat → Option (VXOp → Instr)
  | 0 => some .vext
  | 1 => some .vcnt
  | 2 => some .mpop
  | 3 => some .mfirst
  | _ => none

/-- The operation of a major of format G (R34 to R36). -/
noncomputable def opG (maj xop : Nat) : Option (GOp → Instr) :=
  match maj with
  | 0x02 => mkG02 xop
  | 0x05 => mkG05 xop
  | 0x0A => mkG0A xop
  | 0x10 => mkG10 xop
  | 0x11 => mkG11 xop
  | 0x17 => mkG17 xop
  | 0x18 => mkG18 xop
  | 0x1D => mkG1D xop
  | 0x1E => mkG1E xop
  | 0x2A => mkG2A xop
  | 0x2F => mkG2F xop
  | _ => none

/-- The operation of a major of format G3 (R34 to R36). -/
noncomputable def opG3 (maj xop : Nat) : Option (G3Op → Instr) :=
  match maj with
  | 0x02 => mkG302 xop
  | 0x17 => mkG317 xop
  | 0x18 => mkG318 xop
  | _ => none

/-- The operation of a major of format IT (R34 to R36). -/
noncomputable def opIT (maj xop : Nat) : Option (ITOp → Instr) :=
  match maj with
  | 0x06 => mkIT06 xop
  | 0x16 => mkIT16 xop
  | _ => none

/-- The operation of a major of format L (R34 to R36). -/
noncomputable def opL (maj xop : Nat) : Option (MOp → Instr) :=
  match maj with
  | 0x19 => mkL19 xop
  | 0x1A => mkL1A xop
  | _ => none

/-- The operation of a major of format A (R34 to R36). -/
noncomputable def opA (maj xop : Nat) : Option (AOp → Instr) :=
  match maj with
  | 0x1B => mkA1B xop
  | 0x1C => mkA1C xop
  | _ => none

/-- The operation of a major of format V (R34 to R36). -/
noncomputable def opV (maj xop : Nat) : Option (VOp → Instr) :=
  match maj with
  | 0x20 => mkV20 xop
  | 0x21 => mkV21 xop
  | 0x22 => mkV22 xop
  | 0x23 => mkV23 xop
  | 0x24 => mkV24 xop
  | 0x25 => mkV25 xop
  | 0x26 => mkV26 xop
  | 0x27 => mkV27 xop
  | 0x29 => mkV29 xop
  | 0x2B => mkV2B xop
  | _ => none

/-- The operation of a major of format VM (R34 to R36). -/
noncomputable def opVM (maj xop : Nat) : Option (VMOp → Instr) :=
  match maj with
  | 0x2C => mkVM2C xop
  | 0x2D => mkVM2D xop
  | 0x2E => mkVM2E xop
  | _ => none

/-- The instruction of a view, where its major and operation name one (R34 to R36). The compiler cannot build a value
of a type with more than 244 constructors that carry fields, so this is evaluated by the kernel only; the machine runs
the equal `execView` (Machine/Views.lean) instead. -/
noncomputable def View.instr : View → Option Instr
  | .g maj xop o => (opG maj xop).map (· o)
  | .g3 maj xop o => (opG3 maj xop).map (· o)
  | .i maj o => (mkI maj).map (· o)
  | .it maj xop o => (opIT maj xop).map (· o)
  | .rd o => some (.read o)
  | .mem maj xop o => (opL maj xop).map (· o)
  | .amo maj xop o => (opA maj xop).map (· o)
  | .amo3 xop o => (mkA3 xop).map (· o)
  | .b maj o => (mkB maj).map (· o)
  | .bx xop o => (mkBX xop).map (· o)
  | .cp xop o => (mkCP xop).map (· o)
  | .v maj vop o => (opV maj vop).map (· o)
  | .vx vop o => (mkVX vop).map (· o)
  | .vm maj vop o => (opVM maj vop).map (· o)
  | .c cop o => (mkC cop).map (· o)
  | .tile pmaj o => (mkT pmaj).map (· o)
  | .event => none

/-- Bits [lo+n-1:lo] of a word. -/
def fld (w lo n : Nat) : Nat := w / 2 ^ lo % 2 ^ n

/-- A target field (R27). -/
def decTarget (x : Nat) : Target :=
  match x / 128 % 4 with
  | 0 =>
    if x % 128 < 64 then .reg (BitVec.ofNat 6 (x % 128))
    else if x % 128 = 127 then .none
    else .resv (BitVec.ofNat 7 (x % 128))
  | 1 => .left (BitVec.ofNat 7 (x % 128))
  | 2 => .right (BitVec.ofNat 7 (x % 128))
  | _ => .third (BitVec.ofNat 7 (x % 128))

/-- The nine bits of a target (R27). -/
def encTarget : Target → Nat
  | .none => 127
  | .reg g => g.toNat
  | .resv k => k.toNat
  | .left i => 128 + i.toNat
  | .right i => 256 + i.toNat
  | .third i => 384 + i.toNat

/-- A PR field (R29); 11 is illegal. -/
def decPr (x : Nat) : Option Pr :=
  match x with
  | 0 => some .always
  | 1 => some .onZero
  | 2 => some .onNonzero
  | _ => none

/-- The two bits of a predicate mode (R29). -/
def encPr : Pr → Nat
  | .always => 0
  | .onZero => 1
  | .onNonzero => 2

/-- The operations that use the third slot for data (R38): `sel`, `fma.s` and `fma.d`. -/
def isG3 (maj xop : Nat) : Bool := (maj == 0x02 && xop == 2) || ((maj == 0x17 || maj == 0x18) && xop == 5)

/-- The atomics that use the third slot for data (R38): `acas`, `abfa` and `acasw`. -/
def isA3 (maj xop : Nat) : Bool := maj == 0x1B && (xop == 9 || xop == 11 || xop == 13)

/-- How many operations, from 0 upward, a major of format G or IT has (R35). -/
def opCount (maj : Nat) : Nat :=
  match maj with
  | 0x02 => 3 | 0x05 => 11 | 0x06 => 11 | 0x0A => 6 | 0x10 => 16 | 0x11 => 16 | 0x16 => 6 | 0x17 => 16 | 0x18 => 16
  | 0x1D => 4 | 0x1E => 6 | 0x2A => 5 | 0x2F => 3
  | _ => 0

/-- Whether a major of format V or VM has the operation (R36). -/
def vopLegal (maj vop : Nat) : Bool :=
  match maj with
  | 0x23 => vop < 7 | 0x25 => vop < 7 | 0x29 => vop < 1 | 0x2D => vop < 7 | 0x2E => vop < 4
  | _ => vop < 8

/-- A predicated word: its fields, or code 0x03 when PR is 11 or a field drawn as 0 is not zero. -/
def withPr (w : Nat) (ok : Bool) (f : Pr → View) : Except Reject View :=
  match decPr (fld w 8 2) with
  | some p => if ok then .ok (f p) else .error .field
  | none => .error .field

/-- A word of format G. -/
def decG (maj w : Nat) : Except Reject View :=
  if opCount maj ≤ fld w 10 4 then .error .reserved
  else if isG3 maj (fld w 10 4) then
    if fld w 8 2 = 0 then .ok (.g3 maj (fld w 10 4) { t0 := decTarget (fld w 14 9), t1 := decTarget (fld w 23 9) })
    else .error .field
  else withPr w true fun p => .g maj (fld w 10 4) { pr := p, t0 := decTarget (fld w 14 9), t1 := decTarget (fld w 23 9) }

/-- A word of format I. -/
def decI (maj w : Nat) : Except Reject View :=
  withPr w true fun p => .i maj { pr := p, imm := BitVec.ofNat 13 (fld w 10 13), t0 := decTarget (fld w 23 9) }

/-- A word of format IT. -/
def decIT (maj w : Nat) : Except Reject View :=
  if opCount maj ≤ fld w 10 4 then .error .reserved
  else withPr w true fun p =>
    .it maj (fld w 10 4) { pr := p, imm := BitVec.ofNat 9 (fld w 14 9), t0 := decTarget (fld w 23 9) }

/-- A word of format L or S (R35: seven loads; the stores 0 to 3, 5 and 6). -/
def decL (maj w : Nat) : Except Reject View :=
  if 7 ≤ fld w 10 4 ∨ (maj = 0x1A ∧ fld w 10 4 = 4) then .error .reserved
  else withPr w true fun p =>
    .mem maj (fld w 10 4) { pr := p, lsid := BitVec.ofNat 5 (fld w 14 5), off := BitVec.ofNat 4 (fld w 19 4), t0 := decTarget (fld w 23 9) }

/-- A word of format A or F. -/
def decA (maj w : Nat) : Except Reject View :=
  if (if maj = 0x1B then 15 else 8) ≤ fld w 10 4 then .error .reserved
  else if isA3 maj (fld w 10 4) then
    if fld w 8 2 = 0 then
      .ok (.amo3 (fld w 10 4) { lsid := BitVec.ofNat 5 (fld w 14 5), scope := BitVec.ofNat 4 (fld w 19 4), t0 := decTarget (fld w 23 9) })
    else .error .field
  else withPr w true fun p =>
    .amo maj (fld w 10 4) { pr := p, lsid := BitVec.ofNat 5 (fld w 14 5), scope := BitVec.ofNat 4 (fld w 19 4), t0 := decTarget (fld w 23 9) }

/-- A word of format B; bit 13 is drawn as 0. -/
def decB (maj w : Nat) : Except Reject View :=
  withPr w (fld w 13 1 = 0) fun p => .b maj { pr := p, exit := BitVec.ofNat 3 (fld w 10 3), off := BitVec.ofNat 18 (fld w 14 18) }

/-- A word of format BX; bits [31:17] are drawn as 0. -/
def decBX (w : Nat) : Except Reject View :=
  if 6 ≤ fld w 10 4 then .error .reserved
  else withPr w (fld w 17 15 = 0) fun p => .bx (fld w 10 4) { pr := p, exit := BitVec.ofNat 3 (fld w 14 3) }

/-- A word of format CP; bits [22:17] are drawn as 0. -/
def decCP (w : Nat) : Except Reject View :=
  if 6 ≤ fld w 10 4 then .error .reserved
  else withPr w (fld w 17 6 = 0) fun p =>
    .cp (fld w 10 4) { pr := p, stream := BitVec.ofNat 3 (fld w 14 3), t0 := decTarget (fld w 23 9) }

/-- A word of format V. -/
def decV (maj w : Nat) : Except Reject View :=
  if vopLegal maj (fld w 8 3) then
    .ok (.v maj (fld w 8 3) { fmt := BitVec.ofNat 3 (fld w 29 3), msk := BitVec.ofNat 3 (fld w 26 3), vs2 := BitVec.ofNat 5 (fld w 21 5), vs1 := BitVec.ofNat 5 (fld w 16 5), vd := BitVec.ofNat 5 (fld w 11 5) })
  else .error .reserved

/-- A word of format VX; bit 22 is drawn as 0. -/
def decVX (w : Nat) : Except Reject View :=
  if 4 ≤ fld w 8 3 then .error .reserved
  else if fld w 22 1 = 0 then
    .ok (.vx (fld w 8 3) { t0 := decTarget (fld w 23 9), fmt := BitVec.ofNat 3 (fld w 19 3), msk := BitVec.ofNat 3 (fld w 16 3), vs1 := BitVec.ofNat 5 (fld w 11 5) })
  else .error .field

/-- A word of format VM. -/
def decVM (maj w : Nat) : Except Reject View :=
  if vopLegal maj (fld w 8 3) then
    .ok (.vm maj (fld w 8 3) { fmt := BitVec.ofNat 3 (fld w 29 3), msk := BitVec.ofNat 3 (fld w 26 3), lsid := BitVec.ofNat 5 (fld w 21 5), vi := BitVec.ofNat 5 (fld w 16 5), vd := BitVec.ofNat 5 (fld w 11 5) })
  else .error .reserved

/-- A word of format RD. -/
def decRD (w : Nat) : View :=
  .rd { reg := BitVec.ofNat 6 (fld w 8 6), t0 := decTarget (fld w 14 9), t1 := decTarget (fld w 23 9) }

/-- A 32-bit instruction by its major (R34). -/
def decode32 (w : Nat) : Except Reject View :=
  match fld w 2 6 with
  | 0x00 => .error .illegal
  | 0x01 => .ok (decRD w)
  | 0x02 => decG 0x02 w
  | 0x03 => decI 0x03 w
  | 0x04 => decI 0x04 w
  | 0x05 => decG 0x05 w
  | 0x06 => decIT 0x06 w
  | 0x07 => decB 0x07 w
  | 0x08 => decB 0x08 w
  | 0x09 => decBX w
  | 0x0A => decG 0x0A w
  | 0x0B => decI 0x0B w
  | 0x10 => decG 0x10 w
  | 0x11 => decG 0x11 w
  | 0x12 => decI 0x12 w
  | 0x13 => decI 0x13 w
  | 0x14 => decI 0x14 w
  | 0x15 => decI 0x15 w
  | 0x16 => decIT 0x16 w
  | 0x17 => decG 0x17 w
  | 0x18 => decG 0x18 w
  | 0x19 => decL 0x19 w
  | 0x1A => decL 0x1A w
  | 0x1B => decA 0x1B w
  | 0x1C => decA 0x1C w
  | 0x1D => decG 0x1D w
  | 0x1E => decG 0x1E w
  | 0x20 => decV 0x20 w
  | 0x21 => decV 0x21 w
  | 0x22 => decV 0x22 w
  | 0x23 => decV 0x23 w
  | 0x24 => decV 0x24 w
  | 0x25 => decV 0x25 w
  | 0x26 => decV 0x26 w
  | 0x27 => decV 0x27 w
  | 0x28 => decVX w
  | 0x29 => decV 0x29 w
  | 0x2A => decG 0x2A w
  | 0x2B => decV 0x2B w
  | 0x2C => decVM 0x2C w
  | 0x2D => decVM 0x2D w
  | 0x2E => decVM 0x2E w
  | 0x2F => decG 0x2F w
  | 0x30 => decCP w
  | _ => .error .reserved

/-- A 16-bit instruction (R31). -/
def decode16 (w : Nat) : Except Reject View :=
  if 10 ≤ fld w 2 5 then .error .reserved else .ok (.c (fld w 2 5) { t0 := decTarget (fld w 7 9) })

/-- A 64-bit tile instruction (R32): word A in bits [31:0], word B in bits [63:32]. -/
def decode64 (w : Nat) : Except Reject View :=
  if 10 ≤ fld w 2 6 then .error .reserved
  else .ok (.tile (fld w 2 6) { kg := BitVec.ofNat 2 (fld w 30 2), fmt := BitVec.ofNat 3 (fld w 27 3), scb := BitVec.ofNat 3 (fld w 24 3), sca := BitVec.ofNat 3 (fld w 21 3), vb := BitVec.ofNat 5 (fld w 16 5), va := BitVec.ofNat 5 (fld w 11 5), acc := BitVec.ofNat 3 (fld w 8 3), imm := BitVec.ofNat 15 (fld w 49 15), msk := BitVec.ofNat 3 (fld w 46 3), lsid := BitVec.ofNat 5 (fld w 41 5), t0 := decTarget (fld w 32 9) })

/-- The length in bits that the first halfword gives (R26); none for length class 11. -/
def lengthOf (w : Nat) : Option Nat :=
  match w % 4 with
  | 0 => some 32
  | 1 => some 16
  | 2 => some 64
  | _ => none

/-- The instruction, seen by its format, that a word of its length class encodes. -/
def decodeView (w : Nat) : Except Reject View :=
  match w % 4 with
  | 0 => decode32 (w % 2 ^ 32)
  | 1 => decode16 (w % 2 ^ 16)
  | 2 => decode64 (w % 2 ^ 64)
  | _ => .error .illegal

/-- The instruction that a word of its length class encodes. -/
noncomputable def decodeWord (w : Nat) : Except Reject Instr :=
  match decodeView w with
  | .ok v =>
    match v.instr with
    | some i => .ok i
    | none => .error .reserved
  | .error e => .error e

/-- Little-endian bytes as a number (R6). -/
def leNat : List Byte → Nat
  | [] => 0
  | b :: bs => b.toNat + 256 * leNat bs

/-- The low `n` bytes of a number, least significant first (R6). -/
def leBytes : Nat → Nat → List Byte
  | 0, _ => []
  | n + 1, w => BitVec.ofNat 8 w :: leBytes n (w / 256)

/-- The word at the head of some bytes and the bytes after it, cut as R26 delimits it. -/
def takeWord (bs : List Byte) : Except Reject (Nat × List Byte) :=
  match bs with
  | b0 :: _ :: _ =>
    match lengthOf b0.toNat with
    | none => .error .illegal
    | some n => if bs.length < n / 8 then .error .short else .ok (leNat (bs.take (n / 8)), bs.drop (n / 8))
  | _ => .error .short

/-- Decoding, total on any bytes: the instruction at the head and the bytes after it, or why there is none. -/
noncomputable def decode (bs : List Byte) : Except Reject (Instr × List Byte) :=
  match takeWord bs with
  | .ok (w, rest) =>
    match decodeWord w with
    | .ok i => .ok (i, rest)
    | .error e => .error e
  | .error e => .error e

/-- The word of an instruction and its length in bits, from the format drawings (R29, R31, R32); a machine event has
none. -/
def View.encode : View → Option (Nat × Nat)
  | .g maj xop o => some (32, encTarget o.t1 * 2 ^ 23 + encTarget o.t0 * 2 ^ 14 + xop * 2 ^ 10 + encPr o.pr * 2 ^ 8 + maj * 4)
  | .g3 maj xop o => some (32, encTarget o.t1 * 2 ^ 23 + encTarget o.t0 * 2 ^ 14 + xop * 2 ^ 10 + maj * 4)
  | .i maj o => some (32, encTarget o.t0 * 2 ^ 23 + o.imm.toNat * 2 ^ 10 + encPr o.pr * 2 ^ 8 + maj * 4)
  | .it maj xop o => some (32, encTarget o.t0 * 2 ^ 23 + o.imm.toNat * 2 ^ 14 + xop * 2 ^ 10 + encPr o.pr * 2 ^ 8 + maj * 4)
  | .rd o => some (32, encTarget o.t1 * 2 ^ 23 + encTarget o.t0 * 2 ^ 14 + o.reg.toNat * 2 ^ 8 + 4)
  | .mem maj xop o => some (32, encTarget o.t0 * 2 ^ 23 + o.off.toNat * 2 ^ 19 + o.lsid.toNat * 2 ^ 14 + xop * 2 ^ 10 + encPr o.pr * 2 ^ 8 + maj * 4)
  | .amo maj xop o => some (32, encTarget o.t0 * 2 ^ 23 + o.scope.toNat * 2 ^ 19 + o.lsid.toNat * 2 ^ 14 + xop * 2 ^ 10 + encPr o.pr * 2 ^ 8 + maj * 4)
  | .amo3 xop o => some (32, encTarget o.t0 * 2 ^ 23 + o.scope.toNat * 2 ^ 19 + o.lsid.toNat * 2 ^ 14 + xop * 2 ^ 10 + 0x1B * 4)
  | .b maj o => some (32, o.off.toNat * 2 ^ 14 + o.exit.toNat * 2 ^ 10 + encPr o.pr * 2 ^ 8 + maj * 4)
  | .bx xop o => some (32, o.exit.toNat * 2 ^ 14 + xop * 2 ^ 10 + encPr o.pr * 2 ^ 8 + 0x09 * 4)
  | .cp xop o => some (32, encTarget o.t0 * 2 ^ 23 + o.stream.toNat * 2 ^ 14 + xop * 2 ^ 10 + encPr o.pr * 2 ^ 8 + 0x30 * 4)
  | .v maj vop o => some (32, o.fmt.toNat * 2 ^ 29 + o.msk.toNat * 2 ^ 26 + o.vs2.toNat * 2 ^ 21 + o.vs1.toNat * 2 ^ 16 + o.vd.toNat * 2 ^ 11 + vop * 2 ^ 8 + maj * 4)
  | .vx vop o => some (32, encTarget o.t0 * 2 ^ 23 + o.fmt.toNat * 2 ^ 19 + o.msk.toNat * 2 ^ 16 + o.vs1.toNat * 2 ^ 11 + vop * 2 ^ 8 + 0x28 * 4)
  | .vm maj vop o => some (32, o.fmt.toNat * 2 ^ 29 + o.msk.toNat * 2 ^ 26 + o.lsid.toNat * 2 ^ 21 + o.vi.toNat * 2 ^ 16 + o.vd.toNat * 2 ^ 11 + vop * 2 ^ 8 + maj * 4)
  | .c cop o => some (16, encTarget o.t0 * 2 ^ 7 + cop * 4 + 1)
  | .tile pmaj o => some (64, o.imm.toNat * 2 ^ 49 + o.msk.toNat * 2 ^ 46 + o.lsid.toNat * 2 ^ 41 + encTarget o.t0 * 2 ^ 32
      + o.kg.toNat * 2 ^ 30 + o.fmt.toNat * 2 ^ 27 + o.scb.toNat * 2 ^ 24 + o.sca.toNat * 2 ^ 21 + o.vb.toNat * 2 ^ 16
      + o.va.toNat * 2 ^ 11 + o.acc.toNat * 2 ^ 8 + pmaj * 4 + 2)
  | .event => none

/-- The encoder: length in bits and word. -/
def encode (i : Instr) : Option (Nat × Nat) := i.view.encode

/-- The bytes of an instruction as they lie in memory; none for a machine event. -/
def encodeBytes (i : Instr) : List Byte :=
  match encode i with
  | some (n, w) => leBytes (n / 8) w
  | none => []

/-- The bytes of a table word, with zeros above, as the hardware stores them: 8 bytes, the longest instruction. -/
def tableBytes (nbits w : Nat) : List Byte := leBytes 8 (w % 2 ^ nbits)

/-- The instruction this decoder reads from a word of the opcode table (bit 0 the least significant of the first
halfword). -/
noncomputable def decodeTableWord (nbits w : Nat) : Option Instr :=
  match decode (tableBytes nbits w) with
  | .ok (i, _) => some i
  | .error _ => none

/-- The data slots that an operation declares, from the tables of R35 to R37. -/
def View.slots : View → Slots
  | .g maj xop _ =>
    match maj with
    | 0x02 => ⟨true, false, false⟩
    | 0x05 => ⟨true, true, false⟩
    | 0x0A => ⟨xop == 0 || xop == 5, false, false⟩
    | 0x10 => ⟨true, true, false⟩
    | 0x11 => ⟨true, xop ≤ 5, false⟩
    | 0x17 => ⟨true, xop ≤ 3 || xop == 6 || xop == 7 || (12 ≤ xop && xop ≤ 14), false⟩
    | 0x18 => ⟨true, xop ≤ 3 || xop == 6 || xop == 7 || (12 ≤ xop && xop ≤ 14), false⟩
    | 0x1D => ⟨xop == 2, false, false⟩
    | 0x1E => ⟨xop != 2, xop == 1 || xop == 3, false⟩
    | 0x2A => ⟨xop == 0 || xop == 2, xop == 0, false⟩
    | _ => ⟨xop == 0, xop == 0, false⟩
  | .g3 _ _ _ => ⟨true, true, true⟩
  | .i maj _ => ⟨maj != 0x03 && maj != 0x0B, false, false⟩
  | .it maj xop _ => ⟨true, maj == 0x16 && xop == 5, false⟩
  | .rd _ => ⟨false, false, false⟩
  | .mem maj _ _ => ⟨true, maj == 0x1A, false⟩
  | .amo maj xop _ => if maj = 0x1B then ⟨true, true, false⟩ else ⟨xop == 4, false, false⟩
  | .amo3 _ _ => ⟨true, true, true⟩
  | .b maj _ => ⟨maj == 0x08, false, false⟩
  | .bx xop _ => ⟨xop == 0 || xop == 1 || xop == 4, false, false⟩
  | .cp xop _ => ⟨xop == 0, false, false⟩
  | .v maj vop _ =>
    match maj with
    | 0x26 => ⟨vop == 1, false, false⟩
    | 0x27 => ⟨true, false, false⟩
    | 0x29 => ⟨true, true, false⟩
    | _ => ⟨false, false, false⟩
  | .vx vop _ => ⟨vop == 0, false, false⟩
  | .vm maj vop _ =>
    match maj with
    | 0x2C => ⟨vop != 7, vop == 1, false⟩
    | 0x2D => ⟨true, vop == 1, false⟩
    | _ => ⟨vop != 2, false, false⟩
  | .c cop _ => ⟨cop != 8 && cop != 9, false, false⟩
  | .tile pmaj _ => ⟨pmaj == 5 || pmaj == 6, pmaj == 5 || pmaj == 6, false⟩
  | .event => ⟨false, false, false⟩

/-- The predicate mode; formats without a PR field are unpredicated (R29, R31, R32, R38). -/
def View.pr : View → Pr
  | .g _ _ o => o.pr
  | .i _ o => o.pr
  | .it _ _ o => o.pr
  | .mem _ _ o => o.pr
  | .amo _ _ o => o.pr
  | .b _ o => o.pr
  | .bx _ o => o.pr
  | .cp _ o => o.pr
  | .g3 _ _ _ | .rd _ | .amo3 _ _ | .v _ _ _ | .vx _ _ | .vm _ _ _ | .c _ _ | .tile _ _ | .event => .always

/-- The target fields (R28). -/
def View.targets : View → List Target
  | .g _ _ o => [o.t0, o.t1]
  | .g3 _ _ o => [o.t0, o.t1]
  | .i _ o => [o.t0]
  | .it _ _ o => [o.t0]
  | .rd o => [o.t0, o.t1]
  | .mem _ _ o => [o.t0]
  | .amo _ _ o => [o.t0]
  | .amo3 _ o => [o.t0]
  | .cp _ o => [o.t0]
  | .vx _ o => [o.t0]
  | .c _ o => [o.t0]
  | .tile _ o => [o.t0]
  | .b _ _ | .bx _ _ | .v _ _ _ | .vm _ _ _ | .event => []

end Sys2Proof
end

