-- ==== Sys2Proof/WellFormed.lean ====
section
/-! DEFINITION. Which instructions are well formed: the checks of R40 that one instruction earns by itself. Code 0x03
for the values of its fields (R30, R33, R37), code 0x05 for its own targets (R27, R106, R246), and code 0x0D for the
scope entry that `scope.set` and `scope.inv` name (R241). The checks that need the block stand in Machine/Fetch.lean. -/

namespace Sys2Proof

/-- The depth g = 2^KG of a tile instruction (R32). -/
def TOp.depth (o : TOp) : Nat := 2 ^ o.kg.toNat

/-- The values of a vector ALU, MASK, VINS or compare instruction's register fields (R37; the source fields a MASK form
does not use are ignored, R147). -/
def vFieldsOk (maj vop : Nat) (o : VOp) : Bool :=
  match maj with
  | 0x25 => 1 ≤ o.vd.toNat && o.vd.toNat ≤ 7
  | 0x27 => o.vs2 == 0
  | 0x29 => o.vs1 == 0 && o.vs2 == 0
  | 0x2B => 1 ≤ o.vd.toNat && o.vd.toNat ≤ 7 && (4 < vop || o.vs1.toNat ≤ 7) && (3 < vop || o.vs2.toNat ≤ 7)
  | _ => true

/-- The values of a VEXT instruction's fields (R37). -/
def vxFieldsOk (vop : Nat) (o : VXOp) : Bool :=
  match vop with
  | 0 => true
  | 1 => o.fmt == 0 && o.msk == 0
  | _ => o.vs1.toNat ≤ 7 && o.fmt == 0

/-- The values of a vector memory instruction's fields (R37, R186). -/
def vmFieldsOk (maj vop : Nat) (o : VMOp) : Bool :=
  match maj, vop with
  | 0x2C, 2 => true
  | 0x2C, 3 => o.vi.toNat ≤ 7 && o.vd.toNat + o.vi.toNat ≤ 31
  | 0x2C, 5 => true
  | 0x2C, 6 => o.vi.toNat ≤ 7
  | 0x2C, 7 => o.vi.toNat ≤ 7
  | 0x2D, 2 => true
  | 0x2D, 3 => o.vi.toNat ≤ 7 && o.vd.toNat + o.vi.toNat ≤ 31
  | 0x2D, 4 => true
  | 0x2E, 1 => o.msk != 0
  | 0x2E, 3 => o.vd == 0
  | 0x2E, _ => true
  | _, _ => o.vi == 0

/-- The values of a tile instruction's fields: the fields its operation does not use are zero, the depth stays within
`v31`, and IMM15 holds no reserved value (R33, R207, R213, R216, R217). -/
def tileFieldsOk (pmaj : Nat) (o : TOp) : Bool :=
  let noVec := o.va == 0 && o.vb == 0
  let noSc := o.sca == 0 && o.scb == 0
  let deep := o.va.toNat + o.depth ≤ 32 && o.vb.toNat + o.depth ≤ 32
  match pmaj with
  | 0 => noVec && noSc && o.fmt == 0 && o.kg == 0 && o.msk == 0 && o.lsid == 0 && o.imm.toNat < 2 ^ 12 && o.imm.toNat / 2 ^ 10 % 4 != 3
  | 1 => noVec && noSc && o.fmt == 0 && o.kg == 0 && o.msk == 0 && o.lsid == 0 && o.imm == 0
  | 2 => noSc && o.lsid == 0 && o.imm == 0 && deep
  | 3 => o.lsid == 0 && o.imm == 0 && deep
  | 4 => noSc && o.lsid == 0 && o.imm == 0 && deep
  | 5 => noVec && noSc && o.kg == 0 && o.msk == 0 && o.imm.toNat < 2 ^ 10
  | 6 => noVec && noSc && o.kg == 0 && o.msk == 0 && o.imm.toNat < 2 ^ 10
  | _ => o.vb == 0 && noSc && o.kg == 0 && o.lsid == 0 && o.imm.toNat < 2 ^ 10

/-- Code 0x03 for the values of the fields. -/
def View.fieldsOk : View → Bool
  | .it maj xop o => maj != 0x16 || xop == 4 || o.imm.toNat < 64
  | .v maj vop o => vFieldsOk maj vop o
  | .vx vop o => vxFieldsOk vop o
  | .vm maj vop o => vmFieldsOk maj vop o
  | .tile pmaj o => tileFieldsOk pmaj o
  | .g _ _ _ | .g3 _ _ _ | .i _ _ | .rd _ | .mem _ _ _ | .amo _ _ _ | .amo3 _ _ | .b _ _ | .bx _ _ | .cp _ _ | .c _ _ => true
  | .event => true

/-- A target that is not a reserved write-slot index (R27). -/
def Target.legal : Target → Bool
  | .resv _ => false
  | _ => true

/-- Indices 64 to 126 are the reserved ones: the range a decoded reserved target lies in (R27). -/
def Target.drawn : Target → Bool
  | .resv k => 64 ≤ k.toNat && k.toNat < 127
  | _ => true

/-- A target that is a write slot or nothing (R106, R246). -/
def Target.writeOnly : Target → Bool
  | .none => true
  | .reg _ => true
  | _ => false

/-- The forms whose token comes after commit: stamped stores and atomics (R106, R246). -/
def View.deferred : View → Bool
  | .mem maj xop _ => maj == 0x1A && (xop == 5 || xop == 6)
  | .amo maj _ _ => maj == 0x1B
  | .amo3 _ _ => true
  | _ => false

/-- Code 0x05 as far as one instruction's own bits decide it. -/
def View.targetsOk (v : View) : Bool :=
  v.targets.all Target.legal && (!v.deferred || v.targets.all Target.writeOnly) &&
  (match v.targets with
   | [t0, t1] => t0 == .none || t0 != t1
   | _ => true)

/-- Code 0x0D: `scope.set` and `scope.inv` name entries 1 to 14. -/
def View.scopeOk : View → Bool
  | .amo 0x1C xop o => (xop != 4 && xop != 6) || (o.scope != 0 && o.scope != 15)
  | _ => true

/-- An instruction that passes every check its own bits decide. A machine event is well formed. -/
def View.wf (v : View) : Bool := v.fieldsOk && v.targetsOk && v.scopeOk

/-- An instruction that passes every check its own bits decide. A machine event is well formed. -/
def Instr.wf (i : Instr) : Bool := i.view.wf

end Sys2Proof
end

