-- ==== Sys2Proof/Machine/Ops.lean ====
section
/-! DEFINITION. The named operations over the state that the meanings share: reaching a strand, a gang, a core; delivering
a token; recording a fault; aborting a block; taking an exception (R74 to R77, R297, R300, R301) and returning from
one (R303). -/

namespace Sys2Proof.Machine

/-- A next state. -/
abbrev Out := Host.Outcome State Fault Refusal

/-- The core and the strand context of a strand id (R290). -/
def coreOf (sid : Nat) : Nat := sid / 8
def ctxnOf (sid : Nat) : Nat := sid % 8

/-- The cluster of a core (R13). -/
def clusterOf (core : Nat) : Nat := core / 4

/-- Change a strand, a core, a gang, a die, a context, a cluster, a stream of a core, where they are listed or by default. -/
def State.updStrand (s : State) (sid : Nat) (f : Strand → Strand) : State := { s with strands := s.strands.adjust sid f }
def State.updCore (s : State) (c : Nat) (f : Core → Core) : State := { s with cores := s.cores.put c (f (s.core c)) }
def State.updGang (s : State) (g : Nat) (f : Gang → Gang) : State := { s with gangs := s.gangs.adjust g f }
def State.updDie (s : State) (d : Nat) (f : Die → Die) : State := { s with dies := s.dies.put d (f (s.die d)) }
def State.updCtx (s : State) (c : Nat) (f : Context → Context) : State := { s with contexts := s.contexts.adjust c f }
def State.updCluster (s : State) (k : Nat) (f : Cluster → Cluster) : State := { s with clusters := s.clusters.put k (f (s.cluster k)) }
def State.updPort (s : State) (p : Nat) (f : Port → Port) : State := { s with ports := s.ports.put p (f (s.port p)) }
def State.updLink (s : State) (l : Nat) (f : DieLink → DieLink) : State := { s with links := s.links.put l (f (s.link l)) }
def State.updBoard (s : State) (f : Board → Board) : State := { s with board := f s.board }
def State.updPkg (s : State) (f : Pkg → Pkg) : State := { s with pkg := f s.pkg }
def State.updDisp (s : State) (f : Dispatcher → Dispatcher) : State := { s with disp := f s.disp }

/-- Change the running block of a strand. -/
def Strand.updWin (t : Strand) (f : Window → Window) : Strand := { t with win := t.win.map f }
def State.updWin (s : State) (sid : Nat) (f : Window → Window) : State := s.updStrand sid (·.updWin f)

/-- A strand, and its running block. -/
def State.strand? (s : State) (sid : Nat) : Option Strand := s.strands.get? sid
def State.win? (s : State) (sid : Nat) : Option Window := (s.strand? sid).bind (·.win)

/-- A stream of a core, IDLE and unbound where nothing has used it (R223). -/
def Sedge.none : Sedge := { cores := 0, l2 := 0, slough := 0, host := false, fabric := false, meet := 0, gen := 0, valid := false }
def StreamRec.none : StreamRec :=
  { srcBase := 0, srcStride := 0, dstBase := 0, dstStride := 0, n := 0, free := false, scope := 0, red := 0, fmt := 0, strip := 1 }
def Stream.reset : Stream :=
  { gang := none, desc := .none, state := 0, cur := 0, strips := [], done_ := 0, written := [], events := 0, part := [], saved := [],
    finals := [], issuer := 0, cid := 0, snap := .none, item := 0, failKind := 0, failAt := 0, draining := false }
def Core.stream (c : Core) (k : Nat) : Stream := c.streams.getD k .reset
def State.updStream (s : State) (c k : Nat) (f : Stream → Stream) : State :=
  s.updCore c fun x => { x with streams := x.streams.put k (f (x.stream k)) }

/-- A tile of a core, unbound where nothing has bound it (R198). -/
def Tile.reset : Tile := { gang := none, shape := none, committed := none, cells := [] }
def Core.tile (c : Core) (k : Nat) : Tile := c.tiles.getD k .reset
def State.updTile (s : State) (c k : Nat) (f : Tile → Tile) : State :=
  s.updCore c fun x => { x with tiles := x.tiles.put k (f (x.tile k)) }

/-- Kinds of faults and notices (R296). -/
def kFormat : Nat := 0x01
def kFetch : Nat := 0x02
def kTrans : Nat := 0x03
def kPerm : Nat := 0x04
def kAlign : Nat := 0x05
def kFmtWord : Nat := 0x06
def kTile : Nat := 0x07
def kStream : Nat := 0x08
def kSync : Nat := 0x09
def kStale : Nat := 0x0A
def kExitAlign : Nat := 0x0B
def kDoubleDel : Nat := 0x0C
def kDoubleExit : Nat := 0x0D
def kStall : Nat := 0x0E
def kPinLimit : Nat := 0x0F
def kPoison : Nat := 0x10
def kRemote : Nat := 0x11
def kSystem : Nat := 0x12
def kSys : Nat := 0x20
def kBrk : Nat := 0x21
def kStreamNote : Nat := 0x30
def kSaveNote : Nat := 0x31
def kFatal : Nat := 0x40

/-- The class of a fault kind in the order of R76: 0 the translation faults and those that rank with them, 1 the format
faults and those that rank with them, 2 exit-alignment, 3 double-delivery, 4 double-exit, 5 block-stall. -/
def classOf (kind : Nat) : Nat :=
  if kind = kFmtWord ∨ kind = kTile ∨ kind = kStream ∨ kind = kSync ∨ kind = kSystem then 1
  else if kind = kExitAlign then 2
  else if kind = kDoubleDel then 3
  else if kind = kDoubleExit then 4
  else if kind = kStall then 5
  else 0

/-- Whether the first fault is the one reported of two (R76, R74): the earlier step, then the earlier class, then the
lower index; of two double deliveries or double exits of one step the higher index. -/
def FaultRec.beats (a b : FaultRec) : Bool :=
  if a.key != b.key then a.key < b.key
  else if a.cls != b.cls then a.cls < b.cls
  else if a.cls = 3 ∨ a.cls = 4 then b.index < a.index
  else a.index < b.index

/-- A fault recorded in a block: the one reported of it and any recorded before (R76). -/
def Window.record (w : Window) (f : FaultRec) : Window :=
  match w.fault with
  | none => { w with fault := some f }
  | some g => if f.beats g then { w with fault := some f } else w

/-- The key of the step in which something happens in a core's front end (R76): the end of the step in progress, or the
present boundary. -/
def State.stepKey (s : State) (core : Nat) : Nat :=
  let fe := (s.core core).fe
  if s.now < fe.stop then fe.stop else s.now

/-- Record a fault of an instruction of a running block. -/
def State.raise (s : State) (sid kind sub index vaddr info : Nat) (info2 : Nat := 0) : State :=
  s.updWin sid (·.record { key := s.stepKey (coreOf sid), cls := classOf kind, kind := kind, sub := sub, index := index, vaddr := vaddr, info := info, info2 := info2 })

/-- An instruction's slots before any token has come. -/
def OpState.empty : OpState := { l := none, r := none, t := none, fired := false, nulled := false }

/-- The slots of instruction `idx`. -/
def Window.op (w : Window) (idx : Nat) : OpState := w.ops.getD idx .empty

/-- A second delivery to one slot, or a second resolution of one LSID (R74): double-delivery. The record names the instruction that
delivered in the later step, or, of two in one step, the higher index; the first came from `src₀` in the step that ended at `key₀`. -/
def Window.twice (w : Window) (src₀ key₀ src key : Nat) : Window :=
  w.record { key := key, cls := 3, kind := kDoubleDel, sub := 0, index := if key₀ = key then max src₀ src else src, vaddr := 0, info := 0, info2 := 0 }

/-- A slot takes a token of instruction `src` (R28, R69, R74): the slot's new content, or none where a token is there already. -/
def Held.into (h : Held) (src : Nat) (old : Option Held) : Option Held :=
  match old with
  | some _ => none
  | none => some { h with src := src }
def Window.clash (w : Window) (src : Nat) (h : Held) (old : Option Held) : Window :=
  match old with
  | some o => w.twice o.src o.at_ src h.at_
  | none => w

/-- Deliver a token to one target (R28, R69, R74). -/
def Window.deliver (w : Window) (src : Nat) (h : Held) (t : Target) : Window :=
  match t with
  | .none => w
  | .resv _ => w
  | .reg g =>
    match h.into src (w.slots.get? g.toNat) with
    | some h => { w with slots := w.slots.put g.toNat h }
    | none => w.clash src h (w.slots.get? g.toNat)
  | .left i =>
    match h.into src (w.op i.toNat).l with
    | some h => { w with ops := w.ops.put i.toNat { w.op i.toNat with l := some h } }
    | none => w.clash src h (w.op i.toNat).l
  | .right i =>
    match h.into src (w.op i.toNat).r with
    | some h => { w with ops := w.ops.put i.toNat { w.op i.toNat with r := some h } }
    | none => w.clash src h (w.op i.toNat).r
  | .third i =>
    match h.into src (w.op i.toNat).t with
    | some h => { w with ops := w.ops.put i.toNat { w.op i.toNat with t := some h } }
    | none => w.clash src h (w.op i.toNat).t

/-- Deliver a token to each target. -/
def Window.deliverAll (w : Window) (src : Nat) (h : Held) (ts : List Target) : Window :=
  ts.foldl (fun w t => w.deliver src h t) w

/-- Resolve an LSID (R39): a second resolution is a double delivery. -/
def Window.resolve (w : Window) (lsid src key : Nat) : Window :=
  match w.lsids.get? lsid with
  | some o => w.twice o.1 o.2 src key
  | none => { w with lsids := w.lsids.put lsid (src, key) }

/-- Mark an instruction as fired (R69). -/
def Window.fire (w : Window) (idx : Nat) (nulled : Bool) : Window :=
  { w with ops := w.ops.put idx { w.op idx with fired := true, nulled := nulled } }

/-- The token an instruction delivers at the end of the step in which it executes (R71). -/
def State.tokAt (s : State) (core : Nat) (tok : Tok) : Held :=
  { tok := tok, at_ := s.stepKey core }

/-- An event of R172 raised by an instruction at an element: the lowest element is kept (R174). `ev` is one bit number. -/
def Window.event (w : Window) (idx bit elem : Nat) : Window :=
  let k := idx * 8 + bit
  match w.events.get? k with
  | some e => if elem < e then { w with events := w.events.put k elem } else w
  | none => { w with events := w.events.put k elem }

/-- Every event of a mask of events. -/
def Window.eventMask (w : Window) (idx mask elem : Nat) : Window :=
  (List.range 6).foldl (fun w b => if mask.testBit b then w.event idx b elem else w) w

/-- Post something to the commit of the block (R73). -/
def Window.post (w : Window) (idx : Nat) (p : Post) : Window := { w with posts := w.posts.put idx p }

/-- A fresh number for a posted item, a save or a record. -/
def State.fresh (s : State) : Nat × State := (s.seq, { s with seq := s.seq + 1 })

/-- A free value of `w` bits (R9), and the state that has used it. -/
def State.undef (s : State) (w : Nat) : Nat × State := (freeValue s.free % 2 ^ w, { s with free := s.free + 1 })

/-- The dwords of a trap record (R297). -/
def TrapRec.dword0 (r : TrapRec) : Dword :=
  BitVec.ofNat 64 (r.asid.toNat * 2 ^ 48 + r.core.toNat * 2 ^ 40 + r.ctxn.toNat * 2 ^ 32 + r.fovf.toNat * 2 ^ 28 + r.repeat_.toNat * 2 ^ 27
    + r.parked.toNat * 2 ^ 26 + r.fatal.toNat * 2 ^ 25 + r.rpl.toNat * 2 ^ 24 + r.index.toNat * 2 ^ 16 + r.sub.toNat * 2 ^ 8 + r.kind.toNat)
def TrapRec.dwords (r : TrapRec) : List Dword :=
  [r.dword0, r.block, r.vaddr, r.info, r.info2, r.qt, BitVec.ofNat 64 (r.seq.toNat * 2 ^ 32 + r.gang.toNat), 0]

/-- An ordinary record written into a free slot of a core's queue, with the next sequence number (R297, R300). -/
def Core.enqueue (c : Core) (r : TrapRec) : Core := { c with queue := c.queue ++ [{ r with seq := c.seq }], seq := c.seq + 1 }

/-- Whether all ordinary slots of a core's queue are full (R300). -/
def Core.queueFull (c : Core) : Bool := 32 ≤ c.queue.length

/-- The record that a strand's exception writes (R297). -/
def State.trapRec (s : State) (sid : Nat) (t : Strand) (f : FaultRec) (block : Dword) (parked rpl : Bool) : TrapRec :=
  { asid := t.asid, core := BitVec.ofNat 5 (coreOf sid), ctxn := BitVec.ofNat 3 (ctxnOf sid), fovf := false, repeat_ := t.redo,
    parked := parked, fatal := false, rpl := rpl, index := BitVec.ofNat 8 f.index, sub := BitVec.ofNat 8 f.sub,
    kind := BitVec.ofNat 8 f.kind, block := block, vaddr := BitVec.ofNat 64 f.vaddr, info := BitVec.ofNat 64 f.info,
    info2 := BitVec.ofNat 64 f.info2, qt := s.qtime, seq := 0, gang := BitVec.ofNat 8 t.gang }

/-- TAKING AN EXCEPTION (R74, R296, R297, R300): the one operation by which a strand stops on a fault, a service request or
a breakpoint. With a free ordinary slot the record is written, `tcause`, `taddr` and `tinfo` take its dwords 0, 2 and
3, and the strand parks with `block` as its current block. With the queue full the record is dropped, and the strand
stops with the replay-pending mark. A block that was fetched ahead is discarded (R42, R66). A stream notice or a fatal record is not the strand's most recent
record in those registers (log 144, DESIGN CHOICE). -/
def State.takeTrap (s : State) (sid : Nat) (f : FaultRec) (block : Dword) (rpl : Bool) : State :=
  match s.strand? sid with
  | none => s
  | some t =>
    if (s.core (coreOf sid)).queueFull then
      s.updStrand sid fun t => { t with pc := block, run := .pend, redo := true, again := false, fetched := none }
    else
      let r := s.trapRec sid t f block true rpl
      (s.updCore (coreOf sid) (·.enqueue r)).updStrand sid fun t =>
        { t with pc := block, run := .parked, tcause := r.dword0, taddr := r.vaddr, tinfo := r.info, parkKind := f.kind,
                 parkInfo := r.info, redo := false, again := false, fetched := none }

/-- A notice (R298, R300): written when a slot is free, else held as pending by the core. -/
def State.notice (s : State) (core : Nat) (r : TrapRec) : State :=
  s.updCore core fun c => if c.queueFull then { c with notices := c.notices ++ [r] } else c.enqueue r

/-- Every strand of a gang stops, or is stopped no longer (R301). -/
def State.stopGang (s : State) (gid : Nat) (on : Bool) : State :=
  { s with strands := s.strands.mapVals fun _ t => if t.gang = gid then { t with stopped := on } else t }

/-- A strand that a block of its own may run in: nothing keeps it from it but what its block waits for (R66, R301). -/
def Strand.runs (t : Strand) : Bool := t.run == .active && !t.stopped

/-- The deadline of a strand has passed (R286): it is compared with `qtime`, which wraps (R275). -/
def Strand.late (t : Strand) (qtime : Dword) : Bool := t.qdl != 0 && decide (t.qdl ≤ qtime)

/-- The code that keeps a gang stopped, after one more fatal record (R301): one that GO runs on from takes the place of none that only KILL ends. -/
def stopCode (old : Option Nat) (sub : Nat) : Nat :=
  match old with
  | some k => if sub = 3 ∧ k ≠ 4 ∨ sub = 4 then k else sub
  | none => sub

/-- A fatal record (R301): into the fatal slot, or lost with FOVF set in the occupant; every strand of the gang stops. -/
def State.fatal (s : State) (gid core sub : Nat) (pa : Nat) : State :=
  match s.gangs.get? gid with
  | none => s
  | some g =>
    let r : TrapRec :=
      { asid := g.asid, core := BitVec.ofNat 5 core, ctxn := BitVec.ofNat 3 (g.members.headD 0), fovf := false, repeat_ := false,
        parked := false, fatal := true, rpl := false, index := 0xFF, sub := BitVec.ofNat 8 sub, kind := 0x40,
        block := ((s.strand? (g.members.headD 0)).map (·.pc)).getD 0, vaddr := 0, info := BitVec.ofNat 64 gid,
        info2 := BitVec.ofNat 64 pa, qt := s.qtime, seq := 0, gang := BitVec.ofNat 8 gid }
    let s := s.updCore core fun c =>
      match c.fatal with
      | some o => { c with fatal := some { o with fovf := true } }
      | none => { c with fatal := some { r with seq := c.seq }, seq := c.seq + 1 }
    let s := s.updGang gid fun g => { g with stopped := some (stopCode g.stopped sub) }
    s.stopGang gid true

/-- What an abort takes from the core of a strand (R77, R111, R251, R256): its divisions, its instructions in the lane pipe,
its data on the way to the front end, the links its block set. A divider that works on one of its divisions is free at the end of the
front-end step in progress, or at once between steps. -/
def Core.dropBlock (c : Core) (sid now : Nat) : Core :=
  let busy := c.fe.stepping now
  let die (d : DivOp) : DivOp := if d.sid = sid then { d with dead := true } else d
  { c with
    inbox := c.inbox.filter (·.sid != sid), rd := c.rd.filter (·.sid != sid), ex := c.ex.filter (·.sid != sid),
    wr := c.wr.filter (·.sid != sid), fills := c.fills.filter (·.sid != sid), toFe := c.toFe.filter (·.sid != sid), idiv := (c.idiv.mapVals fun _ d => die d).filter (fun d => busy || !d.2.dead),
    idivWait := c.idivWait.filter (·.sid != sid), fdiv := (c.fdiv.map die).filter (fun d => busy || !d.dead), fdivWait := c.fdivWait.filter (·.sid != sid),
    issue := c.issue.filter (·.1 != sid), links := c.links.filter (fun k => k.sid != sid || k.usable),
    watches := c.watches.filter (·.1 != sid) }

/-- A reservation of a Sedge entry by a strand is released (R240). -/
def Context.release (c : Context) (sid : Nat) : Context := { c with resv := c.resv.filter (·.2 != sid) }

/-- An abort (R77): everything of the running block is discarded, with the fetched successor; its reservations drop
(R240, R252). The strand's committed state does not change. A strand between two blocks, which may sleep on its watches (R256), loses only
what was fetched. -/
def State.abortBlock (s : State) (sid : Nat) : State :=
  match s.strand? sid with
  | none => s
  | some t =>
    if t.win.isNone then s.updStrand sid fun t => { t with fetched := none } else
    let s := s.updCore (coreOf sid) (·.dropBlock sid s.now)
    let s := s.updCtx t.ctx (·.release sid)
    let kept := t.items.flatMap fun i => match i.kind with | .store segs _ _ true => segs.flatMap fun g => linesOf g.bytes | _ => []
    let lines := match t.win with | some w => w.resv.filter fun l => !kept.contains l | none => []
    let s := s.updStrand sid fun t => { t with win := none, fetched := none }
    { s with resv := s.resv.filter fun kv => kv.2 != sid || !lines.contains kv.1 }

/-- A fault ends a block (R74, R77): it aborts, and the strand takes the exception at the block, which GO replays. -/
def State.faultBlock (s : State) (sid : Nat) (f : FaultRec) : State :=
  match s.strand? sid with
  | none => s
  | some t => (s.abortBlock sid).takeTrap sid f t.pc true

/-- THE RETURN FROM AN EXCEPTION (R303): the strand runs the block given, which is fetched afresh. -/
def State.resumeAt (s : State) (sid : Nat) (block : Dword) : State :=
  s.updStrand sid fun t => { t with pc := block, run := .active, parkKind := 0, parkInfo := 0, fetched := none }

/-- Set bits of NOTIF (R364): each setting sends a management event, and MSI-X when enabled and the host is up (R363). -/
def State.notify (s : State) (bit : Nat) : State :=
  let b := s.board
  let hostDown := b.notif.getLsbD 3
  { s with
    board := { b with notif := b.notif ||| BitVec.ofNat 8 (2 ^ bit) },
    out := { s.out with events := bit :: s.out.events, msix := if b.msiEn && !hostDown && bit != 3 then b.nvec.toNat :: s.out.msix else s.out.msix } }

/-- Send an MSI-X message; none is sent while HOSTDN = 1 (R357). -/
def State.msix (s : State) (vec : Nat) : State :=
  if s.board.notif.getLsbD 3 then s else { s with out := { s.out with msix := vec :: s.out.msix } }

/-- The period floor of a core's cluster (R341). -/
def State.floorOf (s : State) (core : Nat) : Nat := (s.cluster (clusterOf core)).eff

/-- A die link retrains, and carries nothing meanwhile (R353, R354). -/
def State.retraining (s : State) : Bool := s.links.any fun kv => kv.2.retraining

/-- A die link of some numbers retrains (R353). -/
def State.linkWait (s : State) (p : Nat → Bool) : Bool := s.links.any fun kv => kv.2.retraining && p kv.1

/-- The Reed die of a byte; none for what lies on or beyond the Tussock die. -/
def placeDie (pa : Nat) : Option Nat :=
  match placeOf pa with | .hbm => some (homeDie pa) | .scratch => some (spDie ((pa - spPhys 0 0) % 0x200000)) | _ => none

/-- The links that what goes between a core and a byte may have to cross (R351, log 108): from the front end the link of the byte's die; from the
slices of a core, which lie on every die, also that die's links to its neighbours, or those to the Tussock die for a byte there. `route` says how many dies the
home of a byte of a unit-stride access comes after the die of its register byte (R193, R195): with none the two are one die, and nothing crosses a link; of two
neighbours it is the link that joins them. -/
def linksTo (vec : Bool) (pa l : Nat) (route : Option Nat := none) : Bool :=
  match placeDie pa with
  | some d => match route with
    | some 0 => false
    | some 1 => l == 8 + (d + 7) % 8
    | some 7 => l == 8 + d
    | _ => l == d || vec && (l == 8 + d || l == 8 + (d + 7) % 8)
  | none => vec && l < 8

/-- A datum that was sent between the front end and the slices of a core at quantum `sent` may be accepted (R280): 3 q have passed, and no link
between their dies retrains (R353). -/
def State.crossed (s : State) (sent : Nat) : Bool := sent + 3 ≤ s.now && !s.linkWait (· < 8)

/-- The same of a datum between a core and some bytes. -/
def State.crossedTo (s : State) (vec : Bool) (sent : Nat) (pas : List Nat) (route : Option Nat := none) : Bool :=
  sent + 3 ≤ s.now && !(s.linkWait fun l => pas.any fun p => linksTo vec p l route)

/-- The link to the die of some bytes does not retrain: what the Tussock die sends there can leave (R353). -/
def State.linkOpen (s : State) (pas : List Nat) : Bool := !(s.linkWait fun l => pas.any fun p => linksTo false p l)

/-- Whether the clocks of a core's regions run: its cluster is in C0 and no relock stops it (R282, R333); under reduced service only cluster 0 is
on (R366). -/
def State.clocked (s : State) (core : Nat) : Bool :=
  let k := s.cluster (clusterOf core)
  k.stopAt.isNone && k.state == 0 && !(s.board.reduced && 4 ≤ core)

/-- A lane slice of a core makes a step of its own (R22, R276); a slice makes a step, its own or its pipe's; every slice stands, so that the pipe can
accept what comes to it (R279). -/
def Core.ownStep (k : Core) (now d : Nat) : Bool := now < (k.slices.getD d .reset).stop
def Core.sliceSteps (k : Core) (now d : Nat) : Bool := k.lanes.stepping now || k.ownStep now d
def Core.lanesStand (k : Core) (now : Nat) : Bool := !k.lanes.stepping now && (List.range 8).all fun d => !k.ownStep now d

/-- Every region of a core stands. -/
def Core.standing (k : Core) (now : Nat) : Bool := !k.fe.stepping now && !k.plane.stepping now && k.lanesStand now

/-- The pipe of the lane slices has work, and its longest class (R278, R279): an occupied stage, or data of a load that they have accepted (R276). -/
def Core.pipeWork (k : Core) : Option Nat :=
  if k.rd.isNone && k.ex.isNone && k.wr.isNone && k.fills.isEmpty then none else some (max 2 (match k.ex with | some e => e.cls | none => 2))

/-- The pipe has an instruction to accept as soon as every slice stands: no slice begins a step of its own meanwhile (log 21). -/
def State.pipeCalls (s : State) (core : Nat) : Bool :=
  let k := s.core core
  !k.lanesStand s.now && !k.lanes.stepping s.now && k.rd.isNone && k.inbox.head?.any fun e => s.crossed e.sent

/-- A bank of a core's scratchpad can accept an access (R195, R276, R280, R282): its lane slice stands at a boundary, its clock runs, and the bank serves
none in the step that begins there. An access of it has the slice step, and ends its gating (R337). -/
def State.bankFree (s : State) (core bank : Nat) : Bool :=
  s.clocked core && !(s.core core).sliceSteps s.now (bank / 8) && !(s.core core).banks.contains bank && !s.pipeCalls core
def State.useBank (s : State) (core bank : Nat) : State :=
  s.updCore core fun k => { k with banks := if k.banks.contains bank then k.banks else bank :: k.banks, gated := k.gated.filter (· != bank / 8) }

/-- The place of a byte can accept an access, as far as a lane slice has to: elsewhere than in a scratchpad it always can. -/
def State.spotFree (s : State) (pa : Nat) : Bool := placeOf pa != .scratch || s.bankFree (spCore pa) (spBank pa)
def State.useSpot (s : State) (pa : Nat) : State := if placeOf pa = .scratch then s.useBank (spCore pa) (spBank pa) else s

/-- The end of the step in which a place serves what it accepts now (R278, R280): a lane slice for a bank, the L2 region for a byte of HBM, which has begun it. -/
def State.spotStop (s : State) (pa : Nat) : Nat :=
  match placeOf pa with
  | .scratch => s.now + max (s.floorOf (spCore pa)) ((s.core (spCore pa)).pipeWork.getD 2)
  | .hbm => let r := (s.die (homeDie pa)).clock; if r.stepping s.now then r.stop else s.now
  | _ => s.now

/-- The front end of a core stands at a boundary at which it can accept a datum (R276, R280, R282); an accepted one has a step begin. -/
def State.feOpen (s : State) (core : Nat) : Bool := s.clocked core && !(s.core core).fe.stepping s.now
def State.wakeFe (s : State) (core : Nat) : State := s.updCore core fun k => { k with wake := true }

/-- The register length of a grant (R20). -/
def vlenb (slabs : Nat) : Nat := 1024 * slabs

/-- A strand's lane state (R129, R131): as seeded where no draw has advanced it. -/
def Strand.lane (t : Strand) (l : Nat) : BitVec 32 := t.sr.getD l (srSeed t.srseed l)

end Sys2Proof.Machine
end

