-- ==== Sys2Proof/Machine/Operands.lean ====
section
/-! DEFINITION. Operands: when an instruction may fire (R69), what waits it has beside its tokens, the values of its slots,
the vector, mask and scale registers it reads and writes under R138 and R162, and the elements of a group (R134 to
R137). -/

namespace Sys2Proof.Machine

/-- The registers of a group from `r`, without those beyond `v31` (R70, R135). -/
def groupFrom (r g : Nat) : List Nat := (List.range g).map (r + ·) |>.filter (· < 32)

/-- Whether a vector ALU operation reads VS1, and VS2 (R151, R147). -/
def readsVs1 (maj vop : Nat) : Bool := !((maj == 0x24 && vop == 3) || (maj == 0x27 && vop == 7) || maj == 0x29 || (maj == 0x2B && vop != 7))
def readsVs2 (maj vop : Nat) : Bool :=
  match maj with
  | 0x20 => true
  | 0x21 => vop < 2 || vop == 5 || vop == 6
  | 0x22 => vop != 3 && vop != 7
  | 0x23 => vop != 6
  | 0x24 => vop == 2 || vop == 4 || vop == 5 || vop == 6
  | 0x25 => true
  | _ => false

/-- The code fields that an instruction uses (R125, R152, R179, R209 to R217, R250): SRC1, SRC2, DST. -/
def usedCodes (v : View) : Bool × Bool × Bool :=
  match v with
  | .v 0x20 _ _ => (true, true, true)
  | .v 0x21 vop _ => (true, vop < 2 || vop == 5 || vop == 6, true)
  | .v 0x22 vop _ => (true, vop != 3 && vop != 7, true)
  | .v 0x23 vop _ => (true, vop != 6, true)
  | .v 0x24 vop _ => (vop != 3, vop == 2 || vop == 4 || vop == 5 || vop == 6, true)
  | .v 0x25 _ _ => (true, true, false)
  | .v 0x26 _ _ => (true, false, true)
  | .v 0x27 vop _ => (vop != 7, true, true)
  | .v 0x29 _ _ => (false, false, true)
  | .v 0x2B vop _ => (vop == 7, false, false)
  | .vx 0 _ => (true, false, false)
  | .vm 0x2C vop _ => (false, vop == 2 || vop == 5, true)
  | .vm 0x2D vop _ => (true, vop == 2 || vop == 4, false)
  | .vm 0x2E vop _ => (vop == 1 || vop == 2, true, vop == 0)
  | .tile pm _ => (2 ≤ pm && pm ≤ 5 || pm == 8, 2 ≤ pm && pm ≤ 4, pm == 6 || pm == 7 || pm == 9)
  | _ => (false, false, false)

/-- I, F, E and M of R152. -/
def Fmt.isE8 : Fmt → Bool | .e8m0 => true | _ => false

/-- Whether an operation rounds each element once under FRND, so that it draws in mode 5 (R128, R130, R153, R160, log 78). -/
def rounds (src dst : Fmt) : Bool := dst.isFlt || dst.isE8 || (dst.isInt && !src.isInt)

/-- The format of a tile's cells (R199). -/
def Shape.fmt (sh : Shape) : Fmt := match sh.cell with | 0 => fp32 | 1 => .int true 32 | _ => fp64

/-- The fields of a window descriptor (R253): FMT, OP, the container and E. -/
def winFmt (d : Dword) : Fmt := fmtOf (d.toNat / 2 ^ 16 % 256)
def winOp (d : Dword) : Nat := d.toNat / 2 ^ 24 % 4
def winCb (d : Dword) : Nat := contBytes (winFmt d).width
def winCount (d : Dword) : Nat := winLen d / winCb d

/-- Whether an instruction takes a stochastic draw for each element that it rounds (R125, R130): mode 5, and an operation that rounds to a
float or E8M0 or turns a float into an integer. `cell` is the format of a tile form's cells, `win` that of a `vacc`'s window. -/
def drawsIn (v : View) (fw : Nat) (cell win : Fmt) : Bool :=
  let a := fmtOf (fwSrc1 fw)
  let b := fmtOf (fwSrc2 fw)
  let d := fmtOf (fwDst fw)
  fwFrnd fw == 5 &&
  (match v with
   | .v 0x20 vop _ => vop != 4 && d.isFlt
   | .v 0x21 vop _ => vop != 1 && d.isFlt
   | .v 0x22 vop _ => vop == 7 && d.isFlt
   | .v 0x24 vop _ => vop == 1 || (vop == 0 && rounds a d)
   | .v 0x26 vop _ => (vop < 4 || vop == 7) && d.isFlt
   | .v 0x27 vop _ => if vop = 7 then rounds b d else d.isFlt
   | .vm 0x2E 2 _ => a.isFlt || win.isFlt
   | .tile pm _ => (pm == 7 || pm == 9) && rounds cell d
   | _ => false)

end Sys2Proof.Machine

namespace Sys2Proof

open Machine

/-- The format field of an instruction that names a format register. -/
def View.fmt? : View → Option (BitVec 3)
  | .v _ _ o => some o.fmt
  | .vx vop o => if vop = 0 then some o.fmt else none
  | .vm _ _ o => some o.fmt
  | .tile _ o => some o.fmt
  | _ => none

/-- The mask that an instruction names in MSK; none when it is 0 or the format has no MSK. -/
def View.msk : View → Nat
  | .v _ _ o => o.msk.toNat
  | .vx _ o => o.msk.toNat
  | .vm _ _ o => o.msk.toNat
  | .tile _ o => o.msk.toNat
  | _ => 0

/-- The vector registers that an instruction writes, under its format word (R40, R135, R184, R216). -/
def View.vdests (v : View) (fw : Nat) : List Nat :=
  match v with
  | .v maj _ o => if maj = 0x25 ∨ maj = 0x2B then [] else groupFrom o.vd.toNat (fwGroup fw)
  | .vm 0x2C 3 o => (List.range (o.vi.toNat + 1)).map (o.vd.toNat + ·)
  | .vm 0x2C _ o => groupFrom o.vd.toNat (fwGroup fw)
  | .vm 0x2E 0 o => groupFrom o.vd.toNat (fwGroup fw)
  | .tile 7 o => [o.va.toNat]
  | .tile 9 o => [o.va.toNat]
  | _ => []

/-- The masks that an instruction writes (R147, R164, R252). -/
def View.mdests (v : View) : List Nat :=
  match v with
  | .v 0x25 _ o => [o.vd.toNat]
  | .v 0x2B _ o => [o.vd.toNat]
  | .vm 0x2E 1 o => [o.msk.toNat]
  | _ => []

/-- The scale register that an instruction writes (R162). -/
def View.sdests (v : View) (fw : Nat) : List Nat :=
  match v with
  | .v 0x24 1 _ => [fwScld fw]
  | .vm 0x2C 6 o => [o.vi.toNat % 8]
  | _ => []

/-- The vector registers that an instruction reads as sources. -/
def View.vsrcs (v : View) (fw : Nat) : List Nat :=
  match v with
  | .v maj vop o =>
    (if readsVs1 maj vop then groupFrom o.vs1.toNat (fwGroup fw) else []) ++
    (if readsVs2 maj vop then groupFrom o.vs2.toNat (fwGroup fw) else [])
  | .vx 0 o => groupFrom o.vs1.toNat (fwGroup fw)
  | .vm 0x2C 2 o => groupFrom o.vi.toNat (fwGroup fw)
  | .vm 0x2C 5 o => groupFrom o.vi.toNat (fwGroup fw)
  | .vm 0x2D 3 o => (List.range (o.vi.toNat + 1)).map (o.vd.toNat + ·)
  | .vm 0x2D vop o => groupFrom o.vd.toNat (fwGroup fw) ++ (if vop = 2 ∨ vop = 4 then groupFrom o.vi.toNat (fwGroup fw) else [])
  | .vm 0x2E vop o =>
    (if vop = 1 ∨ vop = 2 then groupFrom o.vd.toNat (fwGroup fw) else []) ++ groupFrom o.vi.toNat (fwGroup fw)
  | .tile 8 o => [o.va.toNat]
  | .tile pm o => if 2 ≤ pm ∧ pm ≤ 4 then groupFrom o.va.toNat o.depth ++ groupFrom o.vb.toNat o.depth else []
  | _ => []

/-- The masks that an instruction reads. -/
def View.msrcs (v : View) : List Nat :=
  (if v.msk = 0 then [] else [v.msk]) ++
  (match v with
   | .v 0x2B vop o => (if vop ≤ 4 ∧ o.vs1 ≠ 0 then [o.vs1.toNat] else []) ++ (if vop ≤ 3 ∧ o.vs2 ≠ 0 then [o.vs2.toNat] else [])
   | .vx vop o => if 2 ≤ vop ∧ o.vs1 ≠ 0 then [o.vs1.toNat] else []
   | _ => [])

/-- The scale registers that an instruction reads (R125, R211). -/
def View.ssrcs (v : View) (fw : Nat) : List Nat :=
  let u := usedCodes v
  match v with
  | .v _ _ _ => (if u.1 && (fmtOf (fwSrc1 fw)).isMx then [fwScla fw] else []) ++ (if u.2.1 && (fmtOf (fwSrc2 fw)).isMx then [fwSclb fw] else [])
  | .vm 0x2D 6 _ => [fwScla fw]
  | .tile 3 o => [o.sca.toNat, o.scb.toNat]
  | .tile 8 _ => if (fmtOf (fwSrc1 fw)).isMx then [fwScla fw] else []
  | _ => []

/-- An instruction whose nulled form reads its format word, for the registers that count as written (R70, R124). -/
def View.nullReads : View → Bool
  | .v maj _ _ => maj != 0x25 && maj != 0x2B
  | .vm 0x2C vop _ => vop != 3
  | .vm 0x2E 0 _ => true
  | _ => false

/-- A vector instruction whose result exists when it leaves execute, so that a reader may chain behind it (R279). -/
def View.chains : View → Bool
  | .v _ _ _ => true
  | .tile _ _ => true
  | _ => false

/-- Whether a token on a predicate slot lets the instruction fire (R29, R69). -/
def Pr.matches_ (p : Pr) (x : Tok) : Bool :=
  match p, x with
  | .always, _ => true
  | _, .null => false
  | _, .later => false
  | .onZero, .val v => v == 0
  | .onNonzero, .val v => v != 0

/-- Whether the strand works on vector registers: vector, VEXT and tile forms, which wait for a `vlset` of their block
(R139) and, after a `vrel`, for a grant (R142). -/
def View.isVec : View → Bool
  | .v _ _ _ => true
  | .vx vop _ => vop != 1
  | .vm _ _ _ => true
  | .tile 7 _ => true
  | .tile 9 _ => true
  | _ => false

/-- A tile form that fixes vector operands in the front end (R202). -/
def View.isTileFe : View → Bool
  | .tile 7 _ => false
  | .tile 9 _ => false
  | .tile _ _ => true
  | _ => false

/-- The LSID field of an instruction (R39). -/
def View.lsid? : View → Option Nat
  | .mem _ _ o => some o.lsid.toNat
  | .amo _ _ o => some o.lsid.toNat
  | .amo3 _ o => some o.lsid.toNat
  | .vm _ _ o => some o.lsid.toNat
  | .tile 5 o => some o.lsid.toNat
  | .tile 6 o => some o.lsid.toNat
  | _ => none

/-- The memory instructions that write (R39). -/
def View.writesMem : View → Bool
  | .mem maj _ _ => maj == 0x1A
  | .amo _ _ _ => true
  | .amo3 _ _ => true
  | .vm maj vop _ => maj == 0x2D || (maj == 0x2E && (vop == 1 || vop == 2))
  | .tile 6 _ => true
  | _ => false

/-- The exits (R40). -/
def View.isExit : View → Bool
  | .b _ _ => true
  | .bx _ _ => true
  | _ => false

end Sys2Proof

namespace Sys2Proof.Machine

/-- The view of instruction `idx` of a block. -/
def Fetched.view (b : Fetched) (idx : Nat) : Option View :=
  match b.body[idx]? with
  | some w => match decodeView w with | .ok v => some v | .error _ => none
  | none => none
def Window.view (w : Window) (idx : Nat) : Option View := w.blk.view idx

/-- Every instruction of a block with its index. -/
def Fetched.views (b : Fetched) : List (Nat × View) :=
  (List.range b.body.length).filterMap fun k => (b.view k).map fun v => (k, v)

/-- The format word in g(56+k), as its block-entry value (R124). -/
def Strand.fmtWord (t : Strand) (k : BitVec 3) : Nat := (t.g.get ⟨56 + k.toNat, by have := k.isLt; omega⟩).toNat

/-- A general register of a strand. -/
def Strand.reg (t : Strand) (g : BitVec 6) : Dword := t.g.get ⟨g.toNat, g.isLt⟩
def Strand.setReg (t : Strand) (g : Nat) (x : Dword) : Strand := if h : g < 64 then { t with g := t.g.set g x h } else t

/-- The format word that an instruction reads. -/
def Strand.fw (t : Strand) (v : View) : Nat := match v.fmt? with | some k => t.fmtWord k | none => 0

/-- The instructions of a block that write a vector register, a mask or a scale register, by index. -/
def Window.vwriters (t : Strand) (w : Window) (r : Nat) : List Nat :=
  w.blk.views.filterMap fun kv => if (kv.2.vdests (t.fw kv.2)).contains r then some kv.1 else none
def Window.mwriters (w : Window) (r : Nat) : List Nat := w.blk.views.filterMap fun kv => if kv.2.mdests.contains r then some kv.1 else none
def Window.swriters (t : Strand) (w : Window) (r : Nat) : List Nat :=
  w.blk.views.filterMap fun kv => if (kv.2.sdests (t.fw kv.2)).contains r then some kv.1 else none

/-- The entry of a block's renamed registers for one writer of a register (R138). -/
def renKey (r writer : Nat) : Nat := 128 * r + writer

/-- The value of a renamed register to a reader of index `idx` (R138): that of its block's nearest writer of lower index; the block-entry value
where that was nulled, or where there is none. -/
def readRen (m : NMap Renamed) (old : Nat) (r idx : Nat) : Nat :=
  match (m.filter fun kv => renKey r 0 ≤ kv.1 && kv.1 < renKey r idx && (kv.2.ready || kv.2.nulled)).getLast? with
  | some x => if x.2.nulled then old else x.2.bits
  | none => old

/-- The value that a renamed register leaves at commit (R73): that of the writer of highest index that was not nulled (log 77). -/
def keepRen (m : NMap Renamed) (old : Nat) (r : Nat) : Nat :=
  match (m.filter fun kv => renKey r 0 ≤ kv.1 && kv.1 < renKey (r + 1) 0 && kv.2.ready && !kv.2.nulled).getLast? with
  | some x => x.2.bits
  | none => old

/-- A vector register, a mask (0 is all ones; `full` is its bit count) and a scale register as an instruction reads them. -/
def Window.readV (t : Strand) (w : Window) (r idx : Nat) : Nat := readRen w.v (t.v.getD r 0) r idx
def Window.readM (t : Strand) (w : Window) (r idx : Nat) : Nat :=
  if r = 0 then 2 ^ (64 * vlenb t.grant) - 1 else readRen w.m (t.m.getD r 0) r idx
def Window.readS (t : Strand) (w : Window) (r idx : Nat) : Nat := readRen w.scl (t.scl.getD r 0) r idx

/-- Whether a source has its value for a reader (R138): each writer of lower index has delivered or been nulled, or, when
`chained`, is in the lane pipe ahead of the reader and is no load. -/
def srcReady (m : NMap Renamed) (writers : List Nat) (inPipe : Nat → Bool) (r idx : Nat) : Bool :=
  writers.all fun j => idx ≤ j || inPipe j || (match m.get? (renKey r j) with | some x => x.ready || x.nulled | none => false)

/-- Whether an instruction of a strand is in the lane pipe of its core. -/
def Core.inPipe (c : Core) (sid idx : Nat) : Bool :=
  (c.inbox.any fun e => e.sid == sid && e.idx == idx) || c.rd.any (fun e => e.sid == sid && e.idx == idx) ||
  c.ex.any (fun e => e.sid == sid && e.idx == idx) || c.wr.any (fun e => e.sid == sid && e.idx == idx)

/-- Whether an instruction of the block can no longer do its work (R70, R139, R226): it is nulled, or its predicate came and
does not match. -/
def Window.dead (w : Window) (idx : Nat) (v : View) : Bool :=
  let o := w.op idx
  o.nulled || (v.pr != .always && (match o.t with | some h => !v.pr.matches_ h.tok | none => false))

/-- The window that a `vacc` of the block uses (R254): of the nearest accepted `vawin` of lower index, else the window open for the gang: its number, its
base and its descriptor. -/
def State.windowOf (s : State) (sid : Nat) (t : Strand) (w : Window) (idx : Nat) : Option (Nat × Dword × Dword) :=
  match (w.posts.filterMap fun kv => match kv.2 with | .vawin k b d => if kv.1 < idx then some (k, b, d) else none | _ => none).getLast? with
  | some x => some x
  | none =>
    match (s.core (coreOf sid)).accWin with
    | some x => if x.gang = t.gang ∧ !x.closed then some (x.id, x.base, x.desc) else none
    | none => none

/-- A `vawin` below a `vacc` has still to deliver (R254). -/
def Window.vawinPending (w : Window) (idx : Nat) : Bool :=
  w.blk.views.any fun kv => kv.1 < idx && (match kv.2 with | .g 0x2F 0 _ => true | _ => false) && !w.posts.has kv.1 && !w.dead kv.1 kv.2

/-- The shape that a tile instruction is checked against (R200). -/
def State.shapeFor (s : State) (sid : Nat) (w : Window) (idx tile : Nat) : Option Shape :=
  match (w.posts.filterMap fun kv => match kv.2 with | .tile o => if o.op = 0 ∧ o.tile = tile ∧ kv.1 < idx then some o.shape else none | _ => none).getLast? with
  | some x => some x
  | none => ((s.core (coreOf sid)).tile tile).committed

/-- The window that a `vawin` of a block gives a `vacc` of higher index, once it has been accepted (R254): nothing changes it any more. -/
def Window.ownWindow (w : Window) (idx : Nat) : Option Dword :=
  if w.vawinPending idx then none
  else (w.posts.filterMap fun kv => match kv.2 with | .vawin _ _ d => if kv.1 < idx then some d else none | _ => none).getLast?

/-- Whether an instruction of the block may draw under stochastic rounding (R130): a `vacc` that no `vawin` of its block has given its window, and
`mrowv` and `mcolv`, may still find a window, or a cell type, that another strand commits (log 112). -/
def Window.draws (t : Strand) (w : Window) (idx : Nat) (v : View) : Bool :=
  let fw := t.fw v
  fwFrnd fw == 5 &&
  match v with
  | .vm 0x2E 2 _ => (match w.ownWindow idx with | some d => drawsIn v fw .bad (winFmt d) | none => true)
  | .tile _ _ => [fp32, .int true 32, fp64].any fun c => drawsIn v fw c .bad
  | _ => drawsIn v fw .bad .bad

/-- The draws of lower-indexed instructions come first (R130): each has entered the lane pipe, has executed, or never will. Two that
wait for each other leave the block starved (log 102). -/
def State.drawsReady (s : State) (sid : Nat) (t : Strand) (w : Window) (idx : Nat) (v : View) : Bool :=
  !w.draws t idx v || w.blk.views.all fun kv =>
    idx ≤ kv.1 || !w.draws t kv.1 kv.2 || (w.op kv.1).fired || (s.core (coreOf sid)).inPipe sid kv.1 || w.dead kv.1 kv.2

/-- Whether every register an instruction reads is there for it (R138), the old bits of a mask or scale register that it writes with them. A VST form waits here
for VD, before it probes (log 138, DESIGN CHOICE). -/
def State.sourcesReady (s : State) (sid : Nat) (t : Strand) (w : Window) (idx : Nat) (v : View) : Bool :=
  let c := s.core (coreOf sid)
  let piped j := v.isVec && c.inPipe sid j && (match w.view j with | some u => u.chains | none => false)
  let fw := t.fw v
  (v.vsrcs fw).all (fun r => srcReady w.v (w.vwriters t r) piped r idx) && v.msrcs.all (fun r => srcReady w.m (w.mwriters r) piped r idx) &&
  (v.ssrcs fw).all (fun r => srcReady w.scl (w.swriters t r) piped r idx) && v.mdests.all (fun r => srcReady w.m (w.mwriters r) piped r idx) &&
  (v.sdests fw).all (fun r => srcReady w.scl (w.swriters t r) piped r idx) && s.drawsReady sid t w idx v

/-- Whether every writer of lower index of a register that an instruction reads has gone to the lane slices, or never will (R138, R279). -/
def State.sourcesSent (s : State) (sid : Nat) (t : Strand) (w : Window) (idx : Nat) (v : View) : Bool :=
  let fw := t.fw v
  let gone (j : Nat) : Bool := idx ≤ j || (w.op j).fired || (w.op j).nulled || (s.core (coreOf sid)).inPipe sid j
  (v.vsrcs fw).all (fun r => (w.vwriters t r).all gone) && v.msrcs.all (fun r => (w.mwriters r).all gone) &&
  (v.ssrcs fw).all (fun r => (w.swriters t r).all gone) && v.mdests.all (fun r => (w.mwriters r).all gone) && (v.sdests fw).all fun r => (w.swriters t r).all gone

/-- A wait beside the tokens: none; one that the block's own tokens must end (R107, R139, R226, R254), which leaves the
block quiescent; one that something else ends, which does not (R66, R75). -/
inductive Gate where
  | opened
  | inner
  | outer
  deriving DecidableEq, Repr

/-- The instructions of the block that satisfy a test, with lower index. -/
def Window.below (w : Window) (idx : Nat) (p : View → Bool) : List (Nat × View) := w.blk.views.filter fun kv => kv.1 < idx && p kv.2

/-- The block's vlset that may still deliver (R139). In the step in which it fires, a `vlget` may fire and a vector instruction be dispatched (log 135, DESIGN
CHOICE). -/
def Window.vlsetPending (w : Window) : Bool :=
  w.vl.isNone && w.blk.views.any fun kv => (match kv.2 with | .g 0x2A 0 _ => true | _ => false) && !w.dead kv.1 kv.2

/-- Whether every posted tile form and every `vacc` update of the strand's committed blocks has performed (R205, R216). -/
def Strand.tilesDone (t : Strand) : Bool := t.mq.isEmpty && t.items.all fun i => match i.kind with | .tile _ _ _ _ _ => false | _ => true
def Strand.vaccDone (t : Strand) : Bool := t.items.all fun i => match i.kind with | .vacc _ => false | _ => true

/-- Whether the tokens of an instruction allow it to fire by quantum `by_` (R69): every declared data slot holds a token,
and the predicate, if it has one, matches. -/
def arrived (h : Option Held) (by_ : Nat) : Bool := match h with | some x => x.at_ ≤ by_ | none => false
def OpState.tokensBy (o : OpState) (v : View) (by_ : Nat) : Bool :=
  let sl := v.slots
  (!sl.l || arrived o.l by_) && (!sl.r || arrived o.r by_) && (!sl.t || arrived o.t by_) &&
  (v.pr == .always || (match o.t with | some h => decide (h.at_ ≤ by_) && v.pr.matches_ h.tok | none => false))

/-- The value of a slot that holds one. -/
def slotVal (h : Option Held) : Dword := match h with | some ⟨.val x, _, _⟩ => x | _ => 0
def slotNull (h : Option Held) : Bool := match h with | some ⟨.null, _, _⟩ => true | _ => false

/-- Whether a declared data slot holds a null (R70). -/
def OpState.anyNull (o : OpState) (v : View) : Bool :=
  let sl := v.slots
  (sl.l && slotNull o.l) || (sl.r && slotNull o.r) || (sl.t && slotNull o.t)

/-- The format register of an instruction waits for a stamp (R106, R124). -/
def Strand.fmtPending (t : Strand) (v : View) : Bool := match v.fmt? with | some k => t.pend.has (56 + k.toNat) | none => false

/-- The wait of a lane instruction beside its tokens: a format register of the block that is pending, since the words of all fix which
registers each writes (R124, R44); a `vlset` still to come (R139); sources and draws still to be made (R138, R130); for a `vacc` the windows
below it (R254); a grant (R142). -/
def State.laneWait (s : State) (sid : Nat) (t : Strand) (w : Window) (idx : Nat) (v : View) : Gate :=
  let wins : Bool := match v with | .vm 0x2E 2 _ => !w.vawinPending idx | _ => true
  if !t.pend.isEmpty && w.blk.views.any (fun kv => t.fmtPending kv.2) then .outer
  else if w.vlsetPending || !s.sourcesReady sid t w idx v || !wins then .inner
  else if t.grant = 0 then .outer else .opened

/-- The lower `mshape` of its tile that a tile form waits for (R200). -/
def Window.shapeWait (w : Window) (idx : Nat) (a : BitVec 3) : Bool :=
  !((w.below idx fun u => match u with | .tile 0 p => p.acc == a | _ => false).all fun kv => w.posts.has kv.1 || w.dead kv.1 kv.2)

/-- A lane instruction waits at its dispatch for what no other lane instruction gives it: `mrowv` and `mcolv` for earlier tile work and for a shape
(R200, R216), `vacc` for its window (R254). -/
def Strand.dispatchWait (t : Strand) (w : Window) (idx : Nat) (v : View) : Bool :=
  match v with
  | .tile _ o => !t.tilesDone || w.shapeWait idx o.acc
  | .vm 0x2E 2 _ => w.vawinPending idx
  | _ => false

/-- A fired lane instruction of lower index that waits for data of a load, or at its dispatch: the sequencer sends the strand's instructions in ascending
index, so that what follows waits behind it (R279, R324). One that waits for a writer that has not been sent holds nothing back. -/
def State.laneBehind (s : State) (sid : Nat) (t : Strand) (w : Window) (idx : Nat) : Bool :=
  let fe := (s.core (coreOf sid)).fe
  let by_ := if fe.stepping s.now then fe.start else s.now
  (w.below idx View.isVec).any fun kv =>
    let o := w.op kv.1
    !o.fired && o.tokensBy kv.2 by_ && !o.anyNull kv.2 && !(s.core (coreOf sid)).inPipe sid kv.1 &&
    (t.dispatchWait w kv.1 kv.2 || (!s.sourcesReady sid t w kv.1 kv.2 && s.sourcesSent sid t w kv.1 kv.2 && s.drawsReady sid t w kv.1 kv.2))

/-- A change of a Sedge table entry in a block: the entry, and the definition of `scope.set`. -/
def Post.scopeChange : Post → Option (Nat × Option Sedge)
  | .scopeSet e d => some (e, some d)
  | .scopeInv e => some (e, none)
  | _ => none

/-- The changes of an entry that instructions of lower LSID have posted (R240, log 87): GEN rises by one with each. -/
def Window.changesBelow (w : Window) (lsid e : Nat) : Nat :=
  (w.posts.filter fun kv => (match kv.2.scopeChange with | some x => x.1 == e | none => false) && ((w.view kv.1).bind View.lsid?).getD 0 < lsid).length

/-- `scope.set` and `scope.inv` wait for another strand's reservation of their entry (R240), and for the changes of it with a lower LSID (log 87). -/
def State.changeGate (s : State) (sid : Nat) (t : Strand) (w : Window) (o : AOp) : Gate :=
  let same (v : View) : Bool := match v with | .amo 0x1C 4 p => p.scope == o.scope && p.lsid < o.lsid | .amo 0x1C 6 p => p.scope == o.scope && p.lsid < o.lsid | _ => false
  match s.contexts.get? t.ctx with
  | some x =>
    if x.resv.getD o.scope.toNat sid ≠ sid then .outer
    else if w.blk.views.any fun kv => same kv.2 && !w.posts.has kv.1 && !w.dead kv.1 kv.2 then .inner else .opened
  | none => .opened

/-- The wait of an instruction beside its tokens, by its form: pending registers (R106), those of the lanes (`laneWait`, `laneBehind`), a
grant (R142), a shape (R200), `mstat` (R205), `scope.*` (R240, R241), streams (R226, R229), counts (R148), earlier tile work (R216). A
posted tile form dispatches at once with its slots' tokens: what it reads is fixed later, before its commit (R202, R203). Of several loads that carry the
LSID of a `vcnt`, it takes the count of the lowest index (log 134, DESIGN CHOICE). -/
def State.gate (s : State) (sid : Nat) (t : Strand) (w : Window) (idx : Nat) (v : View) : Gate :=
  let c := s.core (coreOf sid)
  let tok (h : Option Held) : Nat := match h with | some ⟨.val x, _, _⟩ => x.toNat | _ => 0
  match v with
  | .rd o => if t.pend.has o.reg.toNat then .outer else .opened
  | .g 0x1E 0 _ => if tok (w.op idx).l = 0x19 ∧ !(t.tilesDone && t.vaccDone) then .outer else .opened
  | .g 0x2A 0 _ => if t.grant = 0 ∧ t.posted.isNone then .outer else .opened
  | .g 0x2A 1 _ => if w.vlsetPending then .inner else .opened
  | .amo 0x1C 4 o => s.changeGate sid t w o
  | .amo 0x1C 6 o => s.changeGate sid t w o
  | .amo 0x1C 7 o =>
    match s.contexts.get? t.ctx with
    | some x => if x.unacked.any (fun a => a.2 == o.scope.toNat) then .outer else .opened
    | none => .opened
  | .cp 1 o =>
    let cfgs := w.below idx fun u => match u with | .cp 0 p => p.stream == o.stream | _ => false
    if cfgs.all fun kv => w.posts.has kv.1 || w.dead kv.1 kv.2 then .opened else .inner
  | .cp 4 o => if (c.stream o.stream.toNat).state = 2 then .outer else .opened
  | .vx 1 o =>
    let loads := w.blk.views.filter fun kv => match kv.2 with | .vm 0x2C 4 p => p.lsid == o.vs1 | .vm 0x2C 7 p => p.lsid == o.vs1 | _ => false
    if loads.any fun kv => w.counts.has kv.1 || (w.op kv.1).nulled then .opened else .inner
  | .tile 0 _ => .opened
  | .tile 1 o => if w.shapeWait idx o.acc then .inner else .opened
  | .tile pm o =>
    if (pm == 7 || pm == 9) && !t.tilesDone then .outer
    else if w.shapeWait idx o.acc then .inner
    else if pm == 7 || pm == 9 then
      (match s.laneWait sid t w idx v with | .opened => if s.laneBehind sid t w idx then .inner else .opened | g => g)
    else if t.fmtPending v then .outer else .opened
  | _ =>
    if v.isVec then (match s.laneWait sid t w idx v with | .opened => if s.laneBehind sid t w idx then .inner else .opened | g => g)
    else .opened

/-- What a meaning has at hand when its instruction fires. -/
structure Ctx where
  sid : Nat
  idx : Nat
  t : Strand
  w : Window
  l : Dword
  r : Dword
  x : Dword
  null : Bool
  at_ : Nat

/-- A block that still runs for an instruction of the step that ends at `at_`: no fault of an earlier step is recorded. -/
def Window.live (w : Window) (at_ : Nat) : Bool := match w.fault with | none => true | some f => at_ ≤ f.key

/-- What a meaning has at hand, from the strand, its block and its operand slots. -/
def mkCtx (sid idx : Nat) (t : Strand) (w : Window) (v : View) (at_ : Nat) : Ctx :=
  { sid := sid, idx := idx, t := t, w := w, l := slotVal (w.op idx).l, r := slotVal (w.op idx).r, x := slotVal (w.op idx).t,
    null := (w.op idx).anyNull v, at_ := at_ }

/-- No wait beside its tokens holds an instruction: a nulled one waits at most for the format register that names its registers (R70,
R124), any other as `gate` gives. -/
def State.allows (s : State) (sid : Nat) (t : Strand) (w : Window) (idx : Nat) (v : View) : Bool :=
  if (w.op idx).anyNull v then !(v.nullReads && t.fmtPending v) else s.gate sid t w idx v == .opened

/-- The instruction at the cursor can fire in the front-end step in progress (R69, R71): its strand runs, it has not fired,
its tokens have come by the start of the step, and no other wait holds it. -/
def State.ready? (s : State) (v : View) : Option Ctx :=
  match s.strand? s.cursor.sid with
  | none => none
  | some t =>
    match t.win with
    | none => none
    | some w =>
      let fe := (s.core (coreOf s.cursor.sid)).fe
      if t.runs ∧ fe.stepping s.now ∧ !(w.op s.cursor.idx).fired ∧ w.live fe.stop ∧ (w.op s.cursor.idx).tokensBy v fe.start ∧
         s.allows s.cursor.sid t w s.cursor.idx v then
        some (mkCtx s.cursor.sid s.cursor.idx t w v fe.stop)
      else none

/-- A nulled writer keeps the block-entry contents in place and counts as written (R70). -/
def nullRen (m : NMap Renamed) (idx : Nat) (rs : List Nat) : NMap Renamed :=
  rs.foldl (fun m r => m.put (renKey r idx) { bits := 0, writer := idx, ready := true, reported := true, nulled := true }) m

/-- A firing instruction with a null on a data slot (R70): null to each target, its LSID resolved, its registers counted as
written; an exit takes no exit. -/
def State.nullInstr (s : State) (c : Ctx) (v : View) : State :=
  let fw := c.t.fw v
  let lsid (w : Window) : Window := match v.lsid? with | some l => w.resolve l c.idx c.at_ | none => w
  s.updWin c.sid fun w =>
    let w := w.fire c.idx true
    let w := { w with v := nullRen w.v c.idx (v.vdests fw), m := nullRen w.m c.idx v.mdests, scl := nullRen w.scl c.idx (v.sdests fw) }
    if v.isExit then w else (lsid w).deliverAll c.idx (s.tokAt (coreOf c.sid) .null) v.targets

/-- The meaning of a front-end instruction: it waits until it is ready; a null operand nulls it; else it fires and has its
effect. -/
def State.run (s : State) (v : View) (body : State → Ctx → State) : Out :=
  match s.ready? v with
  | none => .next s
  | some c => if c.null then .next (s.nullInstr c v) else .next (body (s.updWin c.sid (·.fire c.idx false)) c)

/-- The meaning of a front-end instruction that has one more wait, on the state it finds when it fires. -/
def State.runWhen (s : State) (v : View) (cond : State → Ctx → Bool) (body : State → Ctx → State) : Out :=
  match s.ready? v with
  | none => .next s
  | some c =>
    if c.null then .next (s.nullInstr c v)
    else if cond s c then .next (body (s.updWin c.sid (·.fire c.idx false)) c) else .next s

/-- Deliver a value to every target of an instruction, at the end of its step (R28, R71). -/
def State.give (s : State) (c : Ctx) (v : View) (x : Tok) : State :=
  s.updWin c.sid (·.deliverAll c.idx (s.tokAt (coreOf c.sid) x) v.targets)

/-- The meaning of an instruction that computes one value from its operands. -/
def State.compute (s : State) (v : View) (f : Dword → Dword → Dword → Dword) : Out :=
  s.run v fun s c => s.give c v (.val (f c.l c.r c.x))

/-- A lane instruction with a null operand is nulled in the front end (R70). -/
def State.nullOnly (s : State) (v : View) : State :=
  match s.ready? v with
  | some c => if c.null then s.nullInstr c v else s
  | none => s

/-- The meaning of an instruction that the lane slices run (R279): its null is taken in the front end (R70); else it acts
once it stands in the execute stage, at the start of its first execute step, which ends at `at_`. -/
def State.runVec (s : State) (v : View) (body : State → Ctx → State) : Out :=
  match s.strand? s.cursor.sid with
  | none => .next s
  | some t =>
    match t.win with
    | none => .next s
    | some w =>
      let k := s.core (coreOf s.cursor.sid)
      match k.ex with
      | some e =>
        if e.sid = s.cursor.sid ∧ e.idx = s.cursor.idx ∧ e.ran = false then
          let s := s.updCore (coreOf s.cursor.sid) fun k => { k with ex := some { e with ran := true } }
          .next (body (s.updWin s.cursor.sid (·.fire s.cursor.idx false)) (mkCtx s.cursor.sid s.cursor.idx t w v (s.now + max (s.floorOf (coreOf s.cursor.sid)) e.cls)))
        else .next (s.nullOnly v)
      | none => .next (s.nullOnly v)

end Sys2Proof.Machine
end

