-- ==== Sys2Proof/Machine/Flags.lean ====
section
/-! DEFINITION. The events of R172 that instructions raise: the results and events of the scalar float operations
(R97 to R100), and the merge of a block's events at its commit (R101, R174). -/

namespace Sys2Proof.Machine

/-- A scalar float format: FP64 or FP32 (R97). -/
def fpE (d : Bool) : Nat := if d then 11 else 8
def fpM (d : Bool) : Nat := if d then 52 else 23

/-- The value of a scalar float operand: all of it, or its low 32 bits. -/
def fpVal (d : Bool) (x : Dword) : XV := fltValue (fpE d) (fpM d) .ieee (if d then x.toNat else x.toNat % 2 ^ 32)

/-- A scalar float result: rounded to nearest, ties to even, zero-extended; with the events of the rounding. -/
def fpPut (d : Bool) (x : XV) : Dword × Nat :=
  let r := roundTo (fpE d) (fpM d) .ieee 0 false 0 x
  (BitVec.ofNat 64 r.1, r.2)

/-- An arithmetic result: its rounding, its own events and `inv` for signalling operands. -/
def fpRes (d : Bool) (xs : List XV) (ev : Nat) (x : XV) : Dword × Nat :=
  let r := fpPut d x
  (r.1, r.2 ||| ev ||| sigInv xs)

/-- The scalar float operations of R98, each from its operands as they stand in the slots. -/
def fpAdd (d : Bool) (l r : Dword) : Dword × Nat :=
  let a := fpVal d l
  let b := fpVal d r
  fpRes d [a, b] (if a.addInvalid b then fINV else 0) (a.add false b)
def fpSub (d : Bool) (l r : Dword) : Dword × Nat :=
  let a := fpVal d l
  let b := fpVal d r
  fpRes d [a, b] (if a.addInvalid b.flip then fINV else 0) (a.add false b.flip)
def fpMul (d : Bool) (l r : Dword) : Dword × Nat :=
  let a := fpVal d l
  let b := fpVal d r
  fpRes d [a, b] (if a.mulInvalid b then fINV else 0) (a.mul b)
def fpDiv (d : Bool) (l r : Dword) : Dword × Nat :=
  let a := fpVal d l
  let b := fpVal d r
  fpRes d [a, b] (a.div b).2 (a.div b).1
def fpSqrt (d : Bool) (l : Dword) : Dword × Nat :=
  let a := fpVal d l
  fpRes d [a] a.sqrt.2 a.sqrt.1
def fpRsqrt (d : Bool) (l : Dword) : Dword × Nat :=
  let a := fpVal d l
  fpRes d [a] a.rsqrt.2 a.rsqrt.1
def fpFma (d : Bool) (l r t : Dword) : Dword × Nat :=
  let a := fpVal d l
  let b := fpVal d r
  let c := fpVal d t
  let p := a.mul b
  fpRes d [a, b, c] (if a.mulInvalid b || p.addInvalid c then fINV else 0) (p.add false c)
def fpMin (d : Bool) (l r : Dword) : Dword × Nat :=
  let a := fpVal d l
  let b := fpVal d r
  fpRes d [a, b] 0 (a.minNum b)
def fpMax (d : Bool) (l r : Dword) : Dword × Nat :=
  let a := fpVal d l
  let b := fpVal d r
  fpRes d [a, b] 0 (a.maxNum b)

/-- `fcvtfi`: to a signed 64-bit integer (R100). -/
def fpToInt (d : Bool) (l : Dword) : Dword × Nat :=
  let r := fltToInt true 64 0 0 (fpVal d l)
  (BitVec.ofNat 64 r.1, r.2)

/-- `fcvtif`: from a signed 64-bit integer (R100). -/
def fpOfInt (d : Bool) (l : Dword) : Dword × Nat := fpPut d (XV.ofInt l.toInt)

/-- `fcvtff`: from the other float format (R100). -/
def fpCvt (d : Bool) (l : Dword) : Dword × Nat := fpRes d [fpVal (!d) l] 0 (fpVal (!d) l)

/-- A relation's result. -/
def boolWord (b : Bool) : Dword := if b then 1 else 0

/-- The float compares of R98. -/
def fpEq (d : Bool) (l r : Dword) : Dword × Nat :=
  let a := fpVal d l
  let b := fpVal d r
  (boolWord (a.eqv b), sigInv [a, b])
def fpLt (d : Bool) (l r : Dword) : Dword × Nat :=
  let a := fpVal d l
  let b := fpVal d r
  (boolWord (!a.isNan && !b.isNan && a.lt b), if a.isNan || b.isNan then fINV else 0)
def fpLe (d : Bool) (l r : Dword) : Dword × Nat :=
  let a := fpVal d l
  let b := fpVal d r
  (boolWord (!a.isNan && !b.isNan && !b.lt a), if a.isNan || b.isNan then fINV else 0)

/-- `fclass` (R99). -/
def fpClass (d : Bool) (l : Dword) : Dword :=
  BitVec.ofNat 64 (classBit (fpVal d l) (isSubnormal (.flt (fpE d) (fpM d) .ieee) (if d then l.toNat else l.toNat % 2 ^ 32)))

/-- The event number of an entry of `Window.events`, and its instruction (R173): the key is 8·index + event. -/
def eventOf (k : Nat) : Nat := k % 8
def eventIdx (k : Nat) : Nat := k / 8

/-- The instruction and the element that an event's register takes at commit (R174): of the instructions of the block that
raised the event, the highest index, with the lowest element at which that one raised it. -/
def mergeEvent (evs : NMap Nat) (bit : Nat) : Option (Nat × Nat) :=
  (evs.filter fun kv => eventOf kv.1 == bit).getLast?.map fun kv => (eventIdx kv.1, kv.2)

/-- The merge of a block's events into `fstat` and the `eix` registers (R101, R174). -/
def Strand.mergeEvents (t : Strand) (evs : NMap Nat) : Strand :=
  (List.range 6).foldl (fun t b =>
    match mergeEvent evs b with
    | some p => { t with fstat := t.fstat ||| BitVec.ofNat 6 (2 ^ b), eix := t.eix.put b p }
    | none => t) t

end Sys2Proof.Machine
end

