-- ==== Sys2Proof/Machine/Translate.lean ====
section
/-! DEFINITION. Translation (R304 to R307) and the checks of an access (R108, R181, R299): the page walk, the TLBs, the
rules on the physical place of bytes, and the fault that an access takes. -/

namespace Sys2Proof.Machine

/-- A canonical address: bits [63:51] all equal (R108). -/
def canonical (va : Nat) : Bool := va / 2 ^ 51 == 0 || va / 2 ^ 51 == 2 ^ 13 - 1

/-- An address in the scratchpad window, and one beyond it in the range of R108. -/
def inScratch (va : Nat) : Bool := spBase ≤ va && va < spBase + spSize
def beyondScratch (va : Nat) : Bool := spBase + spSize ≤ va

/-- The 64 KiB page of an address (R304). -/
def pageOf (va : Nat) : Nat := va % 2 ^ 52 / 65536

/-- The size of a leaf's page (R304), the pages it covers, and a physical address under it. -/
def Leaf.size (l : Leaf) : Nat := match l.level with | 0 => 65536 | 1 => 2 ^ 21 | _ => 2 ^ 30
def Leaf.covers (l : Leaf) (page : Nat) : Bool := l.page ≤ page && page < l.page + l.size / 65536
/-- The number by which a pin names its leaf page: the page, its level, whether it is global. -/
def Leaf.pin (l : Leaf) : Nat := (l.page * 4 + l.level) * 2 + l.glob.toNat
def Leaf.phys (l : Leaf) (va : Nat) : Nat := l.pa + va % l.size

/-- A leaf from its entry (R305): its page must be aligned to its size. -/
def leafOf (e level page : Nat) : Option Leaf :=
  let l : Leaf := { page := page, level := level, pa := getBits e 16 31 * 65536, w := e.testBit 1, sup := e.testBit 2, x := e.testBit 3, glob := e.testBit 4 }
  let l := { l with page := page - page % (l.size / 65536) }
  if getBits e 8 8 ≠ 0 ∨ l.pa % l.size ≠ 0 then none else some l

/-- Whether a line has an uncorrectable error (R349). -/
def State.poisoned (s : State) (pa : Nat) : Bool := placeOf pa == .hbm && (s.die (homeDie pa)).poison.contains (lineOf pa)

/-- A count that saturates at all ones. -/
def satInc {n : Nat} (x : BitVec n) : BitVec n := if x = BitVec.allOnes n then x else x + 1

/-- An uncorrectable error is met (R349): UECNT counts it and NOTIF.HBMUE is set. -/
def State.meetError (s : State) (pa : Nat) : State := (s.updDie (homeDie pa) fun d => { d with uecnt := satInc d.uecnt }).notify 5

/-- The walk (R304, R305), from the table at `tbl` of a level down; `bad` tells the bytes that an uncorrectable error has reached (R349). -/
def walkFrom (m : List Host.Cell) (bad : Nat → Bool) (page : Nat) : Nat → Nat → XRes
  | level, tbl =>
    match level with
    | 0 =>
      let e := Memory.readLe m (tbl + 8 * (page % 32)) 8
      if bad (tbl + 8 * (page % 32)) then .poison (tbl + 8 * (page % 32))
      else if e % 2 = 0 then .fail 0x10
      else if getBits e 47 17 ≠ 0 ∨ getBits e 6 2 ≠ 0 then .fail 0x20
      else match leafOf e 0 page with | some l => .ok l | none => .fail 0x20
    | k + 1 =>
      let idx := page / 2 ^ (5 + 9 * k) % (if k = 2 then 8192 else 512)
      let e := Memory.readLe m (tbl + 8 * idx) 8
      let next := getBits e 8 39 * 256
      if bad (tbl + 8 * idx) then .poison (tbl + 8 * idx)
      else if e % 2 = 0 then .fail (0x10 + k + 1)
      else if getBits e 47 17 ≠ 0 ∨ getBits e 6 2 ≠ 0 then .fail (0x20 + k + 1)
      else if k < 2 ∧ e.testBit 5 then (match leafOf e (k + 1) page with | some l => .ok l | none => .fail (0x20 + k + 1))
      else if getBits e 1 4 ≠ 0 ∨ e.testBit 5 ∨ (0 < k ∧ next % 4096 ≠ 0) then .fail (0x20 + k + 1)
      else walkFrom m bad page k next

/-- The walk of a page from a root (R304). -/
def State.walk (s : State) (root page : Nat) : XRes := walkFrom s.mem s.poisoned page 3 root

/-- The entries that a walk reads. -/
def walkPath (m : List Host.Cell) (page : Nat) : Nat → Nat → List Nat
  | level, tbl =>
    match level with
    | 0 => [tbl + 8 * (page % 32)]
    | k + 1 =>
      let idx := page / 2 ^ (5 + 9 * k) % (if k = 2 then 8192 else 512)
      let e := Memory.readLe m (tbl + 8 * idx) 8
      (tbl + 8 * idx) :: (if e % 2 = 0 ∨ (k < 2 ∧ e.testBit 5) then [] else walkPath m page k (getBits e 8 39 * 256))

/-- A walk that meets an uncorrectable error counts it (R349). -/
def State.walked (s : State) (r : XRes) : State := match r with | .poison pa => s.meetError pa | _ => s

/-- Whether a TLB entry matches (R307). -/
def TlbEntry.hit (e : TlbEntry) (asid page : Nat) : Bool := (e.leaf.glob || e.asid == asid) && e.leaf.covers page

/-- The first entry of a TLB that matches. -/
def tlbFind (l : List TlbEntry) (asid page : Nat) : Option Leaf := (l.find? (·.hit asid page)).map (·.leaf)

/-- The L2 TLB of a page (R307): VA[18:16]. -/
def tlbDie (page : Nat) : Nat := page % 8

/-- A lookup in the L1 TLB of a core and then in the L2 TLB (R307). -/
def State.lookup (s : State) (core asid page : Nat) : Option Leaf :=
  match tlbFind (s.core core).tlb asid page with
  | some l => some l
  | none => tlbFind (s.die (tlbDie page)).tlb asid page

/-- A leaf put into a TLB of `cap` entries, the oldest leaving. -/
def tlbPut (l : List TlbEntry) (cap asid : Nat) (leaf : Leaf) : List TlbEntry :=
  if l.any fun e => e.hit asid leaf.page && e.leaf == leaf then l else ({ asid := asid, leaf := leaf } :: l).take cap

/-- A leaf found for a core fills its L1 TLB and the L2 TLB of the page's die (R307). -/
def State.fillTlb (s : State) (core asid page : Nat) (leaf : Leaf) : State :=
  (s.updCore core fun c => { c with tlb := tlbPut c.tlb 256 asid leaf }).updDie (tlbDie page) fun d =>
    { d with tlb := tlbPut d.tlb 16384 asid leaf }

/-- No link on the way of a core's translation of a page retrains (R307, R353): it crosses none where the L1 TLB has it, else that of the die whose L2 TLB
it asks, and those of the entries that a walk made in the same step reads. -/
def State.tlbOpen (s : State) (core asid page : Nat) : Bool :=
  (tlbFind (s.core core).tlb asid page).isSome || !s.linkWait (· == tlbDie page)
def State.xlOpen (s : State) (core asid root page : Nat) : Bool :=
  s.tlbOpen core asid page && ((s.lookup core asid page).isSome || s.linkOpen (walkPath s.mem page 3 root))

/-- A translation made in one step: through the TLBs, else by a walk that fills them. -/
def State.xlate (s : State) (core asid root page : Nat) : XRes × State :=
  match s.lookup core asid page with
  | some l => (.ok l, s)
  | none =>
    match s.walk root page with
    | .ok l => (.ok l, s.fillTlb core asid page l)
    | r => (r, s.walked r)

/-- The check of a leaf (R299): SUP, then W for a write, or X for a fetch. -/
def leafFault (l : Leaf) (acc : Nat) (sup : Bool) : Option Nat :=
  if l.sup ∧ !sup then some 0x02
  else if (acc = 1 ∨ acc = 3) ∧ !l.w then some 0x01
  else if acc = 2 ∧ !l.x then some 0x03
  else none

/-- The rules on the physical place of a byte (R108, R181, R228, R246, R250, R305). `place` is 0 for a scalar access, 1 for a
vector or tile access or the save engine, 2 for `vgl` and `vsc`, 3 for a fetch, 4 for a stream whose scope has the fabric
flag, 16 + MEET for an atomic that has no host form, and 32 + MEET for one that has. -/
def placeFault (place : Nat) (sup atomicEn reduced : Bool) (pa : Nat) : Bool :=
  match placeOf pa with
  | .none => true
  | .scratch => false
  | .hbm => reduced && 2 ^ 30 ≤ pa
  | .device => !(place == 0 && sup)
  | .host => place == 2 || (16 ≤ place && place < 32) || (32 ≤ place && !(place == 34 && atomicEn))
  | .fabric => !(place == 4 || place == 19 || place == 35)

/-- The check that a byte fails: its rank among the rows of R108, its kind, its sub-code, its address, and the physical address of an
uncorrectable error of its walk (R298, R349). -/
structure Bad where
  rank : Nat
  kind : Nat
  sub : Nat
  va : Nat
  pa : Nat := 0
  deriving DecidableEq, Repr, Inhabited

/-- The check of one byte of an access whose pages are translated. -/
def byteBad (s : State) (place acc : Nat) (sup : Bool) (xl : NMap XRes) (va b : Nat) : Option Bad :=
  if !canonical b then some ⟨1, kTrans, 0x01, va, 0⟩
  else if inScratch b then none
  else if beyondScratch b then some ⟨6, kTrans, 0x01, va, 0⟩
  else match xl.get? (pageOf b) with
    | none => none
    | some (.fail e) => some ⟨2, kTrans, e, va, 0⟩
    | some (.poison q) => some ⟨2, kPoison, 0, va, q⟩
    | some (.ok l) =>
      match leafFault l acc sup with
      | some e => some ⟨3, kPerm, e, va, 0⟩
      | none => if placeFault place sup s.out.atomicEn s.board.reduced (l.phys b) then some ⟨4, kPerm, 0x04, va, 0⟩ else none

/-- The bytes of a part at which a page or the scratchpad window may begin: its first and its last. -/
def Part.ends (p : Part) : List Nat := [p.va % 2 ^ 64, (p.va + p.size - 1) % 2 ^ 64]

/-- The pages of an access that need a translation. -/
def partPages (ps : List Part) : List Nat :=
  ((ps.flatMap Part.ends).filter fun b => canonical b && b < spBase).map pageOf |>.eraseDups

/-- The check that a part fails: an element partly inside the scratchpad window and partly outside fails translation (R183). -/
def partBad (s : State) (place acc : Nat) (sup : Bool) (xl : NMap XRes) (p : Part) : Option Bad :=
  if p.size = 0 then none
  else if (p.ends.any inScratch) ∧ !(p.ends.all inScratch) then some ⟨1, kTrans, 0x01, p.va, 0⟩
  else p.ends.findSome? fun b => byteBad s place acc sup xl p.va b

/-- Of the checks that fail, the one reported (R76): the earliest row, then the earliest element. -/
def worst : List Bad → Option Bad
  | [] => none
  | b :: bs => match worst bs with | none => some b | some c => if c.rank < b.rank then some c else some b

/-- The physical byte of a virtual one: its core's scratchpad, or under the leaf of its page. -/
def physOf (core : Nat) (xl : NMap XRes) (va : Nat) : Option Nat :=
  if inScratch va then some (spPhys core (va - spBase))
  else match xl.get? (pageOf va) with
    | some (.ok l) => some (l.phys va)
    | _ => none

/-- The leaf page that a virtual byte pins (R182); none in the scratchpad. -/
def pinOf (xl : NMap XRes) (va : Nat) : Option Nat :=
  if inScratch va then none
  else match xl.get? (pageOf va) with | some (.ok l) => some l.pin | _ => none

/-- Translations made in one step of every page of some parts, in order. -/
def State.xlateAll (s : State) (core asid root : Nat) : List Nat → NMap XRes → NMap XRes × State
  | [], xl => (xl, s)
  | p :: ps, xl => let r := s.xlate core asid root p; r.2.xlateAll core asid root ps (xl.put p r.1)

/-- The root of a strand's translation (R306). -/
def State.rootOf (s : State) (ctx : Nat) : Nat := match s.contexts.get? ctx with | some c => c.ptroot.toNat | none => 0

/-- A probe made in one step, as `scope.set`, `cps.cfg`, `spawn` and `ctx.load` make it: the fault it meets, the translations,
and the state with the TLBs filled. -/
def State.probeNow (s : State) (core : Nat) (asid : BitVec 16) (ctx place acc : Nat) (sup : Bool) (ps : List Part) : Option Bad × NMap XRes × State :=
  let r := s.xlateAll core asid.toNat (s.rootOf ctx) (partPages ps) []
  (worst (ps.filterMap fun p => partBad r.2 place acc sup r.1 p), r.1, r.2)

/-- No link retrains on the way of the translations of some parts that a strand's core makes in one step (R307, R353). -/
def State.partsOpen (s : State) (core : Nat) (t : Strand) (ps : List Part) : Bool := (partPages ps).all (s.xlOpen core t.asid.toNat (s.rootOf t.ctx))

/-- A walk in progress for a page joins the core; else a new walk starts (R307). -/
def State.startWalk (s : State) (core : Nat) (asid : BitVec 16) (root : Dword) (page : Nat) : State :=
  match s.walks.find? fun kv => kv.2.asid == asid && kv.2.root == root && kv.2.page == page with
  | some (k, w) => if w.cores.contains core then s else { s with walks := s.walks.put k { w with cores := w.cores ++ [core] } }
  | none =>
    if 64 ≤ (s.walks.filter fun kv => tlbDie kv.2.page == tlbDie page).length then s
    else { s with walks := s.walks.put s.seq { asid := asid, root := root, page := page, cores := [core] }, seq := s.seq + 1 }

/-- The result of a walk reaches the accesses that wait for it in a running block. -/
def Window.walked (w : Window) (page : Nat) (r : XRes) : Window :=
  { w with accs := w.accs.mapVals fun _ a => if a.phase = .probing ∧ !a.xl.has page ∧ (partPages a.parts).contains page then { a with xl := a.xl.put page r } else a }

/-- TLB_WALK_COMPLETE (R307): the walk reads the tables at their homes; a valid leaf fills the TLBs of the cores that wait, a
failed walk leaves nothing cached, and each access that waits receives the result. It waits for a link on its way that retrains (R353). -/
def tlbWalkComplete (k : Nat) (s : State) : Option State :=
  ((s.walks.get? k).filter fun w => !s.linkWait (· == tlbDie w.page) && s.linkOpen (walkPath s.mem w.page 3 w.root.toNat)).map fun w =>
    let r := s.walk w.root.toNat w.page
    let s := { s.walked r with walks := s.walks.erase k }
    let s := match r with | .ok l => w.cores.foldl (fun (s : State) c => s.fillTlb c w.asid.toNat w.page l) s | _ => s
    { s with strands := s.strands.mapVals fun sid t =>
        if w.cores.contains (coreOf sid) ∧ t.asid = w.asid then t.updWin (·.walked w.page r) else t }

/-- An event happens when it can; else nothing changes. -/
def State.act (s : State) (r : Option State) : Out := .next (r.getD s)

/-- TLB_WALK_COMPLETE. -/
def execTlbWalkComplete (k : Nat) (s : State) : Out := s.act (tlbWalkComplete k s)

end Sys2Proof.Machine
end

