-- ==== Sys2Proof/Machine/Lanes.lean ====
section
/-! DEFINITION. Vector registers as the lanes see them (R134 to R138): groups as bit strings, elements, active elements,
masked-off and tail policies, the lane of an element, and the writing of a renamed register. -/

namespace Sys2Proof.Machine

/-- A group read as one bit string (R135): `vb` bytes for each register, the first the lowest. -/
def groupBits (vb : Nat) : List Nat → Nat
  | [] => 0
  | x :: xs => x % 2 ^ (8 * vb) ||| groupBits vb xs <<< (8 * vb)

/-- The group of registers from `r`, as instruction `idx` reads it. -/
def Window.readGroup (t : Strand) (w : Window) (r g vb idx : Nat) : Nat := groupBits vb ((groupFrom r g).map fun k => w.readV t k idx)

/-- Element j of width w of a bit string. -/
def elem (x w j : Nat) : Nat := getBits x (j * w) w

/-- A bit string of n elements of width w. -/
def layElems (w : Nat) : Nat → (Nat → Nat) → Nat
  | 0, _ => 0
  | n + 1, f => layElems w n f ||| (f n % 2 ^ w) <<< (n * w)

/-- All ones. -/
def ones (n : Nat) : Nat := 2 ^ n - 1

/-- A destination of `total` bits (R137): n elements of width w, then the tail, agnostic or undisturbed. -/
def destBits (old total n w : Nat) (tailp : Bool) (f : Nat → Nat) : Nat :=
  (layElems w n f ||| ((if tailp then ones total else old) >>> (n * w)) <<< (n * w)) % 2 ^ total

/-- A masked-off element (R137). -/
def maskOff (maskp : Bool) (old w j : Nat) : Nat := if maskp then ones w else elem old w j

/-- The lane of the element at bit `pos` of a group (R134). -/
def laneAt (vb pos : Nat) : Nat :=
  let b := pos / 8 % (if vb = 0 then 1 else vb)
  32 * (b / 256 % 8) + b / 8 % 32

/-- The lane of element j of an instruction whose widest width is wm (R134), and its lane group. -/
def laneOf (vb wm j : Nat) : Nat := laneAt vb (j * wm)

/-- The largest number of elements j < n that one lane holds (R176). -/
def lanePeak (vb wm n : Nat) : Nat :=
  let counts : NMap Nat := (List.range n).foldl (fun m j => NMap.alter m (laneOf vb wm j) 0 (· + 1)) []
  counts.foldl (fun a kv => max a kv.2) 0

/-- The vector length of a block (R139). -/
def Window.vlen (t : Strand) (w : Window) : Nat := w.vl.getD t.vl.toNat

/-- VLMAX of an instruction (R135), and its n (R137). -/
def vlmaxOf (vb g wm : Nat) : Nat := if wm = 0 then 0 else vb * 8 * g / wm
def Window.count (t : Strand) (w : Window) (vb g wm : Nat) : Nat := min (w.vlen t) (vlmaxOf vb g wm)

/-- A register written by an instruction of a block (R138): its value has arrived, beside those of other writers of it. Its write-completion report (R279) may
have come before. -/
def putRen (m : NMap Renamed) (idx r bits : Nat) : NMap Renamed :=
  let rep : Bool := match m.get? (renKey r idx) with | some x => x.reported | none => false
  m.put (renKey r idx) { bits := bits, writer := idx, ready := true, reported := rep, nulled := false }

/-- The report of an instruction's write step has been accepted (R279). -/
def reportRen (m : NMap Renamed) (idx : Nat) (rs : List Nat) : NMap Renamed :=
  rs.foldl (fun m r => m.alter (renKey r idx) { bits := 0, writer := idx, ready := false, reported := true, nulled := false } fun x => { x with reported := true }) m

/-- The registers of a group written with a bit string. -/
def Window.putGroup (w : Window) (idx r g vb bits : Nat) : Window :=
  { w with v := (List.range g).foldl (fun m k => if r + k < 32 then putRen m idx (r + k) (getBits bits (8 * vb * k) (8 * vb)) else m) w.v }

/-- A mask or a scale register written. -/
def Window.putM (w : Window) (idx r bits : Nat) : Window := { w with m := putRen w.m idx r bits }
def Window.putS (w : Window) (idx r bits : Nat) : Window := { w with scl := putRen w.scl idx r bits }

/-- The stochastic state of a lane as a block sees it (R130). -/
def Window.srState (t : Strand) (w : Window) (l : Nat) : BitVec 32 := w.sr.getD l (t.lane l)

/-- The next draw of a lane, and the block with the lane advanced (R130). -/
def Window.draw (t : Strand) (w : Window) (l : Nat) : Nat × Window :=
  let x := srNext (w.srState t l)
  (srDraw x, { w with sr := w.sr.put l x })

/-- A draw where the rounding mode is stochastic; 0 otherwise. -/
def Window.drawIf (t : Strand) (w : Window) (mode l : Nat) : Nat × Window := if mode = 5 then w.draw t l else (0, w)

/-- The bytes of a write of a bit field laid over those before (R185). -/
def BByte.merge (old new : BByte) : BByte := { val := new.over old.val, mask := old.mask ||| new.mask }
def putField (m : NMap BByte) (va bit w v size : Nat) : NMap BByte :=
  (List.range size).foldl (fun m k =>
    let mk : Byte := BitVec.ofNat 8 ((ones w <<< bit) >>> (8 * k))
    let b : BByte := { val := BitVec.ofNat 8 (((v % 2 ^ w) <<< bit) >>> (8 * k)), mask := mk }
    let a := (va + k) % 2 ^ 64
    m.put a (match m.get? a with | some o => o.merge b | none => b)) m

end Sys2Proof.Machine
end

