-- ==== Sys2Proof/Machine/Regs.lean ====
section
/-! DEFINITION. What the registers of device control space read as (R302, R315, R338, R342, R344, R346, R364, R368). -/

namespace Sys2Proof.Machine

/-- A bit as a number at a place. -/
def bitAt (b : Bool) (k : Nat) : Nat := if b then 2 ^ k else 0

/-- The contexts of a core whose strand satisfies a test, as a mask. -/
def State.ctxMask (s : State) (core : Nat) (p : Strand → Bool) : Nat :=
  (List.range 8).foldl (fun x k => x + bitAt (match s.strand? (8 * core + k) with | some t => p t | none => false) k) 0

/-- A core's block (R302). -/
def State.coreDword (s : State) (core off : Nat) : Nat :=
  let k := s.core core
  match off with
  | 0x00 =>
    s.ctxMask core (·.stopped) * 2 ^ 32 + s.ctxMask core (·.run == .pend) * 2 ^ 24 + s.ctxMask core (·.run == .parked) * 2 ^ 16 +
    bitAt k.fatal.isSome 8 + min k.queue.length 32
  | 0x10 => k.resumePc.toNat
  | _ => 0

/-- A ring's registers (R302). -/
def State.ringDword (s : State) (k off : Nat) : Nat :=
  let r := s.ring k
  match off with
  | 0x00 => r.rbase.toNat
  | 0x08 => r.vec.toNat * 2 ^ 16 + bitAt r.en 8 + r.rsize.toNat
  | 0x10 => r.rhead.toNat
  | 0x18 => r.rtail.toNat
  | _ => 0

/-- A host queue's registers (R315). -/
def State.queueDword (s : State) (q off : Nat) : Nat :=
  let r := s.queue q
  match off with
  | 0x00 => r.qbase.toNat
  | 0x08 => r.vec.toNat * 2 ^ 16 + bitAt r.cie 9 + bitAt r.en 8 + r.qsize.toNat
  | 0x10 => r.qwr.toNat
  | 0x18 => r.qrd.toNat
  | 0x20 => r.badIdx.toNat * 2 ^ 32 + r.badCode.toNat * 2 ^ 8 + bitAt r.ovr 1 + bitAt r.bad 0
  | _ => 0

/-- The deepest state that a cluster's tolerance allows (R335, R338). -/
def deepOf (cltr : Nat) : Nat := if cltr < 50 then 0 else if cltr < 2000 then 1 else if cltr < 20000 then 2 else 3

/-- A cluster's registers (R338). -/
def State.clusterDword (s : State) (k off : Nat) : Nat :=
  let c := s.cluster k
  match off with
  | 0x00 => c.cltr.toNat
  | 0x08 => c.wakes.toNat * 2 ^ 32 + bitAt c.spilled 10 + bitAt c.quiesced 9 + bitAt c.predRef 8 + deepOf c.cltr.toNat * 2 ^ 4 + c.state
  | 0x10 => bitAt c.force 8 + c.target.toNat * 2 ^ 4 + c.mode.toNat * 2 + bitAt c.qreq 0
  | _ => 0

/-- The floors of R341: CAPF, and the package floor. -/
def Pkg.capFloor (p : Pkg) : Nat := max p.capf p.capf10
def Pkg.floor (p : Pkg) : Nat := max p.capFloor (max p.thmf p.limf)

/-- The emergency and the trip levels (R344). -/
def emergLevel : Nat := 105
def tripLevel : Nat := 115

/-- TTRIP (R344). -/
def Pkg.ttrip (p : Pkg) : Nat :=
  if p.slope.toInt ≤ 0 then 0xFFFF
  else min 0xFFFE (10000 * (tripLevel - p.tmax.toNat) / p.slope.toInt.toNat)

/-- AOSTAT (R346). -/
def AoStat.dword (a : AoStat) : Nat :=
  a.qtrip.toNat * 2 ^ 32 + a.nsaved.toNat * 2 ^ 16 + bitAt a.refused 3 + bitAt a.vlost 2 + bitAt a.esave 1 + bitAt a.trip 0

/-- The package registers (R342, R344, R346). -/
def State.pkgDword (s : State) (off : Nat) : Nat :=
  let p := s.pkg
  match off with
  | 0x00 => p.pltr.toNat
  | 0x08 => bitAt p.predRef 9 + bitAt (decide (500000 ≤ p.pltr.toNat)) 8 + (if p.c4 then 4 else 0)
  | 0x10 => bitAt p.capEn 16 + p.cap.toNat
  | 0x18 => p.win.toNat
  | 0x20 => p.peak.toNat * 2 ^ 16 + p.avg.toNat
  | 0x28 => p.floor * 2 ^ 8 + p.thmf * 2 ^ 4 + p.capFloor
  | 0x30 =>
    bitAt p.tsaved 5 + bitAt (decide (emergLevel ≤ p.tmax.toNat)) 4 + bitAt (decide (p.warn.toNat ≤ p.tmax.toNat)) 3 + bitAt p.limit 2 +
    bitAt p.unmet 1 + bitAt (decide (2 < p.capFloor)) 0
  | 0x38 => p.ttrip * 2 ^ 16 + p.slope.toNat * 2 ^ 8 + p.tmax.toNat
  | 0x40 => tripLevel * 2 ^ 16 + emergLevel * 2 ^ 8 + p.warn.toNat
  | 0x80 => s.ao.dword
  | _ => 0

/-- Whether an invalidation that the host started is in progress (R364). -/
def State.tlbBusy (s : State) : Bool := s.invals.any fun i => i.sid.isNone

/-- The registers of R364. -/
def State.edgeDword (s : State) (off : Nat) : Nat :=
  let b := s.board
  if off < 0x200 then
    let d := s.die (off / 0x40)
    match off % 0x40 with
    | 0x00 => bitAt d.trained 48 + d.uecnt.toNat * 2 ^ 32 + d.cecnt.toNat
    | 0x08 => bitAt d.lend 32 + d.lent.toNat
    | _ => 0
  else if off = 0x1000 then b.taddr.toNat
  else if off = 0x1008 then bitAt s.tlbBusy 63 + b.tasid.toNat * 2 ^ 16 + b.tkind.toNat
  else if off = 0x1100 then b.notif.toNat
  else if off = 0x1108 then bitAt b.msiEn 16 + b.nvec.toNat
  else if off = 0x1200 then b.failInfo.toNat * 2 ^ 8 + b.phase.toNat
  else if 0x1300 ≤ off ∧ off < 0x1380 then
    let l := s.link ((off - 0x1300) / 8)
    bitAt l.repaired 8 + l.mods.toNat
  else if 0x2000 ≤ off ∧ off < 0x2480 then
    let p := s.port ((off - 0x2000) / 0x40)
    match off % 0x40 with
    | 0x00 => p.replays.toNat * 2 ^ 32 + p.badLane.toNat * 2 ^ 20 + p.peer.toNat * 2 ^ 8 + p.state.toNat
    | 0x08 => bitAt p.en 0
    | _ => 0
  else if off = 0x3000 then b.devnum.toNat
  else if off = 0x3008 then b.fxbase.toNat
  else if off = 0x3010 then b.fxsize.toNat
  else if 0x3800 ≤ off ∧ off < 0x4000 then (b.route.getD ((off - 0x3800) / 8) 0).toNat
  else 0

/-- The blocks of device control space: offset of a dword from its start, 8-byte aligned (R302, R315, R338, R342, R364). The dwords of the
MSI-X table hold what is written there, and its pending array reads zero, since no message waits (R355, log 80). An address in no listed
register reads zero (R368). -/
def State.devDword (s : State) (off : Nat) : Nat :=
  if 0x100000 ≤ off ∧ off < 0x120000 then s.coreDword ((off - 0x100000) / 0x1000) (off % 0x1000)
  else if off = 0x200000 then s.trtbase.toNat
  else if 0x201000 ≤ off ∧ off < 0x203000 then s.ringDword ((off - 0x201000) / 0x20) (off % 0x20)
  else if 0x300000 ≤ off ∧ off < 0x301000 then s.queueDword ((off - 0x300000) / 0x40) (off % 0x40)
  else if off = 0x301000 then s.disp.rcltmo.toNat * 2 ^ 32 + s.disp.pwait.toNat
  else if 0x400000 ≤ off ∧ off < 0x401000 then s.pkgDword (off - 0x400000)
  else if 0x401000 ≤ off ∧ off < 0x401800 then s.clusterDword ((off - 0x401000) / 0x100) (off % 0x100)
  else if 0x500000 ≤ off ∧ off < 0x600000 then s.edgeDword (off - 0x500000)
  else if 0x2000000 ≤ off ∧ off < 0x2008000 then (s.board.msixTable.getD ((off - 0x2000000) / 8) 0).toNat
  else 0

/-- One byte of device control space. -/
def State.devByte (s : State) (pa : Nat) : Byte :=
  let off := pa - devBase
  BitVec.ofNat 8 (s.devDword (off - off % 8) >>> (8 * (off % 8)))

/-- One byte at its home: a register's, or memory's. -/
def State.homeByte (s : State) (pa : Nat) : Byte := if placeOf pa = .device then s.devByte pa else s.plainByte pa

/-- What a host read returns for a byte of BAR0 or BAR2 (R355, R366, R368): all ones above 1 GiB in reduced service. -/
def State.hostRead (s : State) (pa : Nat) : Byte := if s.board.reduced && placeOf pa == .hbm && decide (2 ^ 30 ≤ pa) then 0xFF else s.homeByte pa

end Sys2Proof.Machine
end

