-- ==== Sys2Proof/Machine/Access.lean ====
section
/-! DEFINITION. Accesses of running blocks (R104, R107, R181 to R192): the probe of their pages, the pins, the resolution of
stores, the reads of loads with what forwards to them, and the waits that order them (R231, R242, R263). -/

namespace Sys2Proof.Machine

/-- The parts of an access to one operand of `size` bytes. -/
def onePart (a size : Nat) : List Part := [{ key := 0, va := a, bit := 0, w := 8 * size, size := size }]

/-- An access that has just fired. -/
def Access.new (lsid acc place : Nat) (parts : List Part) : Access :=
  { lsid := lsid, acc := acc, place := place, parts := parts, phase := .probing, xl := [], segs := [], unit := 64, got := [], ordered := false,
    out := [], data := 0, data2 := 0, fw := 0, n := 0, vlenb := 0, cut := 0, sent := 0 }

/-- Every writing instruction of a lower LSID has resolved (R107, R191): a load reads memory only then (log 76). -/
def Window.lowerResolved (w : Window) (lsid : Nat) : Bool :=
  (List.range (min lsid 32)).all fun k => !w.blk.hdr.stmask.getLsbD k || w.lsids.has k

/-- The bytes of a part. -/
def Part.bytes (p : Part) : List Nat := (List.range p.size).map fun k => (p.va + k) % 2 ^ 64

/-- The segments of an access in the order of its elements (R192). -/
def segsOf (core : Nat) (xl : NMap XRes) (unit : Nat) (ps : List Part) : List Nat :=
  ((ps.flatMap Part.ends).filterMap fun b => (physOf core xl b).map (· / unit)).eraseDups

/-- The physical bytes of a write, from its bytes by virtual address: through its parts in ascending order of elements, so that of two that
write one bit, by one address or by two, the later stands (R187). -/
def physOut (core : Nat) (xl : NMap XRes) (ps : List Part) (out : NMap BByte) : NMap BByte :=
  (ps.flatMap Part.bytes).foldl (fun m b =>
    match physOf core xl b, out.get? b with
    | some q, some x => m.put q (match m.get? q with | some o => { val := x.over o.val, mask := o.mask ||| x.mask } | none => x)
    | _, _ => m) []

/-- The segments of a write: its physical bytes by segment, each with the pages it pins, and the `route` of the access. -/
def segWrites (core : Nat) (xl : NMap XRes) (unit : Nat) (ps : List Part) (out : NMap BByte) (route : Option Nat := none) : List SegW :=
  let phys := physOut core xl ps out
  (segsOf core xl unit ps).map fun seg =>
    let here := out.filter fun kv => (physOf core xl kv.1).map (· / unit) == some seg
    { va := (here.headD (0, default)).1, bytes := phys.filter fun kv => kv.1 / unit == seg,
      pages := (here.filterMap fun kv => pinOf xl kv.1).eraseDups, held := false, route := route }

/-- The pages that a posted item still pins (R182). -/
def PItem.pins (i : PItem) : List Nat :=
  let leafs (xl : NMap XRes) : List Nat := (xl.filterMap fun kv => match kv.2 with | .ok l => some l.pin | _ => none).eraseDups
  match i.kind with
  | .store segs _ _ _ => segs.flatMap (·.pages)
  | .atomic _ _ _ _ _ _ _ _ pins => pins
  | .vamerge _ _ xl _ => leafs xl
  | .tile _ _ _ xl _ => leafs xl
  | .fence _ _ => []
  | .vacc _ => []

/-- The pages pinned by a running block. -/
def Window.pins (w : Window) : List Nat :=
  (w.stores.flatMap fun kv => kv.2.segs.flatMap (·.pages)) ++
  (w.posts.flatMap fun kv => match kv.2 with
    | .atomic _ _ _ _ _ _ _ _ _ pins => pins
    | .vamerge _ _ xl _ => xl.filterMap fun kv => match kv.2 with | .ok l => some l.pin | _ => none
    | .tile o => o.xl.filterMap fun kv => match kv.2 with | .ok l => some l.pin | _ => none
    | _ => [])

/-- The pages a strand pins (R182). -/
def Strand.pins (t : Strand) : List Nat := ((match t.win with | some w => w.pins | none => []) ++ t.items.flatMap PItem.pins).eraseDups

/-- Whether the committed work of a strand still pins something (R182). -/
def Strand.itemsPin (t : Strand) : Bool := t.items.any fun i => !i.pins.isEmpty

/-- The pages an access would pin. -/
def accessPins (xl : NMap XRes) (ps : List Part) : List Nat := ((ps.flatMap Part.ends).filterMap (pinOf xl)).eraseDups

/-- What the pin limit says of more pins (R182): they fit, they must wait, or they are a pin-limit fault. -/
inductive PinCheck where
  | fits
  | wait
  | fault
  deriving DecidableEq, Repr
def Strand.pinCheck (t : Strand) (more : List Nat) : PinCheck :=
  if (t.pins ++ more).eraseDups.length ≤ 4096 then .fits else if t.itemsPin then .wait else .fault

/-- The bytes that an `mld` or `mst` moves (R213): its rows from `base`, `stride` apart. -/
def TileOp.cb (o : TileOp) : Nat := contBytes (fmtOf (if o.op = 5 then fwSrc1 o.fw else fwDst o.fw)).width
def TileOp.rowAt (o : TileOp) (k : Nat) : Nat := (o.base + k * o.stride) % 2 ^ 64
def TileOp.touches (o : TileOp) (va : Nat) : Bool :=
  (List.range o.count).any fun k => o.rowAt k ≤ va && va < o.rowAt k + o.shape.cols * o.cb

/-- The lines of an `mld` or `mst`: each of its parts lies in one (R214); the first physical byte of each, with those of a scratchpad as of core 0; and
whether it moves a physical byte, under the translations of its probe. -/
def TileOp.parts (o : TileOp) : List Part :=
  let len := o.shape.cols * o.cb
  (List.range o.count).flatMap fun k => (List.range ((len + 63) / 64)).map fun j =>
    { key := k * 128 + j, va := (o.rowAt k + 64 * j) % 2 ^ 64, bit := 0, w := 0, size := min 64 (len - 64 * j) }
def TileOp.homes (o : TileOp) : List Nat := o.parts.filterMap fun q => physOf 0 o.xl q.va
def TileOp.moves (core : Nat) (o : TileOp) (p : Nat) : Bool :=
  o.parts.any fun q => match physOf core o.xl q.va with | some b => b ≤ p && p < b + q.size | none => false

/-- A tile move of a strand, by its posted item, moves a physical byte (R215, R263). -/
def Strand.tileHits (t : Strand) (q p : Nat) : Bool := t.mq.any fun o => o.item == q && o.moves (spCore p) p

/-- The element of a strided range that holds a byte: its number, when one does. -/
def elemAt (base stride cb n b : Nat) : Option Nat :=
  let s : Int := BitVec.toInt (BitVec.ofNat 64 stride)
  let d : Int := (b : Int) - base
  if s = 0 then (if 0 ≤ d ∧ d < cb then some (n - 1) else none)
  else
    let d' : Int := if 0 < s then d else base + cb - 1 - b
    let k : Int := d' / s.natAbs
    if 0 ≤ d' ∧ d' % s.natAbs < cb ∧ k < n then some k.toNat else none

/-- The container of a stream's elements, and its strip length as numbers of bytes (R222). -/
def StreamRec.cb (r : StreamRec) : Nat := contBytes (fmtOf r.fmt).width

/-- Whether an element of a stream has been written, and has been read (R231). -/
def Stream.isWritten (st : Stream) (i : Nat) : Bool := i < st.done_ || st.written.has i
def Stream.isRead (st : Stream) (i : Nat) : Bool := st.isWritten i || st.strips.any fun p => p.vals.has i

/-- Whether a stream's progress has passed a byte of its source or destination hull (R231). -/
def Stream.passed (st : Stream) (dst : Bool) (b : Nat) : Bool :=
  let d := st.desc
  if st.state ≠ 2 then true
  else if dst then
    if d.red = 2 then
      (match elemAt d.dstBase d.dstStride d.cb d.strip b with
       | some k => if d.dstStride = 0 then min d.strip d.n ≤ st.finals.length else st.finals.has k
       | none => false)
    else match elemAt d.dstBase d.dstStride d.cb d.n b with | some i => st.isWritten i | none => false
  else match elemAt d.srcBase d.srcStride d.cb d.n b with
    | some i =>
      if d.srcStride = 0 then d.n ≤ st.done_ + 2 * d.strip && (List.range (d.n - st.done_)).all fun j => st.isRead (st.done_ + j) else st.isRead i
    | none => false

/-- Whether the address-range interlock holds an access of a strand that follows entries below `before` (R231). -/
def lockHolds (c : Core) (t : Strand) (before : Nat) (write : Bool) (vas : List Nat) : Bool :=
  t.lock.any fun e => e.item < before && (e.write || write) && vas.any fun b =>
    e.lo ≤ b && b < e.hi && (match e.stream with | some k => (c.stream k).item == e.item && !(c.stream k).passed e.write b | none => true)

/-- Whether a fence of a snapshot waits for a write of a physical byte (R242, R266): at MEET 1 for HBM by its L2 mask, for the scratchpad and
for device control space; at every other meeting point for all. -/
def Sedge.covers (sn : Sedge) (pa : Nat) : Bool :=
  sn.meet != 1 || (match placeOf pa with | .hbm => sn.l2.getLsbD (homeDie pa) | .scratch => true | .device => true | _ => false)

/-- Whether an acquire under a snapshot forbids an older L1 line (R242). -/
def Sedge.drops (sn : Sedge) (line : Nat) : Bool := sn.meet != 0 && (2 ≤ sn.meet.toNat || sn.l2.getLsbD (homeDie (line * 64)))

/-- Fence kinds (R241): 0 acq, 1 rel, 2 ar, 3 sc. -/
def acquires (k : Nat) : Bool := k != 1
def releases (k : Nat) : Bool := k != 0

/-- The physical bytes that a posted item still has to write; for a window or a tile move, none here: the interlock and
their own rules hold them. -/
def PItem.writes (i : PItem) : List Nat :=
  match i.kind with
  | .store segs _ _ _ => segs.flatMap fun g => g.bytes.keys
  | .atomic _ size pa _ _ _ _ _ _ => (List.range size).map (pa + ·)
  | _ => []

/-- The homes of the elements that a `vamerge` has still to fold into (R255), with those of a scratchpad as of core 0. -/
def foldHomes (base desc : Nat) (pages : NMap XRes) (next : Nat) : List Nat :=
  let d : Dword := BitVec.ofNat 64 desc
  ((List.range (winCount d)).drop (next / 64)).filterMap fun i => physOf 0 pages (base + i * winCb d)

/-- Whether a posted item is a write that a fence of the snapshot waits for (R242): the copies of a `vacc` lie in the scratchpad. -/
def PItem.heldBy (sn : Sedge) (i : PItem) : Bool :=
  match i.kind with
  | .fence _ _ => false
  | .vacc _ => true
  | .vamerge base desc pages next => (foldHomes base desc pages next).any sn.covers
  | .tile write _ _ _ homes => write && homes.any sn.covers
  | _ => i.writes.any sn.covers
def PItem.isAtomic (i : PItem) : Bool := match i.kind with | .atomic _ _ _ _ _ _ _ _ _ => true | _ => false

/-- Whether a posted item reads memory: an earlier access that an acquire waits for (R242, R270). -/
def PItem.isRead (i : PItem) : Bool := match i.kind with | .atomic _ _ _ _ _ _ _ _ _ => true | .tile write _ _ _ _ => !write | _ => false

/-- Whether a posted `mld` reads a place that a fence of the snapshot covers: what it observes there counts, for a release, as written before it (R267). -/
def PItem.readHeldBy (sn : Sedge) (i : PItem) : Bool := match i.kind with | .tile false _ _ _ homes => homes.any sn.covers | _ => false

/-- Whether a fence holds a later load, and a later write, behind the posted items before it (R242): an acquire behind their reads, a release
before writes, and `fence.sc` before loads too, behind their writes; before a write that follows a release an `mld` must have read (R267, R270). -/
def fenceHoldsLoad (k : Nat) (sn : Sedge) (before : List PItem) : Bool := (acquires k && before.any PItem.isRead) || (k == 3 && before.any (PItem.heldBy sn))
def fenceHoldsWrite (k : Nat) (sn : Sedge) (before : List PItem) : Bool :=
  (acquires k && before.any PItem.isRead) || (releases k && before.any fun i => i.heldBy sn || i.readHeldBy sn)

/-- Whether no committed fence of a strand still holds the access that item `q` makes, or a stream that comes at `q` in program order (R262), a read
where `load` (R242). -/
def fencesAllow (load : Bool) : List PItem → List PItem → Nat → Bool
  | _, [], _ => true
  | before, i :: rest, q =>
    if q ≤ i.q then true
    else
      (match i.kind with
      | .fence k sn => !(if load then fenceHoldsLoad k sn before else fenceHoldsWrite k sn before)
      | _ => true) && fencesAllow load (before ++ [i]) rest q

/-- Whether the committed fences of a strand still hold a load of its running block (R242). -/
def itemsHoldLoad : List PItem → List PItem → Bool
  | _, [] => false
  | before, i :: rest =>
    (match i.kind with
     | .fence k sn => fenceHoldsLoad k sn before
     | _ => false) || itemsHoldLoad (before ++ [i]) rest

/-- The fences of the running block that stand before an LSID. -/
def Window.fencesBelow (w : Window) (lsid : Nat) : List (Nat × Nat × Sedge) :=
  w.posts.filterMap fun kv => match kv.2 with | .fence l k sn => if l < lsid then some (l, k, sn) else none | _ => none

/-- The acquire snapshots of the running block that stand before an LSID. -/
def Window.acqsBelow (w : Window) (lsid : Nat) : List (Nat × Sedge) :=
  w.posts.filterMap fun kv => match kv.2 with | .fence l k sn => if acquires k ∧ l < lsid then some (l, sn) else none | _ => none

/-- A load of the block of a lower LSID, of the forms that satisfy a test, that may still perform. -/
def Window.openLoad (w : Window) (lsid : Nat) (p : View → Bool) : Bool :=
  w.blk.views.any fun kv => p kv.2 && (match kv.2.lsid? with | some l => l < lsid | none => false) &&
    (match w.accs.get? kv.1 with
     | some a => a.phase != .done
     | none => !(w.op kv.1).fired && !w.dead kv.1 kv.2)

/-- A load that an acquire of a higher LSID waits for; one whose reads have an order or are one (R192), `vldxo` or `vldmx`. -/
def Window.loadOpen (w : Window) (lsid : Nat) : Bool := w.openLoad lsid fun v => !v.writesMem && (match v with | .tile _ _ => false | _ => true)
def Window.strictOpen (w : Window) (lsid : Nat) : Bool := w.openLoad lsid fun v => match v with | .vm 0x2C 5 _ => true | .vm 0x2C 6 _ => true | _ => false

/-- An `mld` of the block of a lower LSID that has still to be accepted. -/
def Window.mldOpen (w : Window) (lsid : Nat) : Bool := w.openLoad lsid fun v => match v with | .tile 5 _ => true | _ => false

/-- What the block posts below an LSID, as it will stand after commit: its stores, atomics, window updates and tile moves. -/
def Window.ownItems (w : Window) (lsid : Nat) : List PItem :=
  let item (k : PKind) : PItem := { q := 0, kind := k }
  (w.stores.filterMap fun kv => if kv.2.lsid < lsid && !kv.2.segs.isEmpty then some (item (.store kv.2.segs kv.2.ordered kv.2.stamp kv.2.sc)) else none) ++
  w.posts.filterMap fun kv => match kv.2 with
    | .atomic l x z pa va r t g sn pins => if l < lsid then some (item (.atomic x z pa va r t g sn pins)) else none
    | .vacc l ups _ => if l < lsid then some (item (.vacc ups)) else none
    | .tile o => if (o.op == 5 || o.op == 6) && (match (w.view kv.1).bind View.lsid? with | some l => decide (l < lsid) | none => false) then some (item (.tile (o.op == 6) 0 0 [] o.homes)) else none
    | _ => none

/-- Whether a fence of the block holds a load of it behind what the block itself has posted below the fence (R242): that performs only after commit,
so that the load never does (log 84). -/
def Window.ownHolds (w : Window) (lsid : Nat) : Bool :=
  (w.fencesBelow lsid).any fun f => fenceHoldsLoad f.2.1 f.2.2 (w.ownItems f.1) || (acquires f.2.1 && w.mldOpen f.1)

/-- A `vwait` of the block with a lower LSID that has still to arm its watches (R256). -/
def Window.waitOpen (w : Window) (lsid : Nat) : Bool :=
  w.blk.views.any fun kv => (match kv.2 with | .vm 0x2E 3 o => o.lsid.toNat < lsid | _ => false) && !w.posts.has kv.1 && !w.dead kv.1 kv.2

/-- The instructions of a block that a result of some of them can reach, by tokens (R69), or by the registers of the lanes (R138), which every later
instruction may read. -/
def Window.reach (w : Window) : Nat → List Nat → List Nat
  | 0, l => l
  | n + 1, l =>
    let next (i : Nat) : List Nat := match w.view i with
      | some v => (if (v.vdests 0).isEmpty && v.mdests.isEmpty && (v.sdests 0).isEmpty then [] else (List.range w.blk.body.length).filter (i < ·)) ++
          v.targets.filterMap fun t => match t with | .left k => some k.toNat | .right k => some k.toNat | .third k => some k.toNat | _ => none
      | none => []
    let more := ((l.flatMap next).filter (!l.contains ·)).eraseDups
    if more.isEmpty then l else w.reach n (l ++ more)
def Window.feeds (w : Window) (i j : Nat) : Bool := (w.reach 128 [i]).contains j

/-- A load of the block of a lower LSID may still read what a `cps.wait` acquires for it (R229), and the load at an LSID, which `cps.wait` does not wait
for, must read no older than that (R264). -/
def Window.streamHolds (w : Window) (lsid : Nat) : Bool :=
  w.blk.views.any fun k => (match k.2 with | .cp 4 _ => true | _ => false) && !(w.op k.1).fired && !w.dead k.1 k.2 &&
    (w.blk.views.any fun x => !x.2.writesMem && x.2.lsid? == some lsid && !w.feeds x.1 k.1) &&
    w.blk.views.any fun x => !x.2.writesMem && (match x.2.lsid? with | some l => l < lsid | none => false) && w.feeds k.1 x.1 &&
      (match w.accs.get? x.1 with | some a => a.phase != .done | none => !(w.op x.1).fired && !w.dead x.1 x.2)

/-- Whether the fences and the waits of its strand hold a load back (R229, R242, R256): committed fences, and those of the block, which wait for the
committed items and for the block's own (log 84). -/
def fencesHoldLoad (t : Strand) (w : Window) (lsid : Nat) : Bool :=
  w.waitOpen lsid || w.streamHolds lsid || itemsHoldLoad [] t.items || w.ownHolds lsid ||
  (w.fencesBelow lsid).any fun f => fenceHoldsLoad f.2.1 f.2.2 t.items || (acquires f.2.1 && w.loadOpen f.1)

/-- Whether a load waits for something of its own block that may never come (R66, R107): it is not outstanding. -/
def Window.unsent (w : Window) (a : Access) : Bool :=
  !w.lowerResolved a.lsid || w.waitOpen a.lsid || w.streamHolds a.lsid || w.ownHolds a.lsid || (w.acqsBelow a.lsid).any fun f =>
    w.blk.views.any fun kv => (match kv.2.lsid? with | some l => l < f.1 | none => false) && !kv.2.writesMem && !w.accs.has kv.1 && !(w.op kv.1).fired && !w.dead kv.1 kv.2

/-- The virtual bytes of an access that lie in one segment, with their physical numbers. -/
def Access.bytesIn (a : Access) (core seg : Nat) : List (Nat × Nat) :=
  ((a.parts.flatMap Part.bytes).filterMap fun b => match physOf core a.xl b with
    | some p => if p / a.unit = seg then some (b, p) else none
    | none => none).eraseDups

/-- Whether a committed operation of the strand that has not performed keeps a load from its bytes (R263): an atomic on
them, a tile move over them, an `mld` that has still to read them (R264), a store to the device register that holds them (R368: what it
reads as is the register's). -/
def itemsHoldBytes (t : Strand) (vas pas : List Nat) : Bool :=
  (t.mq.any fun o => o.op == 5 && vas.any o.touches) || t.items.any fun i => match i.kind with
    | .atomic _ size pa _ _ _ _ _ _ => pas.any fun p => pa ≤ p && p < pa + size
    | .tile write lo hi _ _ => (write && vas.any fun b => lo ≤ b && b < hi) || pas.any (t.tileHits i.q)
    | .store segs _ _ _ => pas.any fun p => placeOf p == .device && segs.any fun g => g.bytes.any fun kv => kv.1 / 8 == p / 8
    | _ => false

/-- A byte under the segments of one write. -/
def segsOver (segs : List SegW) (pa : Nat) (b : Byte) : Byte :=
  segs.foldl (fun b g => match g.bytes.get? pa with | some x => x.over b | none => b) b

/-- A byte as the committed stores of a strand that have not performed leave it over what memory holds (R263). -/
def overlayItems (t : Strand) (pa : Nat) (base : Byte) : Byte :=
  t.items.foldl (fun b i => match i.kind with | .store segs _ _ _ => segsOver segs pa b | _ => b) base

/-- A line that a load has kept, with some of its bytes as `f` gives them. -/
def patchLine (f : Nat → Byte) (pas : List Nat) (l x : Nat) : Nat :=
  if pas.any (lineOf · == l) then (List.range 64).foldl (fun y k =>
    let p := 64 * l + k
    y ||| (if pas.contains p then (f p).toNat else x >>> (8 * k) % 256) <<< (8 * k)) 0
  else x
def Access.patch (f : Nat → Byte) (pas : List Nat) (a : Access) : Access :=
  { a with raw := a.raw.mapVals (patchLine f pas), snap := a.snap.map fun m => pas.foldl (fun m p => Memory.write m p (f p)) m }

/-- An operation of a strand, at `q` in program order, has read or written some bytes: what later accesses of the strand have kept of other bytes of those lines
takes these as the strand sees them now (R263, R264), and what it has read ahead of them is forgotten. `home` gives a byte as its home holds it. -/
def Strand.saw (t : Strand) (q : Nat) (home : Nat → Byte) (pas : List Nat) : Strand :=
  let seen (q : Option Nat) (p : Nat) : Byte := overlayItems { t with items := t.items.filter fun i => q.all (i.q < ·) } p (home p)
  let t' := t.forget (pas.map lineOf).eraseDups
  { t' with
    win := t'.win.map fun w => { w with accs := w.accs.mapVals fun _ a => a.patch (seen none) pas },
    mq := t'.mq.map fun o => if q < o.item then { o with early := o.early.mapVals (patchLine (seen (some o.item)) pas) } else o }
def State.saw (s : State) (sid q : Nat) (pas : List Nat) : State := s.updStrand sid (·.saw q s.homeByte pas)

/-- A byte as the stores of lower LSIDs of the block leave it (R107, R191). -/
def Window.overlay (w : Window) (lsid pa : Nat) (base : Byte) : Byte :=
  let lower := NMap.ofList ((w.stores.filter fun kv => kv.2.lsid < lsid).map fun kv => (kv.2.lsid * 128 + kv.1, kv.2))
  lower.foldl (fun b kv => segsOver kv.2.segs pa b) base

/-- The 64 bytes of a line as its home holds them, and as a function gives them. -/
def lineBytes (m : List Host.Cell) (line : Nat) : Nat := Memory.readLe m (line * 64) 64
def lineFrom (f : Nat → Byte) (line : Nat) : Nat := (List.range 64).foldl (fun x k => x ||| (f (64 * line + k)).toNat <<< (8 * k)) 0

/-- The lines that an L1 data cache holds, of both kinds (R14, R194): 1,536 KiB. Where it holds more, as many of the oldest fills
leave. The core's total is bounded, not each Reed die's share (log 133, DESIGN CHOICE). -/
def l1Lines : Nat := 24576
def Core.trimL1 (c : Core) : Core :=
  let extra := c.l1.length + c.gl1.length - l1Lines
  if extra = 0 then c
  else
    let old := ((NMap.ofList ((c.l1.map fun e => (e.2.fill, ())) ++ c.gl1.map fun g => (g.fill, ()))).keys).take extra
    { c with l1 := c.l1.filter (!old.contains ·.2.fill), gl1 := c.gl1.filter (!old.contains ·.fill) }

/-- Lines of HBM come into the L1 data cache together, as one fill (R194, log 22; ordinary lines also for indexed and short-strided loads, log 106):
a line that the access may not use is replaced, and gathered lines with bytes of them leave, so that a core has one copy of a byte. Lines of other places are not kept. -/
def State.fillL1 (s : State) (core : Nat) (lines : List Nat) : State :=
  let ls := lines.filter fun l => placeOf (l * 64) == .hbm
  if ls.isEmpty then s
  else
    let s := ls.foldl (fun (s : State) l => s.touchL2 (l * 64)) s
    let s' := s.updCore core fun c =>
      ({ c.dropL1 ls.contains with l1 := ls.foldl (fun m l => m.put l { bytes := lineBytes s.mem l, fill := s.seq }) c.l1 }).trimL1
    { s' with seq := s'.seq + 1 }

/-- Whether a core holds some lines as one fill brought them, so that a read of all is as one (R192). -/
def Core.together (c : Core) (lines : List Nat) : Bool :=
  match lines.map fun l => (c.l1.get? l).map (·.fill) with
  | [] => true
  | x :: xs => x.isSome && xs.all (· == x)

/-- The tag of the gathered line of an element (R194): the address of the first of the elements that share the line, up to 64 bytes of them, and
the stride. -/
def Part.gtag (p : Part) (stride : Nat) : Nat × Nat :=
  ((BitVec.ofNat 64 p.va - BitVec.ofNat 64 (p.key % (64 / max p.size 1) * stride)).toNat, stride)

/-- A miss of a strided load brings its bytes into the gathered line of its tag (R194); other gathered lines with those bytes leave. -/
def State.fillGather (s : State) (core : Nat) (tag : Nat × Nat) (pas : List Nat) : State :=
  let mine (g : GLine) : Bool := g.base == tag.1 && g.stride == tag.2
  let pas := pas.filter fun p => placeOf p == .hbm
  if pas.isEmpty || (s.core core).gl1.any (fun g => mine g && pas.all g.bytes.has) then s
  else
    let s := (pas.map lineOf).eraseDups.foldl (fun (s : State) l => s.touchL2 (l * 64)) s
    let s' := s.updCore core fun c =>
      let old : NMap Byte := match c.gl1.find? mine with | some g => g.bytes | none => []
      let g : GLine := { base := tag.1, stride := tag.2, bytes := pas.foldl (fun m p => m.put p (s.plainByte p)) old, fill := s.seq }
      ({ c with gl1 := g :: c.gl1.filter fun x => !mine x && !pas.any x.bytes.has }).trimL1
    { s' with seq := s'.seq + 1 }

/-- A byte as a core reads it: from its L1 line, of either kind where the access allocates gathered lines, or at its home. -/
def State.readByte (s : State) (core : Nat) (gath : Bool) (pa : Nat) : Byte :=
  if placeOf pa ≠ .hbm then s.homeByte pa
  else
    match (s.core core).l1.get? (lineOf pa) with
    | some l => BitVec.ofNat 8 (l.bytes >>> (8 * (pa % 64)))
    | none => if gath then ((s.core core).gl1.findSome? fun g => g.bytes.get? pa).getD (s.plainByte pa) else s.plainByte pa

/-- The host link is down, so that the host window answers nothing (R357). -/
def State.hostDown (s : State) : Bool := s.board.notif.getLsbD 3

/-- What a page that fails trims a fault-only-first load to (R188): the lowest element that fails a check. -/
def firstBad (s : State) (a : Access) (sup : Bool) (xl : NMap XRes) : Option (Nat × Bad) :=
  a.parts.findSome? fun p => (partBad s a.place a.acc sup xl p).map fun b => (p.key, b)

/-- The route to a fabric address (R361): its device, its offset, and the port of its segment. -/
def fabDev (pa : Nat) : Nat := (pa - fabBase) / 2 ^ 38
def fabOff (pa : Nat) : Nat := (pa - fabBase) % 2 ^ 38
def bitsSet (n x : Nat) : List Nat := (List.range n).filter fun k => x.testBit k
def State.routePort (s : State) (pa : Nat) : Option Nat :=
  let ports := bitsSet 18 (s.board.route.getD (fabDev pa) 0).toNat
  if ports.isEmpty then none else ports[fabOff pa / 256 % 32 % ports.length]?
/-- Whether a fabric access meets remote-lost SUB 0x01 (R362, R366). -/
def State.noRoute (s : State) (pa : Nat) : Bool :=
  placeOf pa == .fabric && (s.board.reduced || (fabDev pa != s.board.devnum.toNat && (s.routePort pa).isNone))

/-- A port that carries flits (R360, R364), and whether an access at its resolved address can leave now: an access to another device needs a
place in the replay buffer of its port (R359). -/
def Port.up (p : Port) : Bool := 2 ≤ p.state.toNat && p.state.toNat ≤ 4 && !p.retraining
def State.remotePort (s : State) (pa : Nat) : Option Nat := if placeOf pa = .fabric ∧ fabDev pa ≠ s.board.devnum.toNat then s.routePort pa else none
def State.fabricReady (s : State) (pa : Nat) : Bool := match s.remotePort pa with | some p => (s.port p).up && (s.port p).unacked.length < 64 | none => true

/-- An access to another device leaves in a flit, which the replay buffer keeps (R359). -/
def Port.send (p : Port) (now : Nat) : Port :=
  { p with nextSeq := (p.nextSeq + 1) % 4096, unacked := p.unacked ++ [(p.nextSeq, 0)], sentAt := if p.unacked.isEmpty then now else p.sentAt }
def State.sendFlit (s : State) (pa : Nat) : State := match s.remotePort pa with | some p => s.updPort p (·.send s.now) | none => s

/-- Whether an atomic of the block with a lower LSID, past its probe, writes a byte of a load (R249). -/
def Window.atomicOver (w : Window) (lsid : Nat) (pas : List Nat) : Bool :=
  w.posts.any fun kv => match kv.2 with
    | .atomic l _ size pa _ _ _ _ _ _ =>
      l < lsid && (match w.accs.get? kv.1 with | some a => a.phase == .done | none => false) && pas.any fun p => pa ≤ p && p < pa + size
    | _ => false

/-- Whether an `mst` of the block with a lower LSID writes a physical byte of a load (R204, R215, R263). -/
def Window.tileOver (w : Window) (core lsid : Nat) (pas : List Nat) : Bool :=
  w.posts.any fun kv => match kv.2 with
    | .tile o => o.op == 6 && (match w.view kv.1 with | some v => (match v.lsid? with | some l => l < lsid | none => false) | none => false) && pas.any (o.moves core)
    | _ => false

/-- A load of the block with a higher LSID, past its probe, that reads one of these physical bytes (R204, R215, R249). -/
def Window.loadOver (w : Window) (core lsid : Nat) (hits : Nat → Bool) : Option Nat :=
  (w.accs.find? fun kv => kv.2.acc == 0 && lsid < kv.2.lsid && kv.2.phase != .probing && (match w.view kv.1 with | some (.vm 0x2E 3 _) => false | _ => true) &&
    (kv.2.parts.flatMap Part.bytes).any fun b => match physOf core kv.2.xl b with | some p => hits p | none => false).map (·.1)

/-- Whether a strand's link on a line is intact and usable (R251). -/
def Core.linked (c : Core) (sid line : Nat) : Bool := c.links.any fun k => k.sid == sid && k.line == line && k.usable

/-- Every other strand's link to a line is lost (R252). -/
def State.loseOthers (s : State) (sid line : Nat) : State :=
  { s with cores := s.cores.mapVals fun _ c => { c with links := c.links.filter fun k => k.line != line || k.sid == sid } }

/-- `vsc` takes its active elements in turn (R252): where the strand's link is intact the line is reserved, the mask bit clears
and the element is buffered. The elements' bits stand in `data`, VD as one group. -/
def State.vscTake (s : State) (sid idx : Nat) (t : Strand) (w : Window) (a : Access) (msk : Nat) : State × Access :=
  let core := coreOf sid
  let wd := (fmtOf (fwSrc1 a.fw)).width
  let r := a.parts.foldl (fun (st : State × List Part × Nat) p =>
    match physOf core a.xl p.va with
    | some pa =>
      if (st.1.core core).linked sid (lineOf pa) then
        (({ st.1 with resv := st.1.resv.put (lineOf pa) sid }).loseOthers sid (lineOf pa), st.2.1 ++ [p], setBits st.2.2 p.key 1 0)
      else st
    | none => st) (s, [], w.readM t msk idx)
  let out := r.2.1.foldl (fun m p => putField m p.va 0 (8 * p.size) (elem a.data wd p.key) p.size) []
  (r.1.updWin sid fun w => { w.putM idx msk r.2.2 with resv := w.resv ++ (r.2.1.filterMap fun p => (physOf core a.xl p.va).map lineOf).eraseDups }, { a with parts := r.2.1, out := out })

/-- `vwait` arms its watches (R256): one entry for each line, until entries run short. -/
def State.armWatches (s : State) (sid idx : Nat) (a : Access) : State :=
  let core := coreOf sid
  let r := a.parts.foldl (fun (st : List Nat × Option Nat) p =>
    match st.2 with
    | some _ => st
    | none =>
      match physOf core a.xl p.va with
      | none => st
      | some pa =>
        if st.1.contains (lineOf pa) then st
        else if (s.core core).watches.length + st.1.length < 256 then (st.1 ++ [lineOf pa], none) else (st.1, some p.key)) ([], none)
  let s := s.updCore core fun c => { c with watches := c.watches ++ r.1.map fun l => (sid, l) }
  s.updWin sid fun w => { w with accs := w.accs.put idx { a with phase := .done }, armed := w.armed ++ r.1 }.post idx (.vwait (r.2.getD a.n) a.n)

/-- A probe that has passed: a store's data is buffered and its LSID resolves, with 0 to an ordinary scalar store's target and
the late token to a stamped store's or an atomic's (R104, R106, R246); a load goes on to read its segments. -/
def State.probePassed (s : State) (sid idx : Nat) (w : Window) (a : Access) : State :=
  let core := coreOf sid
  let at_ := s.stepKey core
  let toks : Window → Window := match w.view idx with
    | some (.mem 0x1A xop o) => fun w => w.deliverAll idx (s.tokAt core (if xop < 4 then .val 0 else .later)) [o.t0]
    | some (.amo 0x1B _ o) => fun w => w.deliverAll idx (s.tokAt core .later) [o.t0]
    | some (.amo3 _ o) => fun w => w.deliverAll idx (s.tokAt core .later) [o.t0]
    | _ => id
  if a.acc = 1 then
    let (s, a) := match w.view idx with
      | some (.vm 0x2E 1 o) => (match s.strand? sid with | some t => s.vscTake sid idx t w a o.msk.toNat | none => (s, a))
      | _ => (s, a)
    let buf : StoreBuf :=
      { lsid := a.lsid, segs := segWrites core a.xl a.unit a.parts a.out a.route, ordered := a.ordered,
        stamp := (match w.view idx with
          | some (.mem 0x1A 5 o) => (match o.t0 with | .reg g => some g.toNat | _ => none)
          | some (.mem 0x1A 6 o) => (match o.t0 with | .reg g => some g.toNat | _ => none)
          | _ => none),
        sc := (match w.view idx with | some (.vm 0x2E 1 _) => true | _ => false) }
    s.updWin sid fun w => toks (({ w with accs := w.accs.put idx { a with phase := .done }, stores := w.stores.put idx buf }).resolve a.lsid idx at_)
  else if a.acc = 3 then
    let pa := (physOf core a.xl ((a.parts.headD default).va)).getD 0
    let size := (a.parts.headD default).size
    let s := match w.loadOver core a.lsid (fun p => pa ≤ p && p < pa + size) with | some k => s.raise sid kSync 0x07 k 0 0 | none => s
    s.updWin sid fun w =>
      let posts := match w.posts.get? idx with
        | some (.atomic l x z _ va r t g sn _) => w.posts.put idx (.atomic l x z pa va r t g sn (accessPins a.xl a.parts))
        | _ => w.posts
      toks (({ w with accs := w.accs.put idx { a with phase := .done }, posts := posts }).resolve a.lsid idx at_)
  else if (match w.view idx with | some (.vm 0x2E 3 _) => true | _ => false) then s.armWatches sid idx a
  else
    let pas := (a.parts.flatMap Part.bytes).filterMap (physOf core a.xl)
    let s := if w.atomicOver a.lsid pas then s.raise sid kSync 0x07 idx 0 0
      else if w.tileOver core a.lsid pas then s.raise sid kTile 0x06 idx 0 0 else s
    s.updWin sid fun w => { w with accs := w.accs.put idx { a with phase := .reading, segs := segsOf core a.xl a.unit a.parts } }

/-- The checks of a probe whose pages are translated (R108, R181, R182, R188, R362); a `vldff` is trimmed at its first failing element (log 82). -/
def State.probeChecked (s : State) (sid idx : Nat) (t : Strand) (w : Window) (a : Access) : Option State :=
  let ff : Bool := match w.view idx with | some (.vm 0x2C 4 _) => true | _ => false
  let core := coreOf sid
  let fail (b : Bad) : Option State := some (s.raise sid b.kind b.sub idx b.va a.acc b.pa)
  let pass (a : Access) : Option State :=
    let pa := (physOf core a.xl ((a.parts.headD default).va)).getD 0
    if a.acc = 3 ∧ s.noRoute pa then some (s.raise sid kRemote 0x01 idx ((a.parts.headD default).va) ((s.routePort pa).getD 0) (fabDev pa))
    else if a.acc = 0 then some (s.probePassed sid idx w a)
    else match t.pinCheck (accessPins a.xl a.parts) with
      | .fits => some (s.probePassed sid idx w a)
      | .wait => none
      | .fault => some (s.raise sid kPinLimit 0 idx 0 0)
  if ff then
    match firstBad s a t.sup a.xl with
    | none => pass a
    | some (k, b) => if k = 0 then fail b else pass { a with cut := k, parts := a.parts.filter (·.key < k) }
  else
    match worst (a.parts.filterMap (partBad s a.place a.acc t.sup a.xl)) with
    | some b => fail b
    | none => pass a

/-- SCALAR_PROBE_COMPLETE (R104, R108, R181, R307, R353): the access looks its pages up in the TLBs, where no link to an L2 TLB retrains; for those that miss
it waits on walks; when every page has its result, the checks are made. -/
def scalarProbeComplete (sid idx : Nat) (s : State) : Option State :=
  match s.strand? sid with
  | none => none
  | some t =>
    match t.win with
    | none => none
    | some w =>
      match w.accs.get? idx with
      | none => none
      | some a =>
        if a.phase ≠ .probing ∨ w.fault.isSome ∨ !s.clocked (coreOf sid) then none
        else
          let core := coreOf sid
          let unknown := (partPages a.parts).filter fun p => !a.xl.has p
          let open_ := unknown.filter (s.tlbOpen core t.asid.toNat)
          let hits := open_.filterMap fun p => (s.lookup core t.asid.toNat p).map fun l => (p, l)
          let misses := open_.filter fun p => !hits.any (·.1 == p)
          let a := { a with xl := hits.foldl (fun m h => m.put h.1 (.ok h.2)) a.xl }
          let s := hits.foldl (fun (s : State) h => s.fillTlb core t.asid.toNat h.1 h.2) s
          if misses.isEmpty ∧ open_ = unknown then s.probeChecked sid idx t w a
          else
            let root := BitVec.ofNat 64 (s.rootOf t.ctx)
            let waiting (p : Nat) : Bool := s.walks.any fun kv => kv.2.asid == t.asid && kv.2.root == root && kv.2.page == p && kv.2.cores.contains core
            if hits.isEmpty ∧ misses.all waiting then none
            else some ((misses.foldl (fun (s : State) p => s.startWalk core t.asid root p) s).updWin sid fun w => { w with accs := w.accs.put idx a })

/-- SCALAR_PROBE_COMPLETE. -/
def execScalarProbeComplete (sid idx : Nat) (s : State) : Out := s.act (scalarProbeComplete sid idx s)

/-- A `vldxo` of the block with a lower LSID is on its way to some bytes: its segments take their values one after another (R192), so that a later
load of these bytes waits for it. -/
def Access.segBytes (a : Access) (seg : Nat) : List Nat := (a.bytesIn (if placeOf (seg * a.unit) = .scratch then spCore (seg * a.unit) else 0) seg).map (·.2)
def Window.loadBefore (w : Window) (idx : Nat) (a : Access) (seg : Nat) : Bool :=
  w.accs.any fun kv => kv.1 != idx && kv.2.acc == 0 && kv.2.ordered && kv.2.lsid < a.lsid && kv.2.phase == .reading && !w.unsent kv.2 &&
    let mine := a.segBytes seg
    kv.2.segs.any fun g => (kv.2.segBytes g).any mine.contains

/-- The first in program order of what loads of the block have kept, of those that satisfy a test. -/
def Window.kept {α : Type} (w : Window) (p : Access → Bool) (f : Access → Option α) : Option α :=
  ((w.accs.filterMap fun kv => if p kv.2 then (f kv.2).map fun x => (kv.2.lsid, x) else none).foldl
    (fun (best : Option (Nat × α)) x => match best with | some b => if x.1 < b.1 then some x else best | none => some x) none).map (·.2)

/-- A line as a load of a higher LSID has read it already, under the strand's committed stores: what a load that comes before it in program
order then reads, so that the reads of a strand follow coherence order (R264). A load that reads such a line keeps it in turn, so that of
several the lowest LSID has read first. -/
def Window.captured (w : Window) (lsid line : Nat) : Option Nat := w.kept (fun a => lsid < a.lsid) (·.raw.get? line)

/-- Memory as it was when a load of a higher LSID first read a line (R192). -/
def Window.snapshot (w : Window) (lsid : Nat) : Option (List Host.Cell) := w.kept (fun a => lsid < a.lsid) (·.snap)

/-- Memory under the committed stores of a strand that have not performed. -/
def overlaid (t : Strand) (m : List Host.Cell) : List Host.Cell :=
  t.items.foldl (fun m i => match i.kind with
    | .store segs _ _ _ => segs.foldl (fun m g => g.bytes.foldl (fun m kv => Memory.write m kv.1 (kv.2.over (Memory.read m kv.1))) m) m
    | _ => m) m

/-- `scope.set`, `cps.cfg`, `spawn` and `ctx.load` read a record of memory in the step in which they fire, as their block finds memory (R225,
R243, R259, R295). -/
def readsRecord : View → Bool
  | .amo 0x1C 4 _ => true
  | .cp 0 _ => true
  | .g 0x0A 0 _ => true
  | .g 0x1E 5 _ => true
  | _ => false

/-- Whether a load of the block with a lower LSID, an `mld` of one, or an instruction that reads a record, has still to read memory: lines read now
are kept for it (R264). -/
def Window.keepsRaw (w : Window) (lsid : Nat) : Bool :=
  w.loadOpen lsid || w.blk.views.any fun kv => !w.dead kv.1 kv.2 && (match kv.2 with
    | .tile 5 o => decide (o.lsid.toNat < lsid)
    | v => readsRecord v && !(w.op kv.1).fired)

/-- The value that a finished part of a load holds. -/
def Access.value (a : Access) (p : Part) : Nat :=
  let bits := (List.range p.size).foldl (fun x k => x ||| (a.got.getD ((p.va + k) % 2 ^ 64) 0).toNat <<< (8 * k)) 0
  getBits bits p.bit p.w

/-- The value of element key j of a finished load, when it was active. -/
def Access.valueAt (a : Access) (key : Nat) : Option Nat := (a.parts.find? (·.key == key)).map a.value

/-- What a scalar load delivers (R103). -/
def loadValue (xop x : Nat) : Dword :=
  match xop with
  | 0 => (BitVec.ofNat 8 x).signExtend 64
  | 2 => (BitVec.ofNat 16 x).signExtend 64
  | 4 => (BitVec.ofNat 32 x).signExtend 64
  | _ => BitVec.ofNat 64 x

/-- A vector load of `n` elements of width `w` written to its group (R137, R184). -/
def Window.loadGroup (t : Strand) (w : Window) (idx r g vb n cut wd fw : Nat) (f : Nat → Option Nat) : Window :=
  let old := w.readGroup t r g vb idx
  let bits := destBits old (8 * vb * g) (min n cut) wd (fwTail fw) fun j => (f j).getD (maskOff (fwMask fw) old wd j)
  w.putGroup idx r g vb bits

/-- A load whose value has come: its token, or its registers (R103, R184, R188, R189, R251). A load that fires on values resolves no LSID
(log 73). -/
def State.loadDone (s : State) (sid idx : Nat) (t : Strand) (a : Access) : State :=
  let core := coreOf sid
  s.updWin sid fun w =>
    let w := { w with accs := w.accs.put idx { a with phase := .done, got := [], xl := [] } }
    match w.view idx with
    | some (.mem 0x19 xop o) => w.deliverAll idx (s.tokAt core (.val (loadValue xop ((a.valueAt 0).getD 0)))) [o.t0]
    | some (.vm 0x2C 3 o) =>
      let wd := (fmtOf (fwDst a.fw)).width
      (List.range (o.vi.toNat + 1)).foldl (fun w f => w.loadGroup t idx (o.vd.toNat + f) 1 a.vlenb a.n a.n wd a.fw fun j => a.valueAt (j * 8 + f)) w
    | some (.vm 0x2C 4 o) =>
      let w := w.loadGroup t idx o.vd.toNat (fwGroup a.fw) a.vlenb a.n a.cut (fmtOf (fwDst a.fw)).width a.fw a.valueAt
      { w with counts := w.counts.put idx (min a.n a.cut) }
    | some (.vm 0x2C 6 o) =>
      let w := w.loadGroup t idx o.vd.toNat (fwGroup a.fw) a.vlenb a.n a.n (fmtOf (fwDst a.fw)).width a.fw a.valueAt
      let k := o.vi.toNat % 8
      let sc := (List.range ((a.n + 31) / 32)).foldl (fun x b => match a.valueAt (2 ^ 40 + b) with | some y => setBits x (8 * b) 8 y | none => x) (w.readS t k idx)
      w.putS idx k sc
    | some (.vm 0x2C 7 o) =>
      let w := w.loadGroup t idx o.vd.toNat (fwGroup a.fw) a.vlenb a.n a.cut (fmtOf (fwDst a.fw)).width a.fw a.valueAt
      { w with counts := w.counts.put idx (min a.n a.cut) }
    | some (.vm _ _ o) => w.loadGroup t idx o.vd.toNat (fwGroup a.fw) a.vlenb a.n a.n (fmtOf (fwDst a.fw)).width a.fw a.valueAt
    | _ => w

/-- The links that a segment read of `vgl` sets (R251): 4,096 entries, the least recently set leaving. A link set on a line
that another strand's `vsc` has reserved is lost at once (R252). -/
def Core.setLink (c : Core) (sid line : Nat) (kept : Bool) : Core :=
  if !kept then c else
  let others : List Link := c.links.filter fun k => k.sid != sid || k.line != line
  let l : Link := { sid := sid, line := line, usable := false }
  { c with links := ((l :: others.reverse).take 4096).reverse }

/-- A `vldcs` that still waits for its count (R190). -/
def Window.uncounted (w : Window) (idx : Nat) : Bool := (match w.view idx with | some (.vm 0x2C 7 _) => true | _ => false) && !w.counts.has idx

/-- The region that takes a load's value: the front end, or the lane slices for a form that writes a vector register (R279, R280). -/
def Window.toLanes (w : Window) (idx : Nat) : Bool := match w.view idx with | some (.vm _ _ _) => true | _ => false

/-- The physical bytes at the ends of the parts of an access. -/
def Access.places (a : Access) (core : Nat) : List Nat := (a.parts.flatMap Part.ends).filterMap (physOf core a.xl)

/-- A load with nothing left to read takes its value when that has crossed to its region (R280): a scalar at a boundary of the front end, which
then steps (R276); a vector at a boundary of the lane slices, which then step and report it at the end of the step. -/
def State.loadArrive (s : State) (sid idx : Nat) (t : Strand) (w : Window) (a : Access) : Option State :=
  let core := coreOf sid
  if !s.crossedTo (w.toLanes idx) a.sent (a.places core) a.route || !s.clocked core then none
  else if w.toLanes idx then
    (if !(s.core core).lanesStand s.now then none
     else some ((s.loadDone sid idx t a).updCore core fun k => { k with fills := k.fills ++ [{ sid := sid, idx := idx, sent := s.now, tok := none }] }))
  else if (s.core core).fe.stepping s.now then none
  else some ((s.loadDone sid idx t a).wakeFe core)

/-- The read that brought the lines of a segment ahead of the block of a load, which may take them from it (R79, R265): one read brought them all, no acquire
stands before the load, and, in an ordered form, it came after the one that the segment before took its value from (R192). -/
def Window.aheadFill (w : Window) (a : Access) (vgl : Bool) (lines : List Nat) : Option Nat :=
  if vgl || !(w.acqsBelow a.lsid).isEmpty then none
  else match lines.map w.blk.ahead.get? with
    | some x :: xs => if xs.all (fun y => y.any (·.fill == x.fill)) && (!a.ordered || a.got.isEmpty || a.took.any (· < x.fill)) then some x.fill else none
    | _ => none
def Window.aheadLine (w : Window) (line : Nat) : Option Nat := (w.blk.ahead.get? line).map (·.bytes)

/-- Memory as a load whose segments have an order, or are one, takes it (R192): where a later load of the block has read one of its lines, as that
load found it. -/
def Window.strictMem (w : Window) (a : Access) (lines : List Nat) : Option (List Host.Cell) :=
  if (a.ordered && a.segs.any fun g => (w.captured a.lsid g).isSome) || (a.unit != 64 && lines.any fun l => (w.captured a.lsid l).isSome) then w.snapshot a.lsid
  else none

/-- Lines read ahead of a strand's next block, or of its running one, that the strand reads now: the next block's may be older than what is read now,
and so may, for a later load, those of the running block that this load has not taken (R264). -/
def Strand.hasAhead (t : Strand) (ls : List Nat) : Bool := t.fetched.any (fun f => ls.any f.ahead.has) || t.win.any fun w => ls.any w.blk.ahead.has
def Strand.readAnew (t : Strand) (ls anew : List Nat) : Strand :=
  { t with fetched := t.fetched.map (·.forget ls), win := t.win.map fun w => { w with blk := w.blk.forget anew } }

/-- A load must have its lines anew: a `vgl` (R251), one that is ordered after its first segment, and one before which such a load may come (R192). -/
def Window.readsFresh (w : Window) (a : Access) (vgl : Bool) : Bool := vgl || w.strictOpen a.lsid || (a.ordered && !a.got.isEmpty)

/-- The L1 gives a load the line of a byte, which no acquire drops, without its home (R194, R242). -/
def State.l1Serves (s : State) (core : Nat) (t : Strand) (w : Window) (a : Access) (vgl : Bool) (p : Nat) : Bool :=
  (s.core core).l1.has (lineOf p) && !w.readsFresh a vgl && !((t.acqs ++ (w.acqsBelow a.lsid).map (·.2)).any (·.drops (lineOf p)))

/-- A segment of a load takes its value (R187, R191, R192, R263, R264): from lines that an acquire still lets it use, or filled now; under the
strand's stores that come before it. Its `vgl` sets links, which hold only where the line still has the value taken (R251). A later segment of a `vldxo` is taken
at its home, or from a read ahead of its block (log 139, DESIGN CHOICE). -/
def State.loadSegment (s : State) (sid idx k : Nat) (t : Strand) (w : Window) (a : Access) (bs : List (Nat × Nat)) (vgl : Bool) : State :=
  let core := coreOf sid
  let drops := t.acqs ++ (w.acqsBelow a.lsid).map (·.2)
  let s := s.updCore core (·.dropL1 fun l => drops.any (·.drops l))
  let lines := ((bs.map (·.2)).map lineOf).eraseDups
  let strict := w.strictOpen a.lsid
  let fill := w.aheadFill a vgl lines
  let old := if fill.isSome then none else w.strictMem a lines
  let given (l : Nat) : Option Nat := if fill.isSome then w.aheadLine l else w.captured a.lsid l
  let open_ := if old.isSome then [] else lines.filter fun l => (given l).isNone
  let s := if w.readsFresh a vgl then s.updCore core (·.dropL1 open_.contains) else s
  let s : State := match a.gath with
    | some st => a.parts.foldl (fun (s : State) p =>
        s.fillGather core (p.gtag st) ((bs.filter fun b => p.bytes.contains b.1 && open_.contains (lineOf b.2) && !(s.core core).l1.has (lineOf b.2)).map (·.2))) s
    | none => if (s.core core).together open_ then s else s.fillL1 core open_
  let raw (p : Nat) : Byte := match old with
    | some m => ({ s with mem := m } : State).homeByte p
    | none => match given (lineOf p) with
      | some x => overlayItems t p (BitVec.ofNat 8 (x >>> (8 * (p % 64))))
      | none => overlayItems t p (s.readByte core a.gath.isSome p)
  let kept : NMap Nat := if w.keepsRaw a.lsid then lines.foldl (fun m l => m.put l (lineFrom raw l)) a.raw else a.raw
  let snap := if strict && a.snap.isNone then some ((w.snapshot a.lsid).getD (overlaid t s.mem)) else a.snap
  let got := bs.foldl (fun m b => m.put b.1 (w.overlay a.lsid b.2 (raw b.2))) a.got
  let segs := a.segs.eraseIdx k
  let a := { a with got := got, segs := segs, raw := kept, snap := snap, took := fill, sent := if segs.isEmpty then s.now else a.sent }
  let current (l : Nat) : Bool := match w.captured a.lsid l with | some x => x == lineFrom (fun p => overlayItems t p (s.homeByte p)) l | none => true
  let s := if vgl then lines.foldl (fun (s : State) l =>
      s.updCore core (·.setLink sid l (current l && match s.resv.get? l with | some k => k == sid | none => true))) s else s
  let s := s.updStrand sid fun t => { t with acqs := [] }
  let s := if t.hasAhead lines then s.updStrand sid (·.readAnew lines open_) else s
  s.updWin sid fun w => { w with accs := w.accs.put idx a, links := if vgl then w.links ++ lines else w.links }

/-- A strand whose later blocks may read ahead of it (R79, R265): no committed fence, and no wait, orders their reads. -/
def Strand.mayReadAhead (t : Strand) : Bool := t.runs && !t.barWait && t.vsleep.isNone && t.tlbWait.isNone && !itemsHoldLoad [] t.items

/-- Lines can be read in steps that regions make for other work, so that a speculative read adds none and raises none (R277): the front end of the core
makes one; of HBM the L1 holds the lines, as one fill brought them, or the home begins a step; of a scratchpad the lane slice makes one in which the bank has served
nothing (R195). -/
def State.aheadSpot (s : State) (core : Nat) (lines : List Nat) : Bool :=
  let k := s.core core
  let pa := 64 * lines.headD 0
  k.fe.stepping s.now &&
  match placeOf pa with
  | .hbm => k.together lines || ((s.die (homeDie pa)).clock.stepping s.now && s.chanOpen pa)
  | .scratch => spCore pa == core && s.clocked core && k.sliceSteps s.now (spBank pa / 8) && !k.served.contains (spBank pa)
  | .host => !s.hostDown
  | _ => false

/-- A load of a fetched successor reads a line, or an aligned pair, before its predecessor commits (R79, R265, log 51): the successor keeps it as it was read,
under the strand's committed stores, and a line of HBM comes into the L1 data cache too (R194). -/
def readAhead (sid : Nat) (lines : List Nat) (s : State) : Option State :=
  let core := coreOf sid
  let pas := lines.map (64 * ·)
  match s.strand? sid with
  | none => none
  | some t =>
    match t.fetched with
    | none => none
    | some f =>
      if !t.mayReadAhead ∨ f.fault.isSome ∨ !s.aheadSpot core lines ∨ pas.any s.poisoned ∨ !s.crossedTo true f.at_ pas then none
      else
        let pa := pas.headD 0
        let s := if placeOf pa = .hbm then (if (s.core core).together lines then s else s.fillL1 core lines)
          else if placeOf pa = .scratch then s.updCore core fun k => { k with served := spBank pa :: k.served } else s
        let line (l : Nat) : L1Line := { bytes := lineFrom (fun p => overlayItems t p (s.readByte core false p)) l,
                                         fill := (((s.core core).l1.get? l).map (·.fill)).getD s.seq }
        some ({ s with seq := s.seq + 1 }.updStrand sid fun t => { t with fetched := some { f with ahead := lines.foldl (fun m l => m.put l (line l)) f.ahead } })

/-- LOAD_DATA_RETURN (R103, R107, R187, R191, R192, R280): the k-th segment still to read takes its value, when the access has reached its home and
nothing of its strand that must come first is outstanding; with none left, the value arrives. A line with an uncorrectable error is met whatever else
gives its bytes (log 101). A bank of the scratchpad gives one segment in a step of its lane slice (R195, R276, R280). With an index of 128 and above a load of a
fetched successor reads line k, with 129 the aligned pair that k is in. -/
def loadDataReturn (sid idx k : Nat) (s : State) : Option State :=
  if 128 ≤ idx then readAhead sid (if idx = 129 then [k / 2 * 2, k / 2 * 2 + 1] else [k]) s else
  match s.strand? sid with
  | none => none
  | some t =>
    match t.win with
    | none => none
    | some w =>
      match w.accs.get? idx with
      | none => none
      | some a =>
        if a.phase ≠ .reading ∨ w.fault.isSome ∨ !w.lowerResolved a.lsid ∨ fencesHoldLoad t w a.lsid ∨ (a.ordered ∧ k ≠ 0) ∨ w.uncounted idx then none
        else
          match a.segs[k]? with
          | none => if a.segs.isEmpty then s.loadArrive sid idx t w a else none
          | some seg =>
            let core := coreOf sid
            let bs := a.bytesIn core seg
            let pas := bs.map (·.2)
            let vas := bs.map (·.1)
            let vgl : Bool := match w.view idx with | some (.vm 0x2E 0 _) => true | _ => false
            let ff : Bool := match w.view idx with | some (.vm 0x2C 4 _) => true | _ => false
            if !s.crossedTo (w.toLanes idx) a.sent pas a.route ∨ !s.spotFree (pas.headD 0) ∨ !(pas.all fun p => s.chanOpen p || s.l1Serves core t w a vgl p) ∨ w.loadBefore idx a seg ∨ itemsHoldBytes t vas pas ∨ lockHolds (s.core core) t s.seq false vas then none
            else
              match pas.find? fun p => s.poisoned p || (placeOf p == .host && s.hostDown) with
              | some p =>
                let e := if s.poisoned p then s.meetError p else s
                let va := ((bs.find? (·.2 == p)).map (·.1)).getD 0
                let el : Nat := ((a.parts.find? fun q => q.bytes.contains va).map (·.key)).getD 0
                if ff ∧ el > 0 then
                  let a' := { a with cut := el, parts := a.parts.filter (·.key < el) }
                  some (e.updWin sid fun w => { w with accs := w.accs.put idx { a' with segs := a.segs.filter (segsOf core a'.xl a'.unit a'.parts).contains } })
                else some (e.raise sid kPoison 0 idx va 0 p)
              | none => some ((s.useSpot (pas.headD 0)).loadSegment sid idx k t w a bs vgl)

/-- LOAD_DATA_RETURN. -/
def execLoadDataReturn (sid idx seg : Nat) (s : State) : Out := s.act (loadDataReturn sid idx seg s)

end Sys2Proof.Machine
end

