-- ==== Sys2Proof/Machine/ScalarMem.lean ====
section
/-! DEFINITION. Scalar loads and stores (R103 to R106), the snapshots of the Sedge table (R235 to R239), the atomics up to
their commit (R246) and the FNC forms (R241). -/

namespace Sys2Proof.Machine

/-- The address of a scalar access (R103). -/
def scalarAddr (l : Dword) (off : BitVec 4) (size : Nat) : Nat := (l + off.signExtend 64 * BitVec.ofNat 64 size).toNat

/-- A scalar load fires: a misaligned address is an alignment fault; else its probe is under way (R103, R105, R108). -/
def State.load (s : State) (xop size : Nat) (o : MOp) : Out :=
  s.run (.mem 0x19 xop o) fun s c =>
    let a := scalarAddr c.l o.off size
    if a % size ≠ 0 then s.raise c.sid kAlign 0 c.idx a 0
    else s.updWin c.sid fun w => { w with accs := w.accs.put c.idx { Access.new o.lsid.toNat 0 0 (onePart a size) with sent := c.at_ } }

/-- A scalar store fires (R104, R105, R106, R108). -/
def State.store (s : State) (xop size : Nat) (o : MOp) : Out :=
  s.run (.mem 0x1A xop o) fun s c =>
    let a := scalarAddr c.l o.off size
    if a % size ≠ 0 then s.raise c.sid kAlign 0 c.idx a 1
    else s.updWin c.sid fun w =>
      { w with accs := w.accs.put c.idx { Access.new o.lsid.toNat 1 0 (onePart a size) with out := putField [] a 0 (8 * size) c.r.toNat size } }

/-- The fixed entries of the Sedge table (R237): 0 the issuing core alone, 15 every core at the homes. -/
def Sedge.own (core : Nat) : Sedge :=
  { cores := BitVec.ofNat 32 (2 ^ core), l2 := 0, slough := 0, host := false, fabric := false, meet := 0, gen := 0, valid := true }
def Sedge.all : Sedge := { cores := 0xFFFFFFFF, l2 := 0xFF, slough := 0xFF, host := false, fabric := false, meet := 1, gen := 0, valid := true }

/-- A table's entry; entries that nothing has set are invalid (R237). -/
def sedgeIn (tbl : NMap Sedge) (core e : Nat) : Sedge := if e = 0 then .own core else if e = 15 then .all else tbl.getD e .none

/-- The entry as a core's copy of a context's table holds it (R235), and as the master copy does. -/
def State.sedge (s : State) (core ctx e : Nat) : Sedge :=
  match s.contexts.get? ctx with
  | some x => sedgeIn (x.copies.getD core x.table) core e
  | none => sedgeIn [] core e
def State.sedgeMaster (s : State) (core ctx e : Nat) : Sedge :=
  match s.contexts.get? ctx with
  | some x => sedgeIn x.table core e
  | none => sedgeIn [] core e

/-- The word of an entry (R243). -/
def Sedge.word (e : Sedge) : Dword :=
  BitVec.ofNat 64 (e.cores.toNat + e.l2.toNat * 2 ^ 32 + e.slough.toNat * 2 ^ 40 + e.host.toNat * 2 ^ 48 + e.fabric.toNat * 2 ^ 49
    + e.meet.toNat * 2 ^ 50 + e.gen.toNat * 2 ^ 52 + e.valid.toNat * 2 ^ 60)
def Sedge.ofWord (x : Nat) : Sedge :=
  { cores := BitVec.ofNat 32 x, l2 := BitVec.ofNat 8 (x >>> 32), slough := BitVec.ofNat 8 (x >>> 40), host := x.testBit 48,
    fabric := x.testBit 49, meet := BitVec.ofNat 2 (x >>> 50), gen := BitVec.ofNat 8 (x >>> 52), valid := x.testBit 60 }

/-- The meeting point that the Zepen computes when an entry is written (R238). -/
def Sedge.meetOf (e : Sedge) : BitVec 2 :=
  if e.fabric then 3 else if e.host then 2
  else if (bitsSet 32 e.cores.toNat).length = 1 ∧ e.l2 = 0 ∧ e.slough = 0 then 0 else 1

/-- The snapshot an operation takes at issue (R239); with an invalid entry, or a core outside it, the fault is recorded. -/
def State.snapshot (s : State) (c : Ctx) (entry : Nat) (ok : State → Sedge → State) : State :=
  let e := s.sedge (coreOf c.sid) c.t.ctx entry
  if !e.valid then s.raise c.sid kStale entry c.idx 0 e.word.toNat
  else if !e.cores.getLsbD (coreOf c.sid) then s.raise c.sid kSync 0x03 c.idx 0 0
  else ok s e

/-- The rules of place of an atomic (R246): the forms with a host counterpart are `aadd`, `aaddw`, `aswap`, `acas` and `acasw`. -/
def atomicPlace (xop : Nat) (sn : Sedge) : Nat :=
  (if xop = 0 ∨ xop = 8 ∨ xop = 9 ∨ xop = 12 ∨ xop = 13 then 32 else 16) + sn.meet.toNat

/-- The register that takes an atomic's old value (R246). -/
def regTarget : Target → Option Nat | .reg g => some g.toNat | _ => none

/-- An atomic fires (R246): its checks in order, then its probe; it performs after commit. -/
def State.amo (s : State) (v : View) (xop lsid scope : Nat) (t0 : Target) : Out :=
  s.run v fun s c =>
    let size := if xop < 12 then 8 else 4
    if c.l.toNat % size ≠ 0 then s.raise c.sid kAlign 0 c.idx c.l.toNat 3
    else s.snapshot c scope fun s sn => s.updWin c.sid fun w =>
      { w with accs := w.accs.put c.idx (.new lsid 3 (atomicPlace xop sn) (onePart c.l.toNat size)),
               posts := w.posts.put c.idx (.atomic lsid xop size 0 c.l.toNat c.r c.x (regTarget t0) sn []) }

/-- A fence fires (R241): it takes its snapshot, delivers 0 and resolves. -/
def State.fence (s : State) (kind : Nat) (o : AOp) : Out :=
  s.run (.amo 0x1C kind o) fun s c => s.snapshot c o.scope.toNat fun s sn =>
    (s.updWin c.sid fun w => (w.post c.idx (.fence o.lsid.toNat kind sn)).resolve o.lsid.toNat c.idx c.at_).give c (.amo 0x1C kind o) (.val 0)

/-- A line as some load of the block has read it already: what an instruction reads that comes before them all (R264). -/
def Window.capturedAny (w : Window) (line : Nat) : Option Nat := w.kept (fun _ => true) (·.raw.get? line)

/-- Bytes that an instruction reads in the step in which it fires, as memory stands in program order before its block
(R225, R243, R259): memory under the strand's committed stores, or as a load of the block has read it already (R264). -/
def State.readFor (s : State) (core : Nat) (t : Strand) (w : Window) (xl : NMap XRes) (va : Nat) : Nat → Nat
  | 0 => 0
  | n + 1 =>
    let b : Byte := match physOf core xl va with
      | some p => (match w.capturedAny (lineOf p) with | some x => BitVec.ofNat 8 (x >>> (8 * (p % 64))) | none => overlayItems t p (s.homeByte p))
      | none => 0
    b.toNat + 256 * s.readFor core t w xl (va + 1) n

/-- Whether nothing of the strand's committed work holds bytes read in the step of firing (R231, R263), and no link on their way retrains (R353). -/
def State.readOpen (s : State) (sid : Nat) (t : Strand) (va n : Nat) : Bool :=
  let core := coreOf sid
  let vas := (List.range n).map (va + ·)
  let xl := (s.xlateAll core t.asid.toNat (s.rootOf t.ctx) (partPages (onePart va n)) []).1
  let pas := vas.filterMap (physOf core xl)
  !itemsHoldBytes t vas pas && !lockHolds (s.core core) t s.seq false vas && s.partsOpen core t (onePart va n) && s.linkOpen pas

/-- A record that an instruction reads in the step in which it fires, at an address aligned to `align` (R225, R243, R259, R295):
its probe, then its bytes as one number; an uncorrectable error on the way is a poison fault (R349, R357). Lines of it leave the core's L1, so that
no later load of the strand reads anything older there (R264, R267). -/
def State.readRecord (s : State) (c : Ctx) (a n align : Nat) (body : State → Nat → State) : State :=
  let core := coreOf c.sid
  if a % align ≠ 0 then s.raise c.sid kAlign 0 c.idx a 0
  else
    let p := s.probeNow core c.t.asid c.t.ctx 0 0 c.t.sup (onePart a n)
    let s := p.2.2
    match p.1 with
    | some b => s.raise c.sid b.kind b.sub c.idx b.va 0 b.pa
    | none =>
      let pas := (List.range n).filterMap fun k => physOf core p.2.1 (a + k)
      match pas.find? fun q => s.poisoned q || (placeOf q == .host && s.hostDown) with
      | some q => (if s.poisoned q then s.meetError q else s).raise c.sid kPoison 0 c.idx a 0 q
      | none => body ((s.updCore core (·.dropL1 (pas.map lineOf).contains)).updStrand c.sid (·.forget (pas.map lineOf))) (s.readFor core c.t c.w p.2.1 a n)

/-- `scope.set` (R236, R240, R241, R243). -/
def execScopeSet (o : AOp) (s : State) : Out :=
  s.runWhen (.amo 0x1C 4 o) (fun s c => s.readOpen c.sid c.t c.l.toNat 32) fun s c =>
    s.readRecord c c.l.toNat 32 32 fun s x =>
      let e := o.scope.toNat
      if x / 2 ^ 50 ≠ 0 then s.raise c.sid kSync 0x01 c.idx 0 0
      else if x % 2 ^ 32 = 0 then s.raise c.sid kSync 0x02 c.idx 0 0
      else
        let old := s.sedgeMaster (coreOf c.sid) c.t.ctx e
        let d := { Sedge.ofWord x with gen := old.gen + 1 + BitVec.ofNat 8 (c.w.changesBelow o.lsid.toNat e), valid := true }
        let d := { d with meet := d.meetOf }
        let s := s.updCtx c.t.ctx fun k => { k with resv := k.resv.put e c.sid }
        (s.updWin c.sid fun w => (w.post c.idx (.scopeSet e d)).resolve o.lsid.toNat c.idx c.at_).give c (.amo 0x1C 4 o) (.val (d.gen.zeroExtend 64))

/-- `scope.get` (R241). -/
def execScopeGet (o : AOp) (s : State) : Out :=
  s.run (.amo 0x1C 5 o) fun s c =>
    (s.updWin c.sid (·.resolve o.lsid.toNat c.idx c.at_)).give c (.amo 0x1C 5 o) (.val (s.sedge (coreOf c.sid) c.t.ctx o.scope.toNat).word)

/-- `scope.inv` (R240, R241). -/
def execScopeInv (o : AOp) (s : State) : Out :=
  s.run (.amo 0x1C 6 o) fun s c =>
    let e := o.scope.toNat
    let g := (s.sedgeMaster (coreOf c.sid) c.t.ctx e).gen + 1 + BitVec.ofNat 8 (c.w.changesBelow o.lsid.toNat e)
    let s := s.updCtx c.t.ctx fun k => { k with resv := k.resv.put e c.sid }
    (s.updWin c.sid fun w => (w.post c.idx (.scopeInv e)).resolve o.lsid.toNat c.idx c.at_).give c (.amo 0x1C 6 o) (.val (g.zeroExtend 64))

/-- `scope.gen` (R241): its wait for the acknowledgements stands in `State.gate`. -/
def execScopeGen (o : AOp) (s : State) : Out :=
  s.run (.amo 0x1C 7 o) fun s c =>
    (s.updWin c.sid (·.resolve o.lsid.toNat c.idx c.at_)).give c (.amo 0x1C 7 o)
      (.val ((s.sedgeMaster (coreOf c.sid) c.t.ctx o.scope.toNat).gen.zeroExtend 64))

/-- `ldb` (R103). -/
def execLdb (o : MOp) (s : State) : Out := s.load 0 1 o

/-- `ldbu` (R103). -/
def execLdbu (o : MOp) (s : State) : Out := s.load 1 1 o

/-- `ldh` (R103). -/
def execLdh (o : MOp) (s : State) : Out := s.load 2 2 o

/-- `ldhu` (R103). -/
def execLdhu (o : MOp) (s : State) : Out := s.load 3 2 o

/-- `ldw` (R103). -/
def execLdw (o : MOp) (s : State) : Out := s.load 4 4 o

/-- `ldwu` (R103). -/
def execLdwu (o : MOp) (s : State) : Out := s.load 5 4 o

/-- `ldd` (R103). -/
def execLdd (o : MOp) (s : State) : Out := s.load 6 8 o

/-- `stb` (R104). -/
def execStb (o : MOp) (s : State) : Out := s.store 0 1 o

/-- `sth` (R104). -/
def execSth (o : MOp) (s : State) : Out := s.store 1 2 o

/-- `stw` (R104). -/
def execStw (o : MOp) (s : State) : Out := s.store 2 4 o

/-- `std` (R104). -/
def execStd (o : MOp) (s : State) : Out := s.store 3 8 o

/-- `stqw` (R104, R106). -/
def execStqw (o : MOp) (s : State) : Out := s.store 5 4 o

/-- `stqd` (R104, R106). -/
def execStqd (o : MOp) (s : State) : Out := s.store 6 8 o

/-- `aadd` up to its commit (R246, R247). -/
def execAadd (o : AOp) (s : State) : Out := s.amo (.amo 0x1B 0 o) 0 o.lsid.toNat o.scope.toNat o.t0

/-- `aand` up to its commit (R246, R247). -/
def execAand (o : AOp) (s : State) : Out := s.amo (.amo 0x1B 1 o) 1 o.lsid.toNat o.scope.toNat o.t0

/-- `aor` up to its commit (R246, R247). -/
def execAor (o : AOp) (s : State) : Out := s.amo (.amo 0x1B 2 o) 2 o.lsid.toNat o.scope.toNat o.t0

/-- `axor` up to its commit (R246, R247). -/
def execAxor (o : AOp) (s : State) : Out := s.amo (.amo 0x1B 3 o) 3 o.lsid.toNat o.scope.toNat o.t0

/-- `amin` up to its commit (R246, R247). -/
def execAmin (o : AOp) (s : State) : Out := s.amo (.amo 0x1B 4 o) 4 o.lsid.toNat o.scope.toNat o.t0

/-- `amax` up to its commit (R246, R247). -/
def execAmax (o : AOp) (s : State) : Out := s.amo (.amo 0x1B 5 o) 5 o.lsid.toNat o.scope.toNat o.t0

/-- `aminu` up to its commit (R246, R247). -/
def execAminu (o : AOp) (s : State) : Out := s.amo (.amo 0x1B 6 o) 6 o.lsid.toNat o.scope.toNat o.t0

/-- `amaxu` up to its commit (R246, R247). -/
def execAmaxu (o : AOp) (s : State) : Out := s.amo (.amo 0x1B 7 o) 7 o.lsid.toNat o.scope.toNat o.t0

/-- `aswap` up to its commit (R246, R247). -/
def execAswap (o : AOp) (s : State) : Out := s.amo (.amo 0x1B 8 o) 8 o.lsid.toNat o.scope.toNat o.t0

/-- `acas` up to its commit (R246, R247). -/
def execAcas (o : A3Op) (s : State) : Out := s.amo (.amo3 9 o) 9 o.lsid.toNat o.scope.toNat o.t0

/-- `ainc` up to its commit (R246, R247). -/
def execAinc (o : AOp) (s : State) : Out := s.amo (.amo 0x1B 10 o) 10 o.lsid.toNat o.scope.toNat o.t0

/-- `abfa` up to its commit (R246, R247). -/
def execAbfa (o : A3Op) (s : State) : Out := s.amo (.amo3 11 o) 11 o.lsid.toNat o.scope.toNat o.t0

/-- `aaddw` up to its commit (R246, R247). -/
def execAaddw (o : AOp) (s : State) : Out := s.amo (.amo 0x1B 12 o) 12 o.lsid.toNat o.scope.toNat o.t0

/-- `acasw` up to its commit (R246, R247). -/
def execAcasw (o : A3Op) (s : State) : Out := s.amo (.amo3 13 o) 13 o.lsid.toNat o.scope.toNat o.t0

/-- `aincw` up to its commit (R246, R247). -/
def execAincw (o : AOp) (s : State) : Out := s.amo (.amo 0x1B 14 o) 14 o.lsid.toNat o.scope.toNat o.t0

/-- `fence.acq` (R241, R242). -/
def execFenceAcq (o : AOp) (s : State) : Out := s.fence 0 o

/-- `fence.rel` (R241, R242). -/
def execFenceRel (o : AOp) (s : State) : Out := s.fence 1 o

/-- `fence.ar` (R241, R242). -/
def execFenceAr (o : AOp) (s : State) : Out := s.fence 2 o

/-- `fence.sc` (R241, R242). -/
def execFenceSc (o : AOp) (s : State) : Out := s.fence 3 o

end Sys2Proof.Machine
end

