-- ==== Sys2Proof/Machine/VecCheck.lean ====
section
/-! DEFINITION. What a vector or tile instruction's format word must hold when it is dispatched (R44, R125, R152, R162, R179,
R186, R209 to R217, R250), and the steps and the delay class it takes in the lanes (R147, R176, R196). -/

namespace Sys2Proof.Machine

/-- The widest width among the used codes (R135). -/
def widest (v : View) (fw : Nat) : Nat :=
  let u := usedCodes v
  max (if u.1 then (fmtOf (fwSrc1 fw)).width else 0)
    (max (if u.2.1 then (fmtOf (fwSrc2 fw)).width else 0) (if u.2.2 then (fmtOf (fwDst fw)).width else 0))

/-- Whether the used codes, each valid, are of the kinds the operation accepts (R152, R179, R209 to R217, R250). -/
def kindsOk (v : View) (a b d : Fmt) (sameCodes : Bool) : Bool :=
  let oneKind := (a.isInt && b.isInt && d.isInt) || (a.isFlt && b.isFlt && d.isFlt)
  let ints := a.isInt && b.isInt && d.isInt
  match v with
  | .v 0x20 vop _ => if vop = 4 then ints else oneKind
  | .v 0x21 vop _ =>
    if vop = 0 ∨ vop = 5 ∨ vop = 6 then oneKind
    else if vop = 1 then ints
    else if vop = 7 then (a.isInt && d.isInt) || (a.isFlt && d.isFlt)
    else a.isFlt && d.isFlt
  | .v 0x22 vop _ =>
    if vop = 3 then a.isInt && d.isInt
    else if vop = 7 then (a.isInt && d.isInt) || (a.isFlt && d.isFlt)
    else ints
  | .v 0x23 vop _ =>
    if vop = 6 then a.isFlt && d.isInt && 10 ≤ d.width
    else if vop = 4 ∨ vop = 5 then a.isInt && b.isUInt && d.isInt
    else ints
  | .v 0x24 vop _ =>
    match vop with
    | 0 => !a.isBad && !d.isMx
    | 1 => (a.isInt || a.isFlt) && d.isMx
    | 2 => sameCodes
    | 3 => d.isInt
    | 7 => sameCodes
    | _ => b.isUInt && sameCodes
  | .v 0x25 _ _ => (a.isInt && b.isInt) || (a.isFlt && b.isFlt)
  | .v 0x26 vop _ =>
    if vop < 4 then (a.isInt && d.isInt) || (a.isFlt && d.isFlt)
    else if vop = 7 then a.isMx && d.isFlt
    else a.isInt && d.isInt
  | .v 0x27 vop _ =>
    if vop = 6 then ints
    else if vop = 7 then !b.isMx && !d.isMx
    else oneKind
  | .vm 0x2C vop _ => if vop = 6 then d.isMx else !d.isMx && ((vop != 2 && vop != 5) || b.isUInt)
  | .vm 0x2D vop _ => if vop = 6 then a.isMx else !a.isMx && ((vop != 2 && vop != 4) || b.isUInt)
  | .vm 0x2E vop _ =>
    b.isUInt && (match vop with | 0 => !d.isMx | 1 => !a.isMx | 2 => a.isInt || a.isFlt | _ => true)
  | _ => true

/-- The codes that a movement form requires to be equal (R152). -/
def sameCodes (v : View) (fw : Nat) : Bool :=
  match v with
  | .v 0x24 2 _ => fwSrc2 fw == fwSrc1 fw && fwDst fw == fwSrc1 fw
  | _ => fwDst fw == fwSrc1 fw

/-- Whether an operation uses FRND (R125): it rounds to a float or E8M0, or turns a float into an integer. `cellInt` is the kind
of the tile's cells for a tile form, and `win` whether a `vacc`'s window holds floats. -/
def usesFrnd (v : View) (a b d : Fmt) (cellInt win : Bool) : Bool :=
  match v with
  | .v 0x20 _ _ => d.isFlt
  | .v 0x21 _ _ => d.isFlt
  | .v 0x22 vop _ => vop == 7 && d.isFlt
  | .v 0x24 vop _ => (vop == 0 && !(a.isInt && d.isInt)) || vop == 1
  | .v 0x26 vop _ => vop < 4 && d.isFlt || vop == 7
  | .v 0x27 vop _ => if vop = 7 then !(b.isInt && d.isInt) else d.isFlt
  | .vm 0x2E 2 _ => a.isFlt || win
  | .tile 5 _ => a.isFlt
  | .tile 6 _ => d.isFlt || !cellInt
  | .tile 8 _ => !a.isInt
  | .tile 7 _ => !(cellInt && d.isInt)
  | .tile 9 _ => !(cellInt && d.isInt)
  | _ => false

/-- The instructions that require LGRP = 0 (R125). -/
def ungrouped : View → Bool
  | .vm 0x2C 3 _ => true
  | .vm 0x2D 3 _ => true
  | .tile pm _ => pm == 2 || pm == 3 || pm == 4 || pm == 7 || pm == 9
  | _ => false

/-- The groups that run beyond `v31` (R44): their first registers, under G registers each. -/
def groupBases (v : View) : List Nat :=
  match v with
  | .v maj vop o =>
    (if maj = 0x25 ∨ maj = 0x2B then [] else [o.vd.toNat]) ++ (if readsVs1 maj vop then [o.vs1.toNat] else []) ++
    (if readsVs2 maj vop then [o.vs2.toNat] else [])
  | .vx 0 o => [o.vs1.toNat]
  | .vm 0x2C vop o => if vop = 3 then [] else o.vd.toNat :: (if vop = 2 ∨ vop = 5 then [o.vi.toNat] else [])
  | .vm 0x2D vop o => if vop = 3 then [] else o.vd.toNat :: (if vop = 2 ∨ vop = 4 then [o.vi.toNat] else [])
  | .vm 0x2E vop o => o.vi.toNat :: (if vop = 3 then [] else [o.vd.toNat])
  | _ => []

/-- The codes that a tile form accepts under the cell type of its tile (R209, R211 to R213, R216); those of the other kind are left to
tile fault 0x04. -/
def tileKinds (v : View) (sh : Option Shape) (a b d : Fmt) : Bool :=
  let ints := a.isInt && b.isInt
  let flts := a.isFlt && b.isFlt
  match v with
  | .tile pm _ =>
    match pm with
    | 2 =>
      match sh.map (·.cell) with
      | some 0 => ints || (flts && a != fp64 && b != fp64)
      | some 1 => flts || (ints && a.width <= 32 && b.width <= 32)
      | some _ => true
      | none => ints || flts
    | 3 => a.isMx && b.isMx
    | 4 => a == fp64 && b == fp64
    | 5 => a.isInt || a.isFlt
    | 6 => d.isInt || d.isFlt
    | 7 => !d.isMx
    | 9 => !d.isMx
    | _ => true
  | _ => true

/-- The checks of R125 before those of the block, in their order: the sub-code of the first that fails. For a tile without a shape see
log 103. -/
def fmtWordBad (v : View) (fw : Nat) (sh : Option Shape) (win : Bool) : Option Nat :=
  let u := usedCodes v
  let a := fmtOf (fwSrc1 fw)
  let b := fmtOf (fwSrc2 fw)
  let d := fmtOf (fwDst fw)
  if fwReserved fw then some 0x01
  else if (u.1 && a.isBad) || (u.2.1 && b.isBad) || (u.2.2 && d.isBad) then some 0x02
  else if !(kindsOk v a b d (sameCodes v fw) && tileKinds v sh a b d) then some 0x03
  else if usesFrnd v a b d (match sh with | some x => x.cell == 1 | none => false) win && 6 ≤ fwFrnd fw then some 0x04
  else if (match v with | .tile 4 _ => fwSlices fw == 0 || 4 < fwSlices fw | _ => false) then some 0x05
  else if ungrouped v && fwLgrp fw != 0 then some 0x09
  else if (groupBases v).any fun r => 32 < r + fwGroup fw then some 0x06
  else none

/-- The registers that the block's instructions write, counted with group members (R44). -/
def Window.allDests (t : Strand) (w : Window) : List (Nat × Nat) := w.blk.views.flatMap fun kv => (kv.2.vdests (t.fw kv.2)).map fun r => (kv.1, r)

/-- The members VD+1 to VD+G−1 of the group that an instruction writes (R44); the registers of a segment load each stand in its code (R40). -/
def groupMembers (v : View) (fw : Nat) : List Nat := match v with | .vm 0x2C 3 _ => [] | _ => (v.vdests fw).drop 1

/-- The checks of R44 and R162 against the block. -/
def Window.groupBad (t : Strand) (w : Window) (idx : Nat) (v : View) (fw : Nat) (core : Core) (sid : Nat) : Option (Nat × Nat) :=
  let all := w.allDests t
  if !(v.vdests fw).isEmpty ∧ ((groupMembers v fw).any (fun r => !w.blk.hdr.vwmask.getLsbD r || all.any fun e => e.1 != idx && e.2 == r) ∨ 16 < (all.map (·.2)).eraseDups.length) then some (0x07, idx)
  else
    let others := (v.sdests fw).flatMap fun r => (w.swriters t r).filter fun k => k != idx && !(w.op k).nulled && ((w.op k).fired || core.inPipe sid k)
    match others with
    | [] => none
    | k :: _ => some (0x08, max idx k)

/-- The delay class of a lane operation and its rate in elements per lane (R176), as a number of steps for e elements of a
lane: integer rows by width, float rows by format. -/
def intClass (wm : Nat) : Nat := if wm ≤ 16 then 2 else if wm ≤ 32 then 3 else 4
def ceilDiv (a b : Nat) : Nat := if b = 0 then a else (a + b - 1) / b
def fltClass (fs : List Fmt) : Nat :=
  if fs.contains fp64 then 7 else if fs.contains fp32 then 5 else 4
def fltSteps (fs : List Fmt) (e rate : Nat) : Nat :=
  if fs.contains fp64 then 2 * e else if fs.contains fp32 then e else ceilDiv e rate

/-- The class and the execute steps of a vector instruction (R147, R148, R176, R196, R216), from n, the lane peak e, the number
of bytes that a memory form touches and the number of MX blocks with an active element. -/
def vecTiming (v : View) (fw n e bytes blocks : Nat) : Nat × Nat :=
  let a := fmtOf (fwSrc1 fw)
  let b := fmtOf (fwSrc2 fw)
  let d := fmtOf (fwDst fw)
  let wm := widest v fw
  let u := usedCodes v
  let fs := (if u.1 then [a] else []) ++ (if u.2.1 then [b] else []) ++ (if u.2.2 then [d] else [])
  let isF := fs.any fun f => f.isFlt || f.isMx || f.isE8
  let addRow := if isF then (fltClass fs, max 1 (fltSteps fs e (64 / wm))) else (intClass wm, max 1 (ceilDiv e (64 / wm)))
  let intRow := (intClass wm, max 1 (ceilDiv e (64 / wm)))
  let mulRow :=
    if isF then (fltClass fs, max 1 (fltSteps fs e (max 1 (1024 / (a.sigWidth * b.sigWidth)))))
    else
      let wide := max a.width b.width
      (if wide ≤ 16 then 3 else if wide ≤ 32 then 4 else 5, max 1 (ceilDiv e (max 1 (1024 / (a.width * b.width)))))
  let divRow := (6, e * (if !isF then ceilDiv wm 4 else if fs.contains fp64 then 11 else if fs.contains fp32 then 6 else 4))
  match v with
  | .v 0x20 vop _ => if vop < 3 then addRow else mulRow
  | .v 0x21 vop _ => if vop < 5 then divRow else addRow
  | .v 0x23 3 _ => mulRow
  | .v 0x24 vop _ =>
    match vop with
    | 1 => (addRow.1, addRow.2 + 2)
    | 0 => addRow
    | 2 => intRow
    | 3 => addRow
    | _ => (4, max 1 (ceilDiv e (64 / wm)))
  | .v 0x26 vop _ =>
    if vop = 1 then (addRow.1, max n 1)
    else if vop = 7 then (max 4 (fltClass [d]), 6 + blocks)
    else (max 4 addRow.1, addRow.2 + 8)
  | .v 0x27 vop _ => if vop = 2 ∨ vop = 3 then mulRow else addRow
  | .v 0x29 _ _ => (4, 1)
  | .v 0x2B _ _ => (2, max 1 (ceilDiv e 64))
  | .v _ _ _ => addRow
  | .vx _ _ => (4, 1)
  | .vm 0x2C vop o =>
    if vop = 0 ∨ vop = 4 ∨ vop = 6 then (2, max 1 (ceilDiv bytes 4096)) else if vop = 7 then (2, 1)
    else (2, max 1 (if vop = 3 then e * (o.vi.toNat + 1) else e))
  | .vm 0x2D vop o =>
    if vop = 0 ∨ vop = 5 ∨ vop = 6 then (2, max 1 (ceilDiv bytes 4096)) else (2, max 1 (if vop = 3 then e * (o.vi.toNat + 1) else e))
  | .vm _ _ _ => (2, max 1 e)
  | .tile _ _ => (4, max 1 (ceilDiv e (64 / wm)))
  | _ => (2, 1)

/-- The width that decides an element's lane: the widest used code; mask forms count mask bits (R147). -/
def laneWidth (v : View) (fw : Nat) : Nat :=
  match v with
  | .v 0x2B vop _ => if vop = 7 then (fmtOf (fwSrc1 fw)).width else 1
  | _ => widest v fw

/-- The n of a vector instruction (R137, R147, R148). -/
def Window.countOf (t : Strand) (w : Window) (v : View) (fw vb : Nat) : Nat :=
  match v with
  | .v 0x2B vop _ => if vop = 7 then w.count t vb (fwGroup fw) (fmtOf (fwSrc1 fw)).width else min (w.vlen t) (64 * vb)
  | .vx vop _ => if vop = 0 then w.count t vb (fwGroup fw) (widest v fw) else min (w.vlen t) (64 * vb)
  | .tile _ _ => w.count t vb 1 (widest v fw)
  | _ => w.count t vb (fwGroup fw) (widest v fw)

/-- The bytes that a packed or MX form touches (R178, R189, R196): of an MX form the whole segments that hold an active element (log 125). -/
def bytesTouched (v : View) (fw n : Nat) (act : Nat → Bool) : Nat :=
  match v with
  | .vm maj vop _ =>
    let f := fmtOf (if maj = 0x2D then fwSrc1 fw else fwDst fw)
    if vop = 6 then
      let k := if f.width = 8 then 3 else if f.width = 6 then 5 else 7
      128 * ((((List.range n).filter act).map fun j => j / 32 / k).eraseDups).length
    else (n * f.width + 7) / 8
  | _ => 0

/-- Whether an instruction writes a vector register or a mask (R279). -/
def writesReg (v : View) (fw : Nat) : Bool := !(v.vdests fw).isEmpty || !v.mdests.isEmpty

end Sys2Proof.Machine
end

