-- ==== Sys2Proof/Machine/Vector.lean ====
section
/-! DEFINITION. The vector arithmetic instructions (R151 to R175), the mask class (R147) and the single-element forms (R148,
R149). Each acts in the execute stage of the lane pipe, under the register length of its dispatch. -/

namespace Sys2Proof.Machine

/-- The operands of a vector instruction as it reads them (R138, R151): its format word, register length, n, the width of its
lanes, its mask, its source groups, its old destination group, its scale registers, and the scalar that stands for VS2. -/
structure VEnv where
  fw : Nat
  vb : Nat
  n : Nat
  wm : Nat
  mask : Nat
  a : Nat
  b : Nat
  old : Nat
  sa : Nat
  sb : Nat
  scalar : Option Nat

/-- The register length of a strand (R134): its grant at dispatch. -/
def Strand.vb (t : Strand) : Nat := vlenb t.grant

/-- The operands of a format V instruction. -/
def vEnv (t : Strand) (w : Window) (idx : Nat) (v : View) (o : VOp) (scalar : Option Nat) : VEnv :=
  let fw := t.fw v
  let vb := t.vb
  let g := fwGroup fw
  { fw := fw, vb := vb, n := w.countOf t v fw vb, wm := laneWidth v fw, mask := w.readM t o.msk.toNat idx,
    a := w.readGroup t o.vs1.toNat g vb idx, b := w.readGroup t o.vs2.toNat g vb idx, old := w.readGroup t o.vd.toNat g vb idx,
    sa := w.readS t (fwScla fw) idx, sb := w.readS t (fwSclb fw) idx, scalar := scalar }

/-- The scale byte of the block of element j (R120). -/
def scaleOf (sc j : Nat) : Nat := getBits sc (8 * (j / 32)) 8

/-- Formats and elements of an instruction. -/
def VEnv.f1 (e : VEnv) : Fmt := fmtOf (fwSrc1 e.fw)
def VEnv.f2 (e : VEnv) : Fmt := fmtOf (fwSrc2 e.fw)
def VEnv.fd (e : VEnv) : Fmt := fmtOf (fwDst e.fw)
def VEnv.aBits (e : VEnv) (j : Nat) : Nat := elem e.a e.f1.width j
def VEnv.bBits (e : VEnv) (j : Nat) : Nat := match e.scalar with | some x => x % 2 ^ e.f2.width | none => elem e.b e.f2.width j
def VEnv.aX (e : VEnv) (j : Nat) : XV := elemValue e.f1 (e.aBits j) (scaleOf e.sa j)
def VEnv.bX (e : VEnv) (j : Nat) : XV := elemValue e.f2 (e.bBits j) (scaleOf e.sb j)
def VEnv.cX (e : VEnv) (j : Nat) : XV := elemValue e.fd (elem e.old e.fd.width j) 0
def VEnv.aInt (e : VEnv) (j : Nat) : Int := intOf e.f1.signed e.f1.width (e.aBits j)
def VEnv.bInt (e : VEnv) (j : Nat) : Int := intOf e.f2.signed e.f2.width (e.bBits j)
def VEnv.active (e : VEnv) (j : Nat) : Bool := j < e.n && e.mask.testBit j
def VEnv.rdn (e : VEnv) : Bool := fwFrnd e.fw == 2

/-- An exact result delivered to DST (R153), with events. -/
def VEnv.put (e : VEnv) (draw : Nat) (x : XV) : Nat × Nat := putFmt e.fd (fwFrnd e.fw) (fwSat e.fw) draw x

/-- A value converted to DST (R160): from an integer under R114 or `round_to`, else as a float. -/
def convert (src dst : Fmt) (mode : Mode) (sat : Bool) (draw : Nat) (x : XV) : Nat × Nat :=
  match dst with
  | .int s w => if src.isInt then putFmt dst mode sat draw x else fltToInt s w mode draw x
  | _ => putFmt dst mode sat draw x

/-- The active elements of an instruction in ascending order, each with its draw and its events (R130, R151, R174); the
elements' bits below n, masked-off ones under MASKP. -/
def elemsLoop (t : Strand) (idx wd : Nat) (e : VEnv) (draws : Bool) (maskp : Bool) (op : Nat → Nat → Nat × Nat) (w : Window) : Nat × Window :=
  (List.range e.n).foldl (fun (st : Nat × Window) j =>
    if e.mask.testBit j then
      let d := if draws then st.2.drawIf t (fwFrnd e.fw) (laneOf e.vb e.wm j) else (0, st.2)
      let r := op j d.1
      (st.1 ||| (r.1 % 2 ^ wd) <<< (j * wd), d.2.eventMask idx r.2 j)
    else (st.1 ||| maskOff maskp e.old wd j <<< (j * wd), st.2)) (0, w)

/-- The tail of a destination of `total` bits above n elements of width wd (R137). -/
def withTail (old total n wd : Nat) (tailp : Bool) (low : Nat) : Nat :=
  (low ||| ((if tailp then ones total else old) >>> (n * wd)) <<< (n * wd)) % 2 ^ total

/-- A vector instruction that computes each element of VD by itself (R151). -/
def State.vecElems (s : State) (v : View) (o : VOp) (scalar : Bool) (draws : VEnv → Bool) (op : VEnv → Nat → Nat → Nat × Nat) : Out :=
  s.runVec v fun s c => s.updWin c.sid fun w =>
    let e := vEnv c.t w c.idx v o (if scalar then some c.l.toNat else none)
    let wd := e.fd.width
    let g := fwGroup e.fw
    let r := elemsLoop c.t c.idx wd e (draws e) (fwMask e.fw) (op e) w
    r.2.putGroup c.idx o.vd.toNat g e.vb (withTail e.old (8 * e.vb * g) e.n wd (fwTail e.fw) r.1)

/-- What an arithmetic operation makes of its elements (R154, R155): the exact result, its own events, and the operands whose
signalling NaNs raise `inv`. -/
abbrev ArithOp := Bool → XV → XV → XV → XV × Nat × List XV

/-- An arithmetic instruction (R153, R154, R155). -/
def State.vecArith (s : State) (v : View) (o : VOp) (scalar : Bool) (f : ArithOp) : Out :=
  s.vecElems v o scalar (fun e => e.fd.isFlt) fun e j draw =>
    let r := f e.rdn (e.aX j) (e.bX j) (e.cX j)
    let p := e.put draw r.1
    (p.1, p.2 ||| r.2.1 ||| sigInv r.2.2)

/-- The arithmetic operations of R154 on exact values. -/
def opAdd : ArithOp := fun z a b _ => (a.add z b, if a.addInvalid b then fINV else 0, [a, b])
def opSub : ArithOp := fun z a b _ => (a.add z b.flip, if a.addInvalid b.flip then fINV else 0, [a, b])
def opRsub : ArithOp := fun z a b _ => (b.add z a.flip, if b.addInvalid a.flip then fINV else 0, [a, b])
def opMul : ArithOp := fun _ a b _ => (a.mul b, if a.mulInvalid b then fINV else 0, [a, b])
def fused (z : Bool) (p c : XV) (bad : Bool) (ops : List XV) : XV × Nat × List XV := (c.add z p, if bad || c.addInvalid p then fINV else 0, ops)
def opMadd : ArithOp := fun z a b c => fused z (a.mul b) c (a.mulInvalid b) [a, b, c]
def opMsub : ArithOp := fun z a b c => fused z (a.mul b).flip c (a.mulInvalid b) [a, b, c]
def opNmadd : ArithOp := fun z a b c => fused z (a.mul b).flip c.flip (a.mulInvalid b) [a, b, c]
def opSqrt : ArithOp := fun _ a _ _ => (a.sqrt.1, a.sqrt.2, [a])
def opRsqrt : ArithOp := fun _ a _ _ => (a.rsqrt.1, a.rsqrt.2, [a])
def opRecip : ArithOp := fun _ a _ _ => (((XV.fin false 1 0).div a).1, ((XV.fin false 1 0).div a).2, [a])
def opMin : ArithOp := fun _ a b _ => (a.minNum b, 0, [a, b])
def opMax : ArithOp := fun _ a b _ => (a.maxNum b, 0, [a, b])
def opAbs : ArithOp := fun _ a _ _ => (a.abs, 0, [a])
def opNeg : ArithOp := fun _ a _ _ => (a.flip, 0, [a])

/-- `vdiv` (R154 to R156): a float quotient, or an integer one rounded toward zero, all ones with `dz` for b = 0. -/
def divElem (e : VEnv) (j draw : Nat) : Nat × Nat :=
  if e.f1.isInt then
    if e.bInt j = 0 then (ones e.fd.width, fDZ) else putInt e.fd.signed e.fd.width (fwSat e.fw) ((e.aInt j).tdiv (e.bInt j))
  else
    let q := (e.aX j).div (e.bX j)
    let p := e.put draw q.1
    (p.1, p.2 ||| q.2 ||| sigInv [e.aX j, e.bX j])

/-- `vrem` (R154, R156). -/
def remElem (e : VEnv) (j : Nat) : Nat × Nat :=
  if e.bInt j = 0 then
    let p := putInt e.fd.signed e.fd.width (fwSat e.fw) (e.aInt j)
    (p.1, p.2 ||| fDZ)
  else putInt e.fd.signed e.fd.width (fwSat e.fw) ((e.aInt j).tmod (e.bInt j))

/-- `vmulh` (R154): the floor of the product over 2^w. -/
def mulhElem (e : VEnv) (j : Nat) : Nat × Nat :=
  putInt e.fd.signed e.fd.width (fwSat e.fw) (e.aInt j * e.bInt j / (2 ^ e.fd.width : Nat))

/-- The pattern p(a) of R157, with b extended as SRC2 has it (log 104), and the count c. -/
def VEnv.pa (e : VEnv) (j : Nat) : Nat := bitsOfInt e.fd.width (e.aInt j)
def VEnv.pb (e : VEnv) (j : Nat) : Nat := bitsOfInt e.fd.width (e.bInt j)

/-- The shifts of R157 on a pattern of width w. -/
def shlBits (w p c : Nat) : Nat := if w ≤ c then 0 else (p <<< c) % 2 ^ w
def shrBits (w p c : Nat) : Nat := if w ≤ c then 0 else p >>> c
def sraBits (w p c : Nat) : Nat := bitsOfInt w (sintOf w p / (2 ^ min c w : Nat))

/-- A fixed-point operation (R132, R158). No result changes once the shift passes every bit of the exact integer, so a count
above 200 acts as 200. -/
def fixElem (e : VEnv) (v : Int) (d : Nat) (sat : Bool) : Nat × Nat := putInt e.fd.signed e.fd.width sat (fxShift (fwFxrnd e.fw) v (min d 200))

/-- A bitwise or other raw operation (R157, R163): no draw and no event. -/
def State.vecRaw (s : State) (v : View) (o : VOp) (scalar : Bool) (f : VEnv → Nat → Nat) : Out :=
  s.vecElems v o scalar (fun _ => false) fun e j _ => (f e j, 0)

/-- `vcvt` (R160). -/
def cvtElem (e : VEnv) (j draw : Nat) : Nat × Nat :=
  let r := convert e.f1 e.fd (fwFrnd e.fw) (fwSat e.fw) draw (e.aX j)
  (r.1, r.2 ||| sigInv [e.aX j])

/-- `vbcast` (R171). -/
def bcastElem (e : VEnv) (j draw : Nat) : Nat × Nat :=
  let r := convert e.f2 e.fd (fwFrnd e.fw) (fwSat e.fw) draw (e.bX j)
  (r.1, r.2 ||| sigInv [e.bX j])

/-- `emax` of an MX element format (R161). -/
def mxEmax (k : Nat) : Int := match k with | 0 => 8 | 1 => 15 | 2 => 4 | 3 => 2 | 4 => 2 | _ => 0

/-- The scale exponent that `vcvtmx` forms for a block (R161), from its largest magnitude; none when a value is NaN or infinite. -/
def mxScale (k : Nat) (xs : List XV) : Option Int :=
  if xs.any fun x => x.isNan || x.isInf then none
  else
    match xs.foldl (fun (m : XV) x => if m.lt x.abs then x.abs else m) (.fin false 0 0) with
    | .fin _ 0 _ => some 0
    | .fin _ m e => some (max (-127) (min 127 ((Nat.log2 m : Nat) + e - mxEmax k)))
    | _ => none

/-- A clamp raises `inx` and not `ovf` (R161). -/
def clampEvents (ev : Nat) : Nat := if ev &&& fOVF ≠ 0 then (ev ||| fOVF) - fOVF ||| fINX else ev

/-- An element of `vcvtmx` under its block's exponent (R161). -/
def mxElemPut (k : Nat) (mode : Mode) (draw : Nat) (x : XV) (ex : Int) : Nat × Nat :=
  match mxElem k with
  | .int _ _ =>
    let r := (x.scale (6 - ex)).toIntRnd mode draw
    if r.1 < -128 then (0x80, fINX) else if 127 < r.1 then (0x7F, fINX) else (bitsOfInt 8 r.1, if r.2 then fINX else 0)
  | .flt e m kk =>
    let r := roundTo e m kk mode true draw (x.scale (-ex))
    (r.1, clampEvents r.2)
  | _ => (0, 0)

/-- The MX code of a format. -/
def Fmt.mxCode : Fmt → Nat | .mx k => k | _ => 0

/-- `vcvtmx` (R161, R162): the elements and the scale bytes of their blocks. Under stochastic rounding each element of a finite block draws, a zero too (log 136,
DESIGN CHOICE). -/
def execVcvtmx (o : VOp) (s : State) : Out :=
  s.runVec (.v 0x24 1 o) fun s c => s.updWin c.sid fun w =>
    let e := vEnv c.t w c.idx (.v 0x24 1 o) o none
    let k := e.fd.mxCode
    let wd := e.fd.width
    let g := fwGroup e.fw
    let scale (b : Nat) : Option (Option Int) :=
      match (List.range 32).filter fun i => e.active (32 * b + i) with
      | [] => none
      | is => some (mxScale k (is.map fun i => e.aX (32 * b + i)))
    let op (j draw : Nat) : Nat × Nat :=
      match scale (j / 32) with
      | some (some ex) => let r := mxElemPut k (fwFrnd e.fw) draw (e.aX j) ex; (r.1, r.2 ||| sigInv [e.aX j])
      | _ => (0, if (e.aX j).isNan || (e.aX j).isInf then fINV else 0)
    let drawsAt (j : Nat) : Bool := match scale (j / 32) with | some (some _) => true | _ => false
    let r := (List.range e.n).foldl (fun (st : Nat × Window) j =>
      if e.mask.testBit j then
        let d := if drawsAt j then st.2.drawIf c.t (fwFrnd e.fw) (laneOf e.vb e.wm j) else (0, st.2)
        let x := op j d.1
        (st.1 ||| (x.1 % 2 ^ wd) <<< (j * wd), d.2.eventMask c.idx x.2 j)
      else (st.1 ||| maskOff (fwMask e.fw) e.old wd j <<< (j * wd), st.2)) (0, w)
    let sc := (List.range ((e.n + 31) / 32)).foldl (fun x b =>
      match scale b with
      | none => x
      | some none => setBits x (8 * b) 8 0xFF
      | some (some ex) => setBits x (8 * b) 8 (ex + 127).toNat) (w.readS c.t (fwScld e.fw) c.idx)
    (r.2.putGroup c.idx o.vd.toNat g e.vb (withTail e.old (8 * e.vb * g) e.n wd (fwTail e.fw) r.1)).putS c.idx (fwScld e.fw) sc

/-- A movement form that writes its whole group by a function of the element (R163): `keep` says which elements below n keep
their old bits. -/
def State.vecMove (s : State) (v : View) (o : VOp) (keep : VEnv → Nat → Bool) (f : VEnv → Nat → Nat) (maskless : Bool) : Out :=
  s.runVec v fun s c => s.updWin c.sid fun w =>
    let e := vEnv c.t w c.idx v o none
    let wd := e.fd.width
    let g := fwGroup e.fw
    let low := layElems wd e.n fun j =>
      if keep e j then elem e.old wd j else if maskless || e.mask.testBit j then f e j else maskOff (fwMask e.fw) e.old wd j
    w.putGroup c.idx o.vd.toNat g e.vb (withTail e.old (8 * e.vb * g) e.n wd (fwTail e.fw) low)

/-- Element 0 of VS2, read unsigned (R163). -/
def VEnv.k (e : VEnv) : Nat := elem e.b e.f2.width 0

/-- The active elements of VS1 in ascending order (R163). -/
def VEnv.actives (e : VEnv) : List Nat := (List.range e.n).filter fun j => e.mask.testBit j

/-- `vcompress` (R163). -/
def execVcompress (o : VOp) (s : State) : Out :=
  s.runVec (.v 0x24 7 o) fun s c => s.updWin c.sid fun w =>
    let e := vEnv c.t w c.idx (.v 0x24 7 o) o none
    let wd := e.fd.width
    let g := fwGroup e.fw
    let xs := e.actives.map e.aBits
    w.putGroup c.idx o.vd.toNat g e.vb (withTail e.old (8 * e.vb * g) xs.length wd (fwTail e.fw) (layElems wd xs.length fun j => xs.getD j 0))

/-- A compare (R164): the relation on two values that are no NaN, what it is for a NaN, and whether any NaN raises `inv`. -/
def State.vecCmp (s : State) (v : View) (o : VOp) (rel : XV → XV → Bool) (onNan quietInv : Bool) : Out :=
  s.runVec v fun s c => s.updWin c.sid fun w =>
    let e := vEnv c.t w c.idx v o none
    let total := 64 * e.vb
    let old := w.readM c.t o.vd.toNat c.idx
    let e := { e with old := old }
    let r := elemsLoop c.t c.idx 1 e false (fwMask e.fw) (fun j _ =>
      let a := e.aX j
      let b := e.bX j
      let nan := a.isNan || b.isNan
      ((if nan then onNan else rel a b).toNat, if quietInv && nan then fINV else sigInv [a, b])) w
    r.2.putM c.idx o.vd.toNat (withTail old total e.n 1 (fwTail e.fw) r.1)

/-- A mask form (R147). -/
def State.maskForm (s : State) (vop : Nat) (o : VOp) (f : Nat → Nat → Nat → Bool) : Out :=
  s.runVec (.v 0x2B vop o) fun s c => s.updWin c.sid fun w =>
    let v : View := .v 0x2B vop o
    let fw := c.t.fw v
    let vb := c.t.vb
    let n := w.countOf c.t v fw vb
    let total := 64 * vb
    let old := w.readM c.t o.vd.toNat c.idx
    let mk := w.readM c.t o.msk.toNat c.idx
    let a := if vop = 7 then w.readGroup c.t o.vs1.toNat (fwGroup fw) vb c.idx else w.readM c.t o.vs1.toNat c.idx
    let b := w.readM c.t o.vs2.toNat c.idx
    let wd := (fmtOf (fwSrc1 fw)).width
    let low := layElems 1 n fun j =>
      if mk.testBit j then (if vop = 7 then (elem a wd j != 0) else f a b j).toNat else maskOff (fwMask fw) old 1 j
    w.putM c.idx o.vd.toNat (withTail old total n 1 (fwTail fw) low)

/-- A reduction's one result at element 0 (R165): none leaves it to MASKP. -/
def VEnv.reduced (e : VEnv) (x : Option Nat) : Nat :=
  let wd := e.fd.width
  let low := match x with | some y => y % 2 ^ wd | none => maskOff (fwMask e.fw) e.old wd 0
  withTail e.old (8 * e.vb * fwGroup e.fw) 1 wd (fwTail e.fw) low

/-- A reduction, from its operands to its result and the block with its events and draws. -/
def State.vecReduce (s : State) (vop : Nat) (o : VOp) (scalar : Bool) (f : Strand → Nat → VEnv → Window → Option Nat × Window) : Out :=
  s.runVec (.v 0x26 vop o) fun s c => s.updWin c.sid fun w =>
    let e := vEnv c.t w c.idx (.v 0x26 vop o) o (if scalar then some c.l.toNat else none)
    let r := f c.t c.idx e w
    r.2.putGroup c.idx o.vd.toNat (fwGroup e.fw) e.vb (e.reduced r.1)

/-- A rounding of a reduction, charged to an element (R175): it draws from that element's lane, as R175 says of a tree addition and as the model chooses for
the others (log 122), whatever the value that it rounds (log 137, DESIGN CHOICE). -/
def VEnv.roundAt (e : VEnv) (t : Strand) (idx at_ : Nat) (w : Window) (x : XV) (ev : Nat) : Nat × Window :=
  let d := if e.fd.isFlt then w.drawIf t (fwFrnd e.fw) (laneOf e.vb e.wm at_) else (0, w)
  let r := e.put d.1 x
  (r.1, d.2.eventMask idx (r.2 ||| ev) at_)

/-- A node of the tree of `vrsum` (R166): its value, its lowest active leaf, whether it is still an unrounded leaf. -/
structure Node where
  x : XV
  leaf : Nat
  raw : Bool

/-- One level of the tree (R166, R175). -/
def VEnv.treeLevel (e : VEnv) (t : Strand) (idx : Nat) : List (Option Node) → Window → List (Option Node) × Window
  | some a :: some b :: rest, w =>
    let r := e.roundAt t idx a.leaf w (a.x.add e.rdn b.x) ((if a.x.addInvalid b.x then fINV else 0) ||| sigInv [a.x, b.x])
    let q := e.treeLevel t idx rest r.2
    (some { x := elemValue e.fd r.1 0, leaf := a.leaf, raw := false } :: q.1, q.2)
  | some a :: none :: rest, w => let q := e.treeLevel t idx rest w; (some a :: q.1, q.2)
  | none :: x :: rest, w => let q := e.treeLevel t idx rest w; (x :: q.1, q.2)
  | [x], w => ([x], w)
  | [], w => ([], w)

/-- The levels until one node remains. -/
def VEnv.tree (e : VEnv) (t : Strand) (idx : Nat) : Nat → List (Option Node) → Window → Option Node × Window
  | 0, l, w => (l.headD none, w)
  | k + 1, l, w =>
    match l with
    | [] => (none, w)
    | [x] => (x, w)
    | _ => let r := e.treeLevel t idx l w; e.tree t idx k r.1 r.2

/-- The sum of integers, exact, through R114 once (R165). -/
def VEnv.intSum (e : VEnv) (idx : Nat) (start : Int) (w : Window) : Nat × Window :=
  let r := putInt e.fd.signed e.fd.width (fwSat e.fw) (e.actives.foldl (fun a j => a + e.aInt j) start)
  (r.1, w.eventMask idx r.2 (e.actives.headD 0))

/-- `vrsum` (R166). -/
def rsumOf (t : Strand) (idx : Nat) (e : VEnv) (w : Window) : Option Nat × Window :=
  if e.actives.isEmpty then (none, w)
  else if e.f1.isInt then let r := e.intSum idx 0 w; (some r.1, r.2)
  else
    let leaves := (List.range e.n).map fun j => if e.mask.testBit j then some { x := e.aX j, leaf := j, raw := true : Node } else none
    match e.tree t idx (Nat.log2 e.n + 1) leaves w with
    | (some nd, w) =>
      if nd.raw then let r := e.roundAt t idx nd.leaf w nd.x (sigInv [nd.x]); (some r.1, r.2)
      else (some (putFmt e.fd 0 false 0 nd.x).1, w)
    | (none, w) => (none, w)

/-- `vrosum` (R167): integers exactly, floats rounding once for each element. -/
def rosumOf (t : Strand) (idx : Nat) (e : VEnv) (w : Window) : Option Nat × Window :=
  let start := (e.scalar.getD 0) % 2 ^ e.fd.width
  if e.f1.isInt then
    if e.actives.isEmpty then (some start, w)
    else let r := e.intSum idx (intOf e.fd.signed e.fd.width start) w; (some r.1, r.2)
  else
    let r := e.actives.foldl (fun (st : Nat × Window) j =>
      let acc := elemValue e.fd st.1 0
      e.roundAt t idx j st.2 (acc.add e.rdn (e.aX j)) ((if acc.addInvalid (e.aX j) then fINV else 0) ||| sigInv [acc, e.aX j])) (start, w)
    (some r.1, r.2)

/-- `vrmax` and `vrmin` (R168). -/
def rpickOf (f : XV → XV → XV) (t : Strand) (idx : Nat) (e : VEnv) (w : Window) : Option Nat × Window :=
  match e.actives with
  | [] => (none, w)
  | j :: js =>
    let x := js.foldl (fun x k => f x (e.aX k)) (e.aX j)
    let r := e.roundAt t idx j w x (sigInv ((j :: js).map e.aX))
    (some r.1, r.2)

/-- The bitwise reductions (R168). -/
def rbitsOf (f : Nat → Nat → Nat) (_t : Strand) (_idx : Nat) (e : VEnv) (w : Window) : Option Nat × Window :=
  match e.actives with
  | [] => (none, w)
  | j :: js => (some (js.foldl (fun x k => f x (e.pa k)) (e.pa j)), w)

/-- `vrsummx` (R169): a block whose scale is 0xFF reads as quiet NaN whatever its bits (R120); a sum of zeros keeps their sign where it is one
(R155), and one that cancels takes that of R126 (log 79). Infinities of both signs raise `inv` beside a quiet NaN too (log 105). -/
def rsummxOf (t : Strand) (idx : Nat) (e : VEnv) (w : Window) : Option Nat × Window :=
  let blocks := (List.range ((e.n + 31) / 32)).filter fun b => (List.range 32).any fun i => e.active (32 * b + i)
  let r := blocks.foldl (fun (st : Option Nat × Window) b =>
    let js := ((List.range 32).map fun i => 32 * b + i).filter e.active
    let raws := js.map fun j => mxRaw e.f1.mxCode (e.aBits j)
    let sum := (raws.drop 1).foldl (XV.add e.rdn) (raws.headD (.fin false 0 0))
    let lost := scaleOf e.sa (32 * b) == 255
    let inf := raws.any (fun x => x.isInf && !x.neg) && raws.any fun x => x.isInf && x.neg
    let x : XV := if lost then .nan false else sum.scale ((scaleOf e.sa (32 * b) : Int) - 127)
    let ev := if lost then 0 else (if inf then fINV else 0) ||| sigInv raws
    let at_ := js.headD 0
    match st.1 with
    | none => let r := e.roundAt t idx at_ st.2 x ev; (some r.1, r.2)
    | some acc =>
      let a := elemValue e.fd acc 0
      let r := e.roundAt t idx at_ st.2 (a.add e.rdn x) (ev ||| (if a.addInvalid x then fINV else 0))
      (some r.1, r.2)) (none, w)
  r

/-- A token for the front end at the end of the execute steps (R279). -/
def State.laneToken (s : State) (c : Ctx) (x : Tok) : State := s.updCore (coreOf c.sid) fun k => { k with ex := k.ex.map fun e => { e with tok := some x } }

/-- `vext` (R148). -/
def execVext (o : VXOp) (s : State) : Out :=
  s.runVec (.vx 0 o) fun s c =>
    let v : View := .vx 0 o
    let fw := c.t.fw v
    let f := fmtOf (fwSrc1 fw)
    let n := c.w.countOf c.t v fw c.t.vb
    let x := elem (c.w.readGroup c.t o.vs1.toNat (fwGroup fw) c.t.vb c.idx) f.width c.l.toNat
    s.laneToken c
      (if n ≤ c.l.toNat then .val 0
       else if !(c.w.readM c.t o.msk.toNat c.idx).testBit c.l.toNat then .null
       else .val (match f with | .int sg w => BitVec.ofInt 64 (intOf sg w x) | _ => BitVec.ofNat 64 x))

/-- The set bits that `mpop` and `mfirst` look at (R148). -/
def maskHits (c : Ctx) (o : VXOp) : List Nat :=
  let m := c.w.readM c.t o.vs1.toNat c.idx
  let k := c.w.readM c.t o.msk.toNat c.idx
  (List.range (min (c.w.vlen c.t) (64 * c.t.vb))).filter fun j => m.testBit j && k.testBit j

/-- `mpop` (R148). -/
def execMpop (o : VXOp) (s : State) : Out :=
  s.runVec (.vx 2 o) fun s c => s.laneToken c (.val (BitVec.ofNat 64 (maskHits c o).length))

/-- `mfirst` (R148). -/
def execMfirst (o : VXOp) (s : State) : Out :=
  s.runVec (.vx 3 o) fun s c => s.laneToken c (.val (match maskHits c o with | [] => -1 | j :: _ => BitVec.ofNat 64 j))

/-- `vcnt` (R148): its wait for the load's count stands in `State.gate`. -/
def execVcnt (o : VXOp) (s : State) : Out :=
  s.run (.vx 1 o) fun s c =>
    let hit := c.w.blk.views.findSome? fun kv =>
      match kv.2 with
      | .vm 0x2C vop p => if (vop = 4 ∨ vop = 7) ∧ p.lsid = o.vs1 then (c.w.counts.get? kv.1) else none
      | _ => none
    s.give c (.vx 1 o) (match hit with | some n => .val (BitVec.ofNat 64 n) | none => .null)

/-- `vins` (R149). -/
def execVins (o : VOp) (s : State) : Out :=
  s.runVec (.v 0x29 0 o) fun s c => s.updWin c.sid fun w =>
    let v : View := .v 0x29 0 o
    let fw := c.t.fw v
    let g := fwGroup fw
    let vb := c.t.vb
    let wd := (fmtOf (fwDst fw)).width
    let old := w.readGroup c.t o.vd.toNat g vb c.idx
    let i := c.r.toNat
    let new :=
      if w.countOf c.t v fw vb ≤ i then old
      else if !(w.readM c.t o.msk.toNat c.idx).testBit i then setBits old (i * wd) wd (maskOff (fwMask fw) old wd i)
      else setBits old (i * wd) wd c.l.toNat
    w.putGroup c.idx o.vd.toNat g vb new

/-- `vadd` (R154). -/
def execVadd (o : VOp) (s : State) : Out := s.vecArith (.v 0x20 0 o) o false opAdd

/-- `vsub` (R154). -/
def execVsub (o : VOp) (s : State) : Out := s.vecArith (.v 0x20 1 o) o false opSub

/-- `vrsub` (R154). -/
def execVrsub (o : VOp) (s : State) : Out := s.vecArith (.v 0x20 2 o) o false opRsub

/-- `vmul` (R154). -/
def execVmul (o : VOp) (s : State) : Out := s.vecArith (.v 0x20 3 o) o false opMul

/-- `vmulh` (R154). -/
def execVmulh (o : VOp) (s : State) : Out := s.vecElems (.v 0x20 4 o) o false (fun _ => false) fun e j _ => mulhElem e j

/-- `vmadd` (R154). -/
def execVmadd (o : VOp) (s : State) : Out := s.vecArith (.v 0x20 5 o) o false opMadd

/-- `vmsub` (R154). -/
def execVmsub (o : VOp) (s : State) : Out := s.vecArith (.v 0x20 6 o) o false opMsub

/-- `vnmadd` (R154). -/
def execVnmadd (o : VOp) (s : State) : Out := s.vecArith (.v 0x20 7 o) o false opNmadd

/-- `vdiv` (R154, R156). -/
def execVdiv (o : VOp) (s : State) : Out := s.vecElems (.v 0x21 0 o) o false (fun e => e.fd.isFlt) divElem

/-- `vrem` (R154, R156). -/
def execVrem (o : VOp) (s : State) : Out := s.vecElems (.v 0x21 1 o) o false (fun _ => false) fun e j _ => remElem e j

/-- `vsqrt` (R154, R155). -/
def execVsqrt (o : VOp) (s : State) : Out := s.vecArith (.v 0x21 2 o) o false opSqrt

/-- `vrsqrt` (R154, R155). -/
def execVrsqrt (o : VOp) (s : State) : Out := s.vecArith (.v 0x21 3 o) o false opRsqrt

/-- `vrecip` (R154, R155). -/
def execVrecip (o : VOp) (s : State) : Out := s.vecArith (.v 0x21 4 o) o false opRecip

/-- `vmin` (R154, R155). -/
def execVmin (o : VOp) (s : State) : Out := s.vecArith (.v 0x21 5 o) o false opMin

/-- `vmax` (R154, R155). -/
def execVmax (o : VOp) (s : State) : Out := s.vecArith (.v 0x21 6 o) o false opMax

/-- `vabs` (R154, R155). -/
def execVabs (o : VOp) (s : State) : Out := s.vecArith (.v 0x21 7 o) o false opAbs

/-- `vand` (R157). -/
def execVand (o : VOp) (s : State) : Out := s.vecRaw (.v 0x22 0 o) o false fun e j => e.pa j &&& e.pb j

/-- `vor` (R157). -/
def execVor (o : VOp) (s : State) : Out := s.vecRaw (.v 0x22 1 o) o false fun e j => e.pa j ||| e.pb j

/-- `vxor` (R157). -/
def execVxor (o : VOp) (s : State) : Out := s.vecRaw (.v 0x22 2 o) o false fun e j => e.pa j ^^^ e.pb j

/-- `vnot` (R157). -/
def execVnot (o : VOp) (s : State) : Out := s.vecRaw (.v 0x22 3 o) o false fun e j => ones e.fd.width - e.pa j

/-- `vshl` (R157). -/
def execVshl (o : VOp) (s : State) : Out := s.vecRaw (.v 0x22 4 o) o false fun e j => shlBits e.fd.width (e.pa j) (e.bBits j)

/-- `vshr` (R157). -/
def execVshr (o : VOp) (s : State) : Out := s.vecRaw (.v 0x22 5 o) o false fun e j => shrBits e.fd.width (e.pa j) (e.bBits j)

/-- `vsra` (R157). -/
def execVsra (o : VOp) (s : State) : Out := s.vecRaw (.v 0x22 6 o) o false fun e j => sraBits e.fd.width (e.pa j) (e.bBits j)

/-- `vneg` (R155, R157). -/
def execVneg (o : VOp) (s : State) : Out := s.vecArith (.v 0x22 7 o) o false opNeg

/-- `vsadd` (R158). -/
def execVsadd (o : VOp) (s : State) : Out := s.vecElems (.v 0x23 0 o) o false (fun _ => false) fun e j _ => fixElem e (e.aInt j + e.bInt j) 0 true

/-- `vssub` (R158). -/
def execVssub (o : VOp) (s : State) : Out := s.vecElems (.v 0x23 1 o) o false (fun _ => false) fun e j _ => fixElem e (e.aInt j - e.bInt j) 0 true

/-- `vaadd` (R158). -/
def execVaadd (o : VOp) (s : State) : Out := s.vecElems (.v 0x23 2 o) o false (fun _ => false) fun e j _ => fixElem e (e.aInt j + e.bInt j) 1 (fwSat e.fw)

/-- `vsmul` (R158). -/
def execVsmul (o : VOp) (s : State) : Out := s.vecElems (.v 0x23 3 o) o false (fun _ => false) fun e j _ => fixElem e (e.aInt j * e.bInt j) (if e.fd.signed then e.fd.width - 1 else e.fd.width) true

/-- `vnclip` (R158). -/
def execVnclip (o : VOp) (s : State) : Out := s.vecElems (.v 0x23 4 o) o false (fun _ => false) fun e j _ => fixElem e (e.aInt j) (e.bBits j) true

/-- `vnsra` (R158). -/
def execVnsra (o : VOp) (s : State) : Out := s.vecElems (.v 0x23 5 o) o false (fun _ => false) fun e j _ => fixElem e (e.aInt j) (e.bBits j) (fwSat e.fw)

/-- `vclass` (R159). -/
def execVclass (o : VOp) (s : State) : Out := s.vecRaw (.v 0x23 6 o) o false fun e j => (putInt e.fd.signed e.fd.width (fwSat e.fw) (classBit (e.aX j) (isSubnormal e.f1 (e.aBits j)))).1

/-- `vcvt` (R160). -/
def execVcvt (o : VOp) (s : State) : Out := s.vecElems (.v 0x24 0 o) o false (fun e => rounds e.f1 e.fd) cvtElem

/-- `vmerge` (R163). -/
def execVmerge (o : VOp) (s : State) : Out := s.vecMove (.v 0x24 2 o) o (fun _ _ => false) (fun e j => if e.mask.testBit j then e.bBits j else e.aBits j) true

/-- `vid` (R163). -/
def execVid (o : VOp) (s : State) : Out := s.vecMove (.v 0x24 3 o) o (fun _ _ => false) (fun _ j => j) false

/-- `vperm` (R163). -/
def execVperm (o : VOp) (s : State) : Out := s.vecMove (.v 0x24 4 o) o (fun _ _ => false) (fun e j => if e.bBits j < e.n then e.aBits (e.bBits j) else 0) false

/-- `vslup` (R163). -/
def execVslup (o : VOp) (s : State) : Out := s.vecMove (.v 0x24 5 o) o (fun e j => j < e.k) (fun e j => e.aBits (j - e.k)) false

/-- `vsldn` (R163). -/
def execVsldn (o : VOp) (s : State) : Out := s.vecMove (.v 0x24 6 o) o (fun _ _ => false) (fun e j => if j + e.k < e.n then e.aBits (j + e.k) else 0) false

/-- `vceq` (R164). -/
def execVceq (o : VOp) (s : State) : Out := s.vecCmp (.v 0x25 0 o) o (XV.eqv) false false

/-- `vcne` (R164). -/
def execVcne (o : VOp) (s : State) : Out := s.vecCmp (.v 0x25 1 o) o (fun a b => !a.eqv b) true false

/-- `vclt` (R164). -/
def execVclt (o : VOp) (s : State) : Out := s.vecCmp (.v 0x25 2 o) o (XV.lt) false true

/-- `vcle` (R164). -/
def execVcle (o : VOp) (s : State) : Out := s.vecCmp (.v 0x25 3 o) o (fun a b => !b.lt a) false true

/-- `vcgt` (R164). -/
def execVcgt (o : VOp) (s : State) : Out := s.vecCmp (.v 0x25 4 o) o (fun a b => b.lt a) false true

/-- `vcge` (R164). -/
def execVcge (o : VOp) (s : State) : Out := s.vecCmp (.v 0x25 5 o) o (fun a b => !a.lt b) false true

/-- `vcun` (R164). -/
def execVcun (o : VOp) (s : State) : Out := s.vecCmp (.v 0x25 6 o) o (fun _ _ => false) true false

/-- `vrsum` (R166). -/
def execVrsum (o : VOp) (s : State) : Out := s.vecReduce 0 o false rsumOf

/-- `vrosum` (R167). -/
def execVrosum (o : VOp) (s : State) : Out := s.vecReduce 1 o true rosumOf

/-- `vrmax` (R168). -/
def execVrmax (o : VOp) (s : State) : Out := s.vecReduce 2 o false (rpickOf XV.maxNum)

/-- `vrmin` (R168). -/
def execVrmin (o : VOp) (s : State) : Out := s.vecReduce 3 o false (rpickOf XV.minNum)

/-- `vrand` (R168). -/
def execVrand (o : VOp) (s : State) : Out := s.vecReduce 4 o false (rbitsOf (· &&& ·))

/-- `vror` (R168). -/
def execVror (o : VOp) (s : State) : Out := s.vecReduce 5 o false (rbitsOf (· ||| ·))

/-- `vrxor` (R168). -/
def execVrxor (o : VOp) (s : State) : Out := s.vecReduce 6 o false (rbitsOf (· ^^^ ·))

/-- `vrsummx` (R169). -/
def execVrsummx (o : VOp) (s : State) : Out := s.vecReduce 7 o false rsummxOf

/-- `vadds` (R171). -/
def execVadds (o : VOp) (s : State) : Out := s.vecArith (.v 0x27 0 o) o true opAdd

/-- `vsubs` (R171). -/
def execVsubs (o : VOp) (s : State) : Out := s.vecArith (.v 0x27 1 o) o true opSub

/-- `vmuls` (R171). -/
def execVmuls (o : VOp) (s : State) : Out := s.vecArith (.v 0x27 2 o) o true opMul

/-- `vmadds` (R171). -/
def execVmadds (o : VOp) (s : State) : Out := s.vecArith (.v 0x27 3 o) o true opMadd

/-- `vmins` (R171). -/
def execVmins (o : VOp) (s : State) : Out := s.vecArith (.v 0x27 4 o) o true opMin

/-- `vmaxs` (R171). -/
def execVmaxs (o : VOp) (s : State) : Out := s.vecArith (.v 0x27 5 o) o true opMax

/-- `vshls` (R157, R171). -/
def execVshls (o : VOp) (s : State) : Out := s.vecRaw (.v 0x27 6 o) o true fun e j => shlBits e.fd.width (e.pa j) (e.bBits j)

/-- `vbcast` (R171). -/
def execVbcast (o : VOp) (s : State) : Out := s.vecElems (.v 0x27 7 o) o true (fun e => rounds e.f2 e.fd) bcastElem

/-- `mand` (R147). -/
def execMand (o : VOp) (s : State) : Out := s.maskForm 0 o fun a b j => a.testBit j && b.testBit j

/-- `mor` (R147). -/
def execMor (o : VOp) (s : State) : Out := s.maskForm 1 o fun a b j => a.testBit j || b.testBit j

/-- `mxor` (R147). -/
def execMxor (o : VOp) (s : State) : Out := s.maskForm 2 o fun a b j => a.testBit j != b.testBit j

/-- `mandn` (R147). -/
def execMandn (o : VOp) (s : State) : Out := s.maskForm 3 o fun a b j => a.testBit j && !b.testBit j

/-- `mnot` (R147). -/
def execMnot (o : VOp) (s : State) : Out := s.maskForm 4 o fun a _ j => !a.testBit j

/-- `mset` (R147). -/
def execMset (o : VOp) (s : State) : Out := s.maskForm 5 o fun _ _ _ => true

/-- `mclr` (R147). -/
def execMclr (o : VOp) (s : State) : Out := s.maskForm 6 o fun _ _ _ => false

/-- `mfromv` (R147). -/
def execMfromv (o : VOp) (s : State) : Out := s.maskForm 7 o fun _ _ _ => false

end Sys2Proof.Machine
end

