-- ==== Sys2Proof/Machine/Counts.lean ====
section
/-! DEFINITION. The elements-available counter of a copy stream (R227, R228) and the count that a `vldcs` takes from it (R190). -/

namespace Sys2Proof.Machine

/-- The hull of a strided range: its first byte and the byte after its last, before any wrap (R226, R231). -/
def hullOf (base stride cnt cb : Nat) : Int × Int :=
  let s : Int := (cnt - 1 : Nat) * BitVec.toInt (BitVec.ofNat 64 stride)
  ((base : Int) + min 0 s, (base : Int) + max 0 s + cb)
def StreamRec.srcHull (r : StreamRec) : Int × Int := hullOf r.srcBase r.srcStride r.n r.cb
def StreamRec.dstHull (r : StreamRec) : Int × Int := hullOf r.dstBase r.dstStride (if r.red = 2 then r.strip else r.n) r.cb

/-- The addresses of a source element and of a destination element (R222), modulo 2^64; element k of the L under RED = 2. -/
def StreamRec.srcAt (r : StreamRec) (i : Nat) : Nat := (r.srcBase + i * r.srcStride) % 2 ^ 64
def StreamRec.dstAt (r : StreamRec) (i : Nat) : Nat := (r.dstBase + (if r.red = 2 then i % r.strip else i) * r.dstStride) % 2 ^ 64

/-- The number of strips, and the end of a strip (R222). -/
def StreamRec.strips (r : StreamRec) : Nat := (r.n + r.strip - 1) / r.strip
def StreamRec.stripEnd (r : StreamRec) (t : Nat) : Nat := min ((t + 1) * r.strip) r.n

/-- The first element of a strip, and the elements it has (R222). -/
def StreamRec.stripAt (r : StreamRec) (t : Nat) : Nat := t * r.strip
def StreamRec.stripLen (r : StreamRec) (t : Nat) : Nat := r.stripEnd t - r.stripAt t

/-- Of `n` elements from `i`, how many are written, or folded, before the first that is not. -/
def Stream.prefixOf (st : Stream) : Nat → Nat → Nat
  | 0, _ => 0
  | n + 1, i => if st.isWritten i then 1 + st.prefixOf n (i + 1) else 0

/-- The elements-available counter (R227, R228): the prefix of the current strip that is written, or folded, whatever earlier strips still lack. -/
def Stream.avail (st : Stream) : Nat := if st.state < 2 then 0 else st.prefixOf (st.desc.stripLen st.cur) (st.desc.stripAt st.cur)

/-- The count of a `vldcs` that its stream now fixes (R190): none while it waits. -/
def Stream.fixes (st : Stream) (n : Nat) : Option Nat :=
  if st.state < 2 then some 0
  else if st.desc.red = 2 then
    match st.state with
    | 3 => some (min n st.desc.strip)
    | 2 => none
    | _ => some 0
  else if n ≤ st.avail then some n
  else if st.state ≠ 2 ∨ st.desc.stripLen st.cur ≤ st.avail then some (min n st.avail)
  else none

/-- A waiting `vldcs` takes its count and its elements: the active ones among the first c of the current strip at the destination,
or of all of it under RED = 2 (R190). The current strip is the one that is current as the count is fixed (log 124). -/
def Access.fixCount (a : Access) (st : Stream) (c : Nat) : Access :=
  let w := (fmtOf (fwDst a.fw)).width
  let d := st.desc
  let base := if d.red = 2 then 0 else st.cur * d.strip
  let ps : List Part := ((List.range c).filter a.data2.testBit).map fun j =>
    { key := j, va := d.dstAt (base + j), bit := 0, w := w, size := contBytes w }
  { a with cut := c, parts := ps }

/-- A waiting `vldcs` of a running block whose stream now fixes its count takes it. Nothing probes its pages: a byte of one that translates no
longer reads as 0 (log 83). Bytes that an `mst` of a lower LSID writes are tile fault 0x06, and those of an atomic sync fault 0x07, as the count is fixed, if the
`mst` or the atomic has been accepted by then (R204, R249, log 107). -/
def State.fixVldcs (s : State) (sid idx : Nat) : State :=
  let core := coreOf sid
  match s.strand? sid with
  | none => s
  | some t =>
    match t.win.bind fun w => w.accs.get? idx with
    | none => s
    | some a =>
      let st := (s.core core).stream a.data
      if (match t.win with | some w => w.counts.has idx | none => true) then s
      else
        match st.fixes a.n with
        | none => s
        | some c =>
          let a := a.fixCount st c
          let r := s.xlateAll core t.asid.toNat (s.rootOf t.ctx) (partPages a.parts) []
          let pas := (a.parts.flatMap Part.bytes).filterMap (physOf core r.1)
          let bad (p : Window → Bool) : Bool := t.win.any p
          let s := if bad (·.atomicOver a.lsid pas) then r.2.raise sid kSync 0x07 idx 0 0
            else if bad (·.tileOver core a.lsid pas) then r.2.raise sid kTile 0x06 idx 0 0 else r.2
          s.updWin sid fun w => { w with accs := w.accs.put idx { a with xl := r.1, segs := segsOf core r.1 64 a.parts }, counts := w.counts.put idx c }

end Sys2Proof.Machine
end

