-- ==== Sys2Proof/Machine/VecMem.lean ====
section
/-! DEFINITION. The vector memory instructions (R178 to R190) and the linked gather, the conditional scatter, the window
accumulation and the vector wait (R250 to R256), up to the commit of their block. -/

namespace Sys2Proof.Machine

/-- The operands of a vector memory instruction as it reads them (R138, R178 to R180). -/
structure MEnv where
  fw : Nat
  vb : Nat
  n : Nat
  mask : Nat
  w : Nat
  cb : Nat
  iw : Nat
  vd : Nat
  vi : Nat

/-- The operands of a form whose element code is SRC1 (stores) or DST (loads). -/
def mEnv (t : Strand) (w : Window) (idx : Nat) (v : View) (o : VMOp) (store : Bool) (mask : Nat) : MEnv :=
  let fw := t.fw v
  let f := fmtOf (if store then fwSrc1 fw else fwDst fw)
  let g := fwGroup fw
  { fw := fw, vb := t.vb, n := w.countOf t v fw t.vb, mask := mask, w := f.width, cb := contBytes f.width, iw := (fmtOf (fwSrc2 fw)).width,
    vd := w.readGroup t o.vd.toNat g t.vb idx, vi := w.readGroup t o.vi.toNat g t.vb idx }

/-- The active elements in ascending order. -/
def MEnv.actives (e : MEnv) : List Nat := (List.range e.n).filter fun j => e.mask.testBit j

/-- The parts of a packed form, of a contained one by its addresses, and of a segment form (R178, R180). -/
def MEnv.packed (e : MEnv) (b : Nat) : List Part :=
  e.actives.map fun j => { key := j, va := (b + j * e.w / 8) % 2 ^ 64, bit := j * e.w % 8, w := e.w, size := (j * e.w % 8 + e.w + 7) / 8 }
def MEnv.contained (e : MEnv) (addr : Nat → Nat) : List Part :=
  e.actives.map fun j => { key := j, va := addr j % 2 ^ 64, bit := 0, w := e.w, size := e.cb }
def MEnv.fields (e : MEnv) (b f : Nat) : List Part :=
  e.actives.flatMap fun j => (List.range f).map fun k => { key := j * 8 + k, va := (b + (j * f + k) * e.cb) % 2 ^ 64, bit := 0, w := e.w, size := e.cb }

/-- The indexed addresses (R180). -/
def MEnv.indexed (e : MEnv) (b j : Nat) : Nat := b + elem e.vi e.iw j

/-- The blocks of an MX segment, by element width, and where a block and its scale lie in it (R121, R189). -/
def mxPer (w : Nat) : Nat := if w = 8 then 3 else if w = 6 then 5 else 7
def mxScaleByte (w : Nat) : Nat := if w = 8 then 96 else if w = 6 then 120 else 112
def MEnv.mxSeg (e : MEnv) (b j : Nat) : Nat := b + 128 * (j / 32 / mxPer e.w)
def MEnv.mxPart (e : MEnv) (b j : Nat) : Part :=
  let pos := (j / 32 % mxPer e.w) * 32 * e.w + j % 32 * e.w
  { key := j, va := (e.mxSeg b j + pos / 8) % 2 ^ 64, bit := pos % 8, w := e.w, size := (pos % 8 + e.w + 7) / 8 }
def MEnv.mxBlocks (e : MEnv) : List Nat := (e.actives.map (· / 32)).eraseDups
def MEnv.mxScaleAt (e : MEnv) (b β : Nat) : Nat := (b + 128 * (β / mxPer e.w) + mxScaleByte e.w + β % mxPer e.w) % 2 ^ 64

/-- The first element whose container is misaligned (R181). -/
def misaligned (cb : Nat) (ps : List Part) : Option Nat := (ps.find? fun p => p.va % cb != 0).map (·.va)

/-- An access of a vector form is under way, or its alignment fault is recorded (R181). -/
def State.vecAccess (s : State) (c : Ctx) (bad : Option Nat) (a : Access) : State :=
  match bad with
  | some va => s.raise c.sid kAlign 0 c.idx va a.acc
  | none => s.updWin c.sid fun w => { w with accs := w.accs.put c.idx { a with sent := c.at_ } }

/-- The alignment of a packed form (R181), which a form with no active element does not check (log 81); for a `vldff` the fault comes wherever its lowest active
element stands (log 140, DESIGN CHOICE). -/
def MEnv.packedBad (e : MEnv) (b : Nat) : Option Nat := if e.w % 8 = 0 ∧ b % e.cb ≠ 0 ∧ !e.actives.isEmpty then some b else none

/-- The alignment of a strided form (R181). Where only the stride is misaligned, the address recorded is the first active element's (log 123). -/
def MEnv.strideBad (e : MEnv) (stride : Nat) (ps : List Part) : Option Nat :=
  match misaligned e.cb ps with
  | some va => some va
  | none => if stride % e.cb ≠ 0 ∧ !ps.isEmpty then some ((ps.headD default).va) else none

/-- A load access with what its instruction fixed. -/
def MEnv.loadAcc (e : MEnv) (lsid place : Nat) (ps : List Part) : Access :=
  { Access.new lsid 0 place ps with fw := e.fw, n := e.n, vlenb := e.vb, cut := e.n }

/-- A store access: its parts, and the bytes they write in ascending order of elements (R187). -/
def MEnv.storeAcc (e : MEnv) (lsid : Nat) (ps : List Part) (whole : Bool) (val : Nat → Nat) : Access :=
  { Access.new lsid 1 1 ps with
    fw := e.fw, n := e.n, vlenb := e.vb, data := e.vd,
    out := ps.foldl (fun m p => putField m p.va p.bit (if whole then 8 * p.size else p.w) (val p.key) p.size) [] }

/-- A vector load whose parts are a function of its operands and its tokens. -/
def State.vecLoad (s : State) (vop : Nat) (o : VMOp) (f : MEnv → Ctx → Option Nat × Access) : Out :=
  s.runVec (.vm 0x2C vop o) fun s c =>
    let e := mEnv c.t c.w c.idx (.vm 0x2C vop o) o false (c.w.readM c.t o.msk.toNat c.idx)
    s.vecAccess c (f e c).1 (f e c).2

/-- A vector store likewise. -/
def State.vecStore (s : State) (vop : Nat) (o : VMOp) (f : MEnv → Ctx → Option Nat × Access) : Out :=
  s.runVec (.vm 0x2D vop o) fun s c =>
    let e := mEnv c.t c.w c.idx (.vm 0x2D vop o) o true (c.w.readM c.t o.msk.toNat c.idx)
    s.vecAccess c (f e c).1 (f e c).2

/-- What R193 says of the dies of a packed form: its base moves each granule of 256 bytes whole where it is a multiple of 256. -/
def packedRoute (b : Nat) : Option Nat := if b % 256 = 0 then some (b / 256 % 8) else none

/-- `vld` (R184): packed. -/
def execVld (o : VMOp) (s : State) : Out :=
  s.vecLoad 0 o fun e c => (e.packedBad c.l.toNat, { e.loadAcc o.lsid.toNat 1 (e.packed c.l.toNat) with route := packedRoute c.l.toNat })

/-- `vlds` (R184): contained, with a stride; one of more than 64 bytes allocates gathered lines (R194). -/
def execVlds (o : VMOp) (s : State) : Out :=
  s.vecLoad 1 o fun e c =>
    let ps := e.contained fun j => c.l.toNat + j * c.r.toNat
    (e.strideBad c.r.toNat ps, { e.loadAcc o.lsid.toNat 1 ps with gath := if 64 < c.r.toInt.natAbs then some c.r.toNat else none })

/-- `vldx` (R184): contained, indexed. -/
def execVldx (o : VMOp) (s : State) : Out :=
  s.vecLoad 2 o fun e c =>
    let ps := e.contained (e.indexed c.l.toNat)
    (misaligned e.cb ps, e.loadAcc o.lsid.toNat 1 ps)

/-- `vldseg` (R184, R186). -/
def execVldseg (o : VMOp) (s : State) : Out :=
  s.vecLoad 3 o fun e c =>
    let ps := e.fields c.l.toNat (o.vi.toNat + 1)
    (misaligned e.cb ps, e.loadAcc o.lsid.toNat 1 ps)

/-- `vldff` (R188): packed, trimmed at the first element that fails; a misaligned base is a fault of the whole (log 140, DESIGN CHOICE). -/
def execVldff (o : VMOp) (s : State) : Out :=
  s.vecLoad 4 o fun e c => (e.packedBad c.l.toNat, { e.loadAcc o.lsid.toNat 1 (e.packed c.l.toNat) with route := packedRoute c.l.toNat })

/-- `vldxo` (R184, R192): as `vldx`, its segments in ascending order of elements. -/
def execVldxo (o : VMOp) (s : State) : Out :=
  s.vecLoad 5 o fun e c =>
    let ps := e.contained (e.indexed c.l.toNat)
    (misaligned e.cb ps, { e.loadAcc o.lsid.toNat 1 ps with ordered := true })

/-- `vldmx` (R189): the elements and the scale byte of each block with an active element, by segments of 128 bytes. -/
def execVldmx (o : VMOp) (s : State) : Out :=
  s.vecLoad 6 o fun e c =>
    let ps := e.actives.map (e.mxPart c.l.toNat) ++
      e.mxBlocks.map fun β => { key := 2 ^ 40 + β, va := e.mxScaleAt c.l.toNat β, bit := 0, w := 8, size := 1 }
    (if c.l.toNat % 128 ≠ 0 ∧ !ps.isEmpty then some c.l.toNat else none, { e.loadAcc o.lsid.toNat 1 ps with unit := 128 })

/-- `vldcs` (R190): it waits for its stream, which fixes its count. -/
def execVldcs (o : VMOp) (s : State) : Out :=
  let v : View := .vm 0x2C 7 o
  s.runVec v fun s c =>
    let e := mEnv c.t c.w c.idx v o false (c.w.readM c.t o.msk.toNat c.idx)
    (s.vecAccess c none { e.loadAcc o.lsid.toNat 1 [] with phase := .reading, data := o.vi.toNat % 8, data2 := e.mask }).fixVldcs c.sid c.idx

/-- `vst` (R185): packed; only the elements' own bits change. -/
def execVst (o : VMOp) (s : State) : Out :=
  s.vecStore 0 o fun e c =>
    (e.packedBad c.l.toNat, { e.storeAcc o.lsid.toNat (e.packed c.l.toNat) false (elem e.vd e.w) with route := packedRoute c.l.toNat })

/-- `vsts` (R185). -/
def execVsts (o : VMOp) (s : State) : Out :=
  s.vecStore 1 o fun e c =>
    let ps := e.contained fun j => c.l.toNat + j * c.r.toNat
    (e.strideBad c.r.toNat ps, e.storeAcc o.lsid.toNat ps true (elem e.vd e.w))

/-- `vstx` (R185). -/
def execVstx (o : VMOp) (s : State) : Out :=
  s.vecStore 2 o fun e c =>
    let ps := e.contained (e.indexed c.l.toNat)
    (misaligned e.cb ps, e.storeAcc o.lsid.toNat ps true (elem e.vd e.w))

/-- `vstseg` (R185, R186). -/
def execVstseg (o : VMOp) (s : State) : Out :=
  s.vecStore 3 o fun e c =>
    let ps := e.fields c.l.toNat (o.vi.toNat + 1)
    let reg (k : Nat) : Nat := c.w.readV c.t (o.vd.toNat + k % 8) c.idx
    (misaligned e.cb ps, e.storeAcc o.lsid.toNat ps true fun k => elem (reg k) e.w (k / 8))

/-- `vstxo` (R185, R192). -/
def execVstxo (o : VMOp) (s : State) : Out :=
  s.vecStore 4 o fun e c =>
    let ps := e.contained (e.indexed c.l.toNat)
    (misaligned e.cb ps, { e.storeAcc o.lsid.toNat ps true (elem e.vd e.w) with ordered := true })

/-- `vsto` (R185, R192). -/
def execVsto (o : VMOp) (s : State) : Out :=
  s.vecStore 5 o fun e c =>
    (e.packedBad c.l.toNat, { e.storeAcc o.lsid.toNat (e.packed c.l.toNat) false (elem e.vd e.w) with ordered := true })

/-- `vstmx` (R189): the active elements' fields, the scale bytes from the register that SCLA names, zero in the unused bytes. -/
def execVstmx (o : VMOp) (s : State) : Out :=
  s.vecStore 6 o fun e c =>
    let b := c.l.toNat
    let sc := c.w.readS c.t (fwScla e.fw) c.idx
    let segs := (e.actives.map (e.mxSeg b)).eraseDups
    let unused := mxScaleByte e.w + mxPer e.w
    let m := e.actives.foldl (fun m j => let p := e.mxPart b j; putField m p.va p.bit e.w (elem e.vd e.w j) p.size) ([] : NMap BByte)
    let m := e.mxBlocks.foldl (fun m β => putField m (e.mxScaleAt b β) 0 8 (scaleOf sc (32 * β)) 1) m
    let m := segs.foldl (fun m g => putField m ((g + unused) % 2 ^ 64) 0 (8 * (128 - unused)) 0 (128 - unused)) m
    let ps : List Part := segs.map fun g => { key := g, va := g % 2 ^ 64, bit := 0, w := 0, size := 128 }
    (if b % 128 ≠ 0 ∧ !ps.isEmpty then some b else none,
     { Access.new o.lsid.toNat 1 1 ps with fw := e.fw, n := e.n, vlenb := e.vb, out := m, unit := 128 })

/-- `vgl` (R251): as `vldx`; its segment reads set links. -/
def execVgl (o : VMOp) (s : State) : Out :=
  s.runVec (.vm 0x2E 0 o) fun s c =>
    let e := mEnv c.t c.w c.idx (.vm 0x2E 0 o) o false (c.w.readM c.t o.msk.toNat c.idx)
    let ps := e.contained (e.indexed c.l.toNat)
    s.vecAccess c (misaligned e.cb ps) (e.loadAcc o.lsid.toNat 2 ps)

/-- `vsc` (R252): its elements are taken when its probe has passed. -/
def execVsc (o : VMOp) (s : State) : Out :=
  s.runVec (.vm 0x2E 1 o) fun s c =>
    let e := mEnv c.t c.w c.idx (.vm 0x2E 1 o) o true (c.w.readM c.t o.msk.toNat c.idx)
    let ps := e.contained (e.indexed c.l.toNat)
    s.vecAccess c (misaligned e.cb ps) { e.storeAcc o.lsid.toNat ps true (elem e.vd e.w) with place := 2, out := [] }

/-- The window that a `vacc` uses (R254). -/
def State.windowFor (s : State) (c : Ctx) : Option (Nat × Dword × Dword) := s.windowOf c.sid c.t c.w c.idx

/-- The accepted updates of a `vacc` (R254): for each active element within the window, its lane group, its index, its bits and its
draw; elements beyond raise `inv`. -/
def vaccUpdates (c : Ctx) (o : VMOp) (e : MEnv) (d : Dword) (w : Window) : List VUpdate × Window :=
  let src := fmtOf (fwSrc1 e.fw)
  let wm := widest (.vm 0x2E 2 o) e.fw
  let draws := (winFmt d).isFlt || src.isFlt
  e.actives.foldl (fun (st : List VUpdate × Window) j =>
    let i := elem e.vi e.iw j
    if winCount d ≤ i then (st.1, st.2.event c.idx 0 j)
    else
      let lane := laneOf e.vb wm j
      let r := if draws then st.2.drawIf c.t (fwFrnd e.fw) lane else (0, st.2)
      (st.1 ++ [{ elem := j, group := lane / 4, index := i, bits := elem e.vd e.w j, draw := r.1, fw := e.fw }], r.2)) ([], w)

/-- `vacc` (R254): its updates are fixed, and perform after commit. -/
def execVacc (o : VMOp) (s : State) : Out :=
  s.runVec (.vm 0x2E 2 o) fun s c =>
    match s.windowFor c with
    | none => s.raise c.sid kSync 0x06 c.idx 0 0
    | some (q, _, d) =>
      let e := mEnv c.t c.w c.idx (.vm 0x2E 2 o) o true (c.w.readM c.t o.msk.toNat c.idx)
      s.updWin c.sid fun w =>
        let r := vaccUpdates c o e d w
        (r.2.post c.idx (.vacc o.lsid.toNat r.1 q)).resolve o.lsid.toNat c.idx c.at_

/-- `vwait` (R256): its watches are armed when its probe has passed. -/
def execVwait (o : VMOp) (s : State) : Out :=
  s.runVec (.vm 0x2E 3 o) fun s c =>
    let v : View := .vm 0x2E 3 o
    let e := mEnv c.t c.w c.idx v o false (c.w.readM c.t o.msk.toNat c.idx)
    let ps := e.actives.map fun j => { key := j, va := e.indexed c.l.toNat j % 2 ^ 64, bit := 0, w := 8, size := 1 : Part }
    s.vecAccess c none (e.loadAcc o.lsid.toNat 1 ps)

end Sys2Proof.Machine
end

