-- ==== Sys2Proof/Machine/Pipe.lean ====
section
/-! DEFINITION. The units of a core that take instructions from its front end (R96, R102, R279, R280, R324, R337): the lane pipe
from dispatch to its tokens and reports, the dividers, the gating of lane slices. -/

namespace Sys2Proof.Machine

/-- An instruction whose waits have ended by quantum `by_` (R69): it fires in a step that begins then; beside a fault of the step in progress
it still does, and the record chooses between them (R76). -/
def State.canFire (s : State) (sid : Nat) (t : Strand) (w : Window) (idx : Nat) (v : View) (by_ : Nat) : Bool :=
  let fe := (s.core (coreOf sid)).fe
  t.runs && (if fe.stepping s.now then w.live fe.stop else w.fault.isNone) && !(w.op idx).fired && (w.op idx).tokensBy v by_ &&
  s.allows sid t w idx v && !(s.core (coreOf sid)).inPipe sid idx

/-- The strands of a core with their running blocks. -/
def State.running (s : State) (core : Nat) : List (Nat × Strand × Window) :=
  s.strands.filterMap fun kv => if coreOf kv.1 = core then kv.2.win.map fun w => (kv.1, kv.2, w) else none

/-- Every instruction of a core that fires in a step beginning at `by_`. -/
def State.readySet (s : State) (core by_ : Nat) : List (Nat × Nat × View) :=
  (s.running core).flatMap fun x =>
    x.2.2.blk.views.filterMap fun kv => if s.canFire x.1 x.2.1 x.2.2 kv.1 kv.2 by_ then some (x.1, kv.1, kv.2) else none

/-- The divides and the float divides (R96, R102). -/
def View.isDivide : View → Bool
  | .g 0x10 x _ => 5 ≤ x && x ≤ 8
  | _ => false
def View.isFDivide : View → Bool
  | .g 0x17 x _ => x == 3 || x == 4 || x == 8
  | .g 0x18 x _ => x == 3 || x == 4 || x == 8
  | _ => false

/-- The delay class of an instruction in the front end (R96, R102, R278). -/
def feClass (v : View) : Nat :=
  match v with
  | .g 0x10 x _ => if 2 ≤ x ∧ x ≤ 8 then 4 else 2
  | .it 0x16 x _ => if x = 4 then 4 else 2
  | .g 0x17 x _ => if x = 3 ∨ x = 4 ∨ x = 8 then 6 else 5
  | .g3 0x17 _ _ => 5
  | .g 0x18 _ _ => 6
  | .g3 0x18 _ _ => 6
  | _ => 2

/-- The strand whose lane instructions may be dispatched (R279, R324): each strand's lowest index, with the lane steps it has
waited, the one since which it has, and how many promoted ones of its strand that had waited as long have gone. -/
structure Cand where
  c : Ctx
  v : View
  prio : Nat
  wait : Nat
  since : Nat
  gone : Nat

/-- The promoted instructions of a strand context that have gone and that had waited since a lane step (R324), and their number with one that goes now. -/
def Core.lateGone (k : Core) (ctxn since : Nat) : Nat := match k.late.get? ctxn with | some (q, n) => if q = since then n else 0 | none => 0
def Cand.lates (x : Cand) (m : NMap (Nat × Nat)) : NMap (Nat × Nat) := if 64 ≤ x.wait then m.put (ctxnOf x.c.sid) (x.since, x.gone + 1) else m

/-- The lane steps an instruction has waited since the step in which it fired (R324). -/
def Window.waited (w : Window) (idx steps : Nat) : Nat := steps - w.waits.getD idx steps

/-- The candidates of a core. -/
def State.vecCands (s : State) (core : Nat) : List Cand :=
  let k := s.core core
  let fe := k.fe
  (s.running core).filterMap fun x =>
    (x.2.2.blk.views.find? fun kv => kv.2.isVec && s.canFire x.1 x.2.1 x.2.2 kv.1 kv.2 fe.start && !(x.2.2.op kv.1).anyNull kv.2).map fun kv =>
      { c := mkCtx x.1 kv.1 x.2.1 x.2.2 kv.2 fe.stop, v := kv.2, prio := (match s.gangs.get? x.2.1.gang with | some g => g.prio | none => 0),
        wait := x.2.2.waited kv.1 k.lanes.steps, since := x.2.2.waits.getD kv.1 k.lanes.steps,
        gone := k.lateGone (ctxnOf x.1) (x.2.2.waits.getD kv.1 k.lanes.steps) }

/-- Whether the first candidate goes before the second (R324): the promoted, the longer wait among them, the higher PRIO, then
the next strand context after the last chosen. Of two promoted that have waited equally long, that of the strand which has had fewer such dispatched comes before
PRIO counts, so that at most seven others are promoted ahead of it (log 148). -/
def Cand.before (last : Nat) (a b : Cand) : Bool :=
  let pa := decide (64 ≤ a.wait)
  let pb := decide (64 ≤ b.wait)
  let turn (x : Cand) : Nat := (ctxnOf x.c.sid + 7 - last) % 8
  if pa != pb then pa
  else if pa && a.wait != b.wait then b.wait < a.wait
  else if pa && a.gone != b.gone then a.gone < b.gone
  else if a.prio != b.prio then b.prio < a.prio
  else turn a < turn b

/-- The candidate chosen. -/
def State.pickVec (s : State) (core : Nat) : Option Cand :=
  (s.vecCands core).foldl (fun best x =>
    match best with
    | none => some x
    | some y => if x.before (s.core core).issueRr y then some x else some y) none

/-- The fault of a lane instruction at its dispatch (R44, R125, R204, R216): its kind, its sub-code and its index. -/
def State.dispatchBad (s : State) (c : Ctx) (v : View) : Option (Nat × Nat × Nat) :=
  let fw := c.t.fw v
  let sh := match v with | .tile _ o => s.shapeFor c.sid c.w c.idx o.acc.toNat | _ => none
  let win : Bool := match v with | .vm 0x2E 2 _ => (match s.windowFor c with | some x => (winFmt x.2.2).isFlt | none => false) | _ => false
  let words : Bool := match v with | .vx vop _ => vop == 0 | _ => true
  match (if words then fmtWordBad v fw sh win else none) with
  | some sub => some (kFmtWord, sub, c.idx)
  | none =>
    match c.w.groupBad c.t c.idx v fw (s.core (coreOf c.sid)) c.sid with
    | some x => some (kFmtWord, x.1, x.2)
    | none =>
      match v with
      | .tile pm o =>
        match sh with
        | none => some (kTile, 0x02, c.idx)
        | some x => if (if pm = 7 then x.rows else x.cols) ≤ o.imm.toNat % 1024 then some (kTile, 0x05, c.idx) else none
      | _ => none

/-- VECTOR_DISPATCH (R279, R324): one lane instruction of the core goes to the lane slices, stamped at the end of the step. `mrowv` and `mcolv`
are accepted as they dispatch, and deliver 0 to T0 (R203). -/
def vectorDispatch (core : Nat) (s : State) : Option State :=
  let k := s.core core
  if !k.fe.stepping s.now || k.issue.isSome then none
  else
    (s.pickVec core).map fun x =>
      let s := s.updCore core fun k => { k with issue := some (x.c.sid, x.c.idx), issueRr := ctxnOf x.c.sid, late := x.lates k.late }
      match s.dispatchBad x.c x.v with
      | some b => (s.raise x.c.sid b.1 b.2.1 b.2.2 0 0).updWin x.c.sid (·.fire x.c.idx true)
      | none =>
        let s := match x.v with
          | .tile _ _ => s.updWin x.c.sid (·.deliverAll x.c.idx (s.tokAt core (.val 0)) x.v.targets)
          | _ => s
        s.updCore core fun k => { k with
          inbox := k.inbox ++ [{ sid := x.c.sid, idx := x.c.idx, sent := k.fe.stop, cls := 2, left := 0,
                                 writes := writesReg x.v (x.c.t.fw x.v), aged := false, ran := false, tok := none }] }

/-- VECTOR_DISPATCH. -/
def execVectorDispatch (core : Nat) (s : State) : Out := s.act (vectorDispatch core s)

/-- The class and the steps of an instruction that enters execute (R176, R196). -/
def Window.timing (t : Strand) (w : Window) (idx : Nat) (v : View) : Nat × Nat :=
  let fw := t.fw v
  let vb := vlenb t.grant
  let n := w.countOf t v fw vb
  let m := w.readM t v.msk idx
  let blocks := (((List.range n).filter m.testBit).map (· / 32)).eraseDups.length
  vecTiming v fw n (lanePeak vb (laneWidth v fw) n) (bytesTouched v fw n m.testBit) blocks

/-- VECTOR_EXECUTE_START (R279): the instruction in read moves to a free execute stage. -/
def vectorExecuteStart (core : Nat) (s : State) : Option State :=
  let k := s.core core
  match k.rd with
  | some e =>
    if k.lanes.stepping s.now || k.ex.isSome || !e.aged || !s.clocked core then none
    else
      match s.strand? e.sid with
      | none => none
      | some t =>
        match t.win with
        | none => none
        | some w =>
          (w.view e.idx).map fun v =>
            let tm := w.timing t e.idx v
            s.updCore core fun k => { k with rd := none, ex := some { e with cls := tm.1, left := tm.2, aged := false } }
  | none => none

/-- VECTOR_EXECUTE_START. -/
def execVectorExecuteStart (core : Nat) (s : State) : Out := s.act (vectorExecuteStart core s)

/-- VECTOR_EXECUTE_DONE (R279): after its last execute step an instruction enters write, or delivers its token. -/
def vectorExecuteDone (core : Nat) (s : State) : Option State :=
  let k := s.core core
  match k.ex with
  | some e =>
    if k.lanes.stepping s.now || e.left ≠ 0 || !e.ran || k.wr.isSome then none
    else if e.writes then some (s.updCore core fun k => { k with ex := none, wr := some e })
    else some (s.updCore core fun k => { k with ex := none, toFe := k.toFe ++ (match e.tok with | some x => [{ sid := e.sid, idx := e.idx, sent := s.now, tok := some x }] | none => []) })
  | none => none

/-- VECTOR_EXECUTE_DONE. -/
def execVectorExecuteDone (core : Nat) (s : State) : Out := s.act (vectorExecuteDone core s)

/-- A datum accepted by the front end (R279, R280): a token for the targets of its instruction, or the report of its registers. -/
def Strand.accept (t : Strand) (w : Window) (idx : Nat) (v : View) (h : Held) (x : Option Tok) : Window :=
  match x with
  | some y => w.deliverAll idx { h with tok := y } v.targets
  | none => { w with v := reportRen w.v idx (v.vdests (t.fw v)), m := reportRen w.m idx v.mdests }

/-- FIFO_ACCEPT (R276, R280, R353): side 0, the lane slices accept the instruction at the head of their FIFO when all stand and read is free; side 1, the
front end accepts the datum at the head of its own. A stopped region takes its next step then. -/
def fifoAccept (core side : Nat) (s : State) : Option State :=
  let k := s.core core
  if !s.clocked core then none
  else if side = 0 then
    match k.inbox with
    | e :: rest =>
      if !k.lanesStand s.now || !s.crossed e.sent || k.rd.isSome then none
      else some (s.updCore core fun k => { k with inbox := rest, rd := some e, gated := [] })
    | [] => none
  else
    match k.toFe with
    | d :: rest =>
      if k.fe.stepping s.now || !s.crossed d.sent then none
      else
        let s := s.updCore core fun k => { k with toFe := rest, wake := true }
        let h := s.tokAt core .null
        some (s.updStrand d.sid fun t => t.updWin fun w => match w.view d.idx with | some v => t.accept w d.idx v h d.tok | none => w)
    | [] => none

/-- FIFO_ACCEPT. -/
def execFifoAccept (core side : Nat) (s : State) : Out := s.act (fifoAccept core side s)

/-- LANE_SLICE_GATE (R337): a lane slice stopped for 2,048 q gates, when its cluster tolerates 50 ns. -/
def laneSliceGate (core die : Nat) (s : State) : Option State :=
  let k := s.core core
  if 8 ≤ die || k.gated.contains die || k.sliceSteps s.now die || s.now < max k.lanes.stop (k.slices.getD die .reset).stop + 2048 || k.banks.any (· / 8 == die) || (s.cluster (clusterOf core)).cltr.toNat < 50 ||
     k.rd.isSome || k.ex.isSome || k.wr.isSome then none
  else some (s.updCore core fun k => { k with gated := die :: k.gated })

/-- LANE_SLICE_GATE. -/
def execLaneSliceGate (core die : Nat) (s : State) : Out := s.act (laneSliceGate core die s)

/-- A waiting division may start (R96): none that fires in the same step can still come before it. -/
def State.divideOpen (s : State) (core : Nat) (d : DivOp) (p : View → Bool) : Bool :=
  let fe := (s.core core).fe
  !fe.stepping s.now || d.key != fe.stop || (s.readySet core fe.start).all fun x => !p x.2.2

/-- DIVIDE_START (R96): the division that waits longest takes a free integer divider. -/
def divideStart (core : Nat) (s : State) : Option State :=
  let k := s.core core
  match k.idivWait with
  | d :: rest =>
    if !s.divideOpen core d View.isDivide then none
    else if !k.idiv.has 0 then some (s.updCore core fun k => { k with idivWait := rest, idiv := k.idiv.put 0 d })
    else if !k.idiv.has 1 then some (s.updCore core fun k => { k with idivWait := rest, idiv := k.idiv.put 1 d })
    else none
  | [] => none

/-- DIVIDE_START. -/
def execDivideStart (core : Nat) (s : State) : Out := s.act (divideStart core s)

/-- The token and the events of a division, at the end of its last step (R96, R101). -/
def State.divideGive (s : State) (core : Nat) (d : DivOp) : State :=
  let h := s.tokAt core (.val d.result)
  s.updWin d.sid fun w =>
    match w.view d.idx with
    | some v => (w.eventMask d.idx d.flags 0).deliverAll d.idx h v.targets
    | none => w

/-- DIVIDE_COMPLETE (R96): an integer divider has done its sixteen steps. -/
def divideComplete (core unit : Nat) (s : State) : Option State :=
  let k := s.core core
  match k.idiv.get? unit with
  | some d => if k.fe.stepping s.now || d.left ≠ 0 || d.dead then none else some ((s.updCore core fun k => { k with idiv := k.idiv.erase unit }).divideGive core d)
  | none => none

/-- DIVIDE_COMPLETE. -/
def execDivideComplete (core unit : Nat) (s : State) : Out := s.act (divideComplete core unit s)

/-- FP_DIVIDE_START (R102): the one float divide unit. -/
def fpDivideStart (core : Nat) (s : State) : Option State :=
  let k := s.core core
  match k.fdivWait with
  | d :: rest => if k.fdiv.isSome || !s.divideOpen core d View.isFDivide then none else some (s.updCore core fun k => { k with fdivWait := rest, fdiv := some d })
  | [] => none

/-- FP_DIVIDE_START. -/
def execFpDivideStart (core : Nat) (s : State) : Out := s.act (fpDivideStart core s)

/-- FP_DIVIDE_COMPLETE (R102). -/
def fpDivideComplete (core : Nat) (s : State) : Option State :=
  let k := s.core core
  match k.fdiv with
  | some d => if k.fe.stepping s.now || d.left ≠ 0 || d.dead then none else some ((s.updCore core fun k => { k with fdiv := none }).divideGive core d)
  | none => none

/-- FP_DIVIDE_COMPLETE. -/
def execFpDivideComplete (core : Nat) (s : State) : Out := s.act (fpDivideComplete core s)

end Sys2Proof.Machine
end

