-- ==== Sys2Proof/Machine/Fetch.lean ====
section
/-! DEFINITION. Fetching a block (R24 to R26, R40 to R43): reading its bytes, the checks of its header and of its body, and the
moment it becomes current (R66 to R68, R198, R204, R220). -/

namespace Sys2Proof

open Machine

/-- The slots that an instruction declares as targets (R27, R35 to R38). -/
def View.declaresL (v : View) : Bool := v.slots.l
def View.declaresR (v : View) : Bool := v.slots.r
def View.declaresT (v : View) : Bool := v.slots.t || v.pr != .always

/-- The exit id of an exit. -/
def View.exitId : View → Option Nat
  | .b _ o => some o.exit.toNat
  | .bx _ o => some o.exit.toNat
  | _ => none

/-- The vector registers written that the words alone show (R40), and those that a group may add. -/
def View.staticV (v : View) : List Nat := v.vdests 0
def View.groupV (v : View) : List Nat :=
  match v with
  | .vm 0x2C 3 _ => []
  | .tile _ _ => []
  | _ => (v.vdests 0).flatMap fun r => (List.range 7).map fun k => r + 1 + k

/-- The accumulator and the stream that an instruction names. -/
def View.accName : View → Option Nat | .tile _ o => some o.acc.toNat | _ => none
def View.csName : View → Option Nat
  | .cp _ o => some o.stream.toNat
  | .vm 0x2C 7 o => some (o.vi.toNat % 8)
  | _ => none
def View.isVlset : View → Bool | .g 0x2A 0 _ => true | _ => false
def View.isRead : View → Bool | .rd _ => true | _ => false
/-- The LSID of a word whose operation is `vldff` or `vldcs`, whether or not its other fields pass their checks (R40, codes 0x03 and 0x07). -/
def countLsid (word : Nat) : Option (BitVec 5) :=
  if word % 4 = 0 ∧ word / 4 % 64 = 0x2C ∧ (word / 256 % 8 = 4 ∨ word / 256 % 8 = 7) then some (BitVec.ofNat 5 (word / 2 ^ 21)) else none

/-- The posted tile forms (R201). -/
def View.isPosted : View → Bool
  | .tile pm _ => pm != 7 && pm != 9
  | _ => false

end Sys2Proof

namespace Sys2Proof.Machine

/-- The header from its eight words (R24). -/
def headerOf (x : Nat) : Header :=
  { version := getBits x 0 4, icount := getBits x 4 8, exits := getBits x 12 4, stmask := BitVec.ofNat 32 (x >>> 32),
    wrmask := BitVec.ofNat 64 (x >>> 64), vwmask := BitVec.ofNat 32 (x >>> 128), mwmask := BitVec.ofNat 7 (x >>> 160),
    acmask := BitVec.ofNat 8 (x >>> 167), csmask := BitVec.ofNat 8 (x >>> 175),
    reservedOk := getBits x 16 16 == 0 && getBits x 183 9 == 0 && getBits x 192 64 == 0 }

/-- A body word that decodes, or why it does not, also for a value of a field that its operation rules out (code 0x03). -/
def bodyView (word : Nat) : Except Reject View :=
  match decodeView word with
  | .ok v => if v.fieldsOk then .ok v else .error .field
  | .error e => .error e

/-- The code of R40 that a word earns by not being an instruction. -/
def Reject.code : Reject → Nat
  | .illegal => 0x01
  | .reserved => 0x02
  | .field => 0x03
  | .short => 0x01

/-- The views of a body that decoded, by index. -/
def goodViews (d : List (Except Reject View)) : List (Nat × View) :=
  (List.range d.length).filterMap fun k => match (d[k]? : Option (Except Reject View)) with | some (.ok v) => some (k, v) | _ => none

/-- Whether a target is judged under code 0x05 (R40): not one that names an instruction which fails code 0x01 or 0x02, or which lies at or after a
halfword of length class 11. -/
def judged (h : Header) (d : List (Except Reject View)) (t : Target) : Bool :=
  let slot (i : BitVec 7) : Bool := decide (h.icount ≤ i.toNat) ||
    (match (d[i.toNat]? : Option (Except Reject View)) with | some (.ok _) => true | some (.error e) => Reject.code e == 0x03 | none => false)
  match t with | .left i => slot i | .right i => slot i | .third i => slot i | _ => true

/-- Code 0x05 as far as one instruction's own bits decide it, of the targets that are judged (R40). -/
def targetsJudged (p : Target → Bool) (v : View) : Bool :=
  v.targets.all Target.legal && (!v.deferred || v.targets.all fun t => !p t || t.writeOnly) &&
  (match v.targets with
   | [t0, t1] => t0 == .none || t0 != t1 || !p t0
   | _ => true)

/-- The failing slot check of one target (R27, R40 code 0x05, 0x06), with the index at which it is found (R41). -/
def checkTarget (h : Header) (d : List (Except Reject View)) (idx : Nat) (t : Target) : List (Nat × Nat) :=
  let slot (i : BitVec 7) (p : View → Bool) : List (Nat × Nat) :=
    if h.icount ≤ i.toNat ∨ i.toNat = idx then [(idx, 0x05)]
    else match (d[i.toNat]? : Option (Except Reject View)) with | some (.ok u) => if p u then [] else [(max idx i.toNat, 0x05)] | _ => []
  match t with
  | .none => []
  | .resv _ => [(idx, 0x05)]
  | .reg g => if h.wrmask.getLsbD g.toNat then [] else [(idx, 0x06)]
  | .left i => slot i View.declaresL
  | .right i => slot i View.declaresR
  | .third i => slot i View.declaresT

/-- The failing checks found at one instruction (R40, R41): index and code. `counts` lists the LSIDs of the block's `vldff` and `vldcs`. A `vcnt`
whose load would lie at or after a halfword of length class 11, where nothing is delimited, has none (log 74). -/
def checkInstr (h : Header) (counts : List (BitVec 5)) (d : List (Except Reject View)) (idx : Nat) (v : View) : List (Nat × Nat) :=
  let before := (goodViews d).filter fun kv => kv.1 < idx
  let at_ (b : Bool) (code : Nat) : List (Nat × Nat) := if b then [(idx, code)] else []
  v.targets.flatMap (checkTarget h d idx) ++ at_ (!targetsJudged (judged h d) v) 0x05 ++
  at_ (v.writesMem && (match v.lsid? with | some l => !h.stmask.getLsbD l | none => false)) 0x07 ++
  at_ (match v with | .vx 1 o => !counts.contains o.vs1 | _ => false) 0x07 ++
  at_ (v.staticV.any fun r => !h.vwmask.getLsbD r || before.any fun kv => kv.2.staticV.contains r) 0x08 ++
  at_ (v.mdests.any fun m => !h.mwmask.getLsbD (m - 1)) 0x09 ++
  at_ (match v.accName with | some a => !h.acmask.getLsbD a | none => false) 0x09 ++
  at_ (match v.csName with | some a => !h.csmask.getLsbD a | none => false) 0x09 ++
  at_ (match v.exitId with | some e => h.exits ≤ e || before.any fun kv => kv.2.exitId == some e | none => false) 0x0A ++
  at_ (v.isVlset && before.any fun kv => kv.2.isVlset) 0x0B ++
  at_ (v.isRead && (before.filter fun kv => kv.2.isRead).length == 32) 0x0C ++
  at_ (!v.scopeOk) 0x0D

/-- The failing checks on a body's instructions. -/
def checkBody (h : Header) (counts : List (BitVec 5)) (d : List (Except Reject View)) : List (Nat × Nat) :=
  (List.range d.length).flatMap fun k =>
    match (d[k]? : Option (Except Reject View)) with
    | some (.ok v) => checkInstr h counts d k v
    | some (.error e) => [(k, Reject.code e)]
    | none => []

/-- The checks that find a header mask without a user (R41, the third kind): the codes that fail. -/
def checkMasks (h : Header) (d : List (Except Reject View)) : List Nat :=
  let g := (goodViews d).map (·.2)
  let set (n : Nat) (x : Nat) (used : Nat → Bool) : Bool := (bitsSet n x).all used
  (if set 64 h.wrmask.toNat fun r => g.any fun v => v.targets.any fun t => t == .reg (BitVec.ofNat 6 r) then [] else [0x06]) ++
  (if set 32 h.stmask.toNat fun l => g.any fun v => v.writesMem && v.lsid? == some l then [] else [0x07]) ++
  (if set 32 h.vwmask.toNat fun r => g.any fun v => v.staticV.contains r || v.groupV.contains r then [] else [0x08]) ++
  (if (set 7 h.mwmask.toNat fun m => g.any fun v => v.mdests.contains (m + 1)) && (set 8 h.acmask.toNat fun a => g.any fun v => v.accName == some a) &&
      (set 8 h.csmask.toNat fun a => g.any fun v => v.csName == some a) then [] else [0x09]) ++
  (if (List.range h.exits).all fun e => g.any fun v => v.exitId == some e then [] else [0x0A])

/-- The earlier of two failing checks (R41): the lower index, then the lower code. -/
def firstCheck : List (Nat × Nat) → Option (Nat × Nat)
  | [] => none
  | x :: xs => match firstCheck xs with
    | none => some x
    | some y => if y.1 < x.1 ∨ (y.1 = x.1 ∧ y.2 < x.2) then some y else some x

/-- The check of the header alone (R41, the first kind). -/
def checkHeader (h : Header) : Option Nat :=
  if h.version ≠ 1 ∨ h.icount = 0 ∨ 128 < h.icount ∨ h.exits = 0 ∨ 8 < h.exits ∨ !h.reservedOk then some 0x04
  else if 16 < (bitsSet 32 h.vwmask.toNat).length then some 0x08 else none

/-- The block-format fault of a block (R40, R41): its code and its index. -/
def formatFault (h : Header) (body : List Nat) : Option (Nat × Nat) :=
  match checkHeader h with
  | some c => some (c, 0xFF)
  | none =>
    let d : List (Except Reject View) := body.map bodyView
    match firstCheck (checkBody h (body.filterMap countLsid) d) with
    | some x => some (x.2, x.1)
    | none => match checkMasks h d with | [] => none | c :: _ => some (c, 0xFF)

/-- One byte of code: its value, or the check it fails (R42, R109, R299, R349, R357). -/
def State.codeByte (s : State) (core : Nat) (sup : Bool) (xl : NMap XRes) (a : Nat) : Except Bad Byte :=
  if inScratch a then .error ⟨4, kPerm, 0x03, a, 0⟩
  else
    match byteBad s 3 2 sup xl a a with
    | some b => .error b
    | none =>
      match physOf core xl a with
      | none => .error ⟨2, kTrans, 0x01, a, 0⟩
      | some p => if s.poisoned p || (placeOf p == .host && s.hostDown) then .error ⟨5, kPoison, 0, a, p⟩ else .ok (Memory.read s.mem p)

/-- `n` bytes of code as one little-endian number. -/
def State.codeBytes (s : State) (core : Nat) (sup : Bool) (xl : NMap XRes) (a : Nat) : Nat → Except Bad Nat
  | 0 => .ok 0
  | n + 1 =>
    match s.codeByte core sup xl a with
    | .error b => .error b
    | .ok x => match s.codeBytes core sup xl ((a + 1) % 2 ^ 64) n with | .ok y => .ok (x.toNat + 256 * y) | .error b => .error b

/-- The words of a body from `a`, as R26 delimits them, and its length in bytes; a halfword of length class 11 ends it. -/
def State.codeWords (s : State) (core : Nat) (sup : Bool) (xl : NMap XRes) (a len : Nat) : Nat → Except Bad (List Nat × Nat)
  | 0 => .ok ([], len)
  | n + 1 =>
    match s.codeBytes core sup xl a 2 with
    | .error b => .error b
    | .ok h =>
      match lengthOf h with
      | none => .ok ([h], len + 2)
      | some bits =>
        match s.codeBytes core sup xl a (bits / 8) with
        | .error b => .error b
        | .ok w => match s.codeWords core sup xl ((a + bits / 8) % 2 ^ 64) (len + bits / 8) n with | .ok r => .ok (w :: r.1, r.2) | .error b => .error b

/-- A fault that a fetch holds (R42, R296): it is raised when the block becomes current. -/
def heldFault (kind sub index vaddr info info2 : Nat) : FaultRec :=
  { key := 0, cls := classOf kind, kind := kind, sub := sub, index := index, vaddr := vaddr, info := info, info2 := info2 }

/-- A fetch that failed: the fetch fault, or the poison fault. -/
def fetchFault (b : Bad) : FaultRec :=
  if b.kind = kPoison then heldFault kPoison 0 0xFF b.va 2 b.pa
  else heldFault kFetch b.sub 0xFF b.va 2 0

/-- The block at an address as a fetch reads it now (R24, R40, R42, R43, R349). The checks of the body come when all of it is read: of an
instruction that fails one and a later byte that cannot be read, the fetch fault is held (log 75). -/
def State.fetchBlock (s : State) (core : Nat) (asid : BitVec 16) (root : Nat) (sup : Bool) (base : Dword) : Fetched × State :=
  let a := base.toNat
  let pages (x : Nat) : List Nat := if canonical x && x < spBase then [pageOf x] else []
  let r := s.xlateAll core asid.toNat root (pages a) []
  let home (xl : NMap XRes) (n : Nat) : List Nat := [a, (a + n) % 2 ^ 64].filterMap (physOf core xl)
  let fail (s : State) (h : Header) (b : Bad) : Fetched × State :=
    ({ base := base, hdr := h, body := [], len := 0, sup := sup, fault := some (fetchFault b), home := home r.1 31 }, if b.rank = 5 ∧ s.poisoned b.pa then s.meetError b.pa else s)
  match r.2.codeBytes core sup r.1 a 32 with
  | .error b => fail r.2 (headerOf 0) b
  | .ok x =>
    let h := headerOf x
    match checkHeader h with
    | some c => ({ base := base, hdr := h, body := [], len := 0, sup := sup, fault := some (heldFault kFormat c 0xFF 0 0 0), home := home r.1 31 }, r.2)
    | none =>
      let start := (a + 32) % 2 ^ 64
      let read (s : State) (xl : NMap XRes) : Fetched × State :=
        match s.codeWords core sup xl start 0 h.icount with
        | .error b => fail s h b
        | .ok y =>
          let bad := (formatFault h y.1).map fun f => heldFault kFormat f.1 f.2 0 0 0
          ({ base := base, hdr := h, body := y.1, len := y.2, sup := sup, fault := bad, home := home xl (31 + y.2) }, s)
      let missing : Option Nat := match r.2.codeWords core sup r.1 start 0 h.icount with
        | .error b => if b.kind = kTrans ∧ b.sub = 0x01 then (pages b.va).head? else none
        | .ok _ => none
      match missing with
      | some p => let q := r.2.xlate core asid.toNat root p; read q.2 (r.1.put p q.1)
      | none => read r.2 r.1

/-- Whether a strand may begin a block at `now` (R66, R75, R142, R256, R258, R259, R293, R308, R339): nothing else holds it. -/
def Cluster.holds (k : Cluster) : Bool := k.qreq && k.mode == 2
def State.mayRun (s : State) (sid : Nat) (t : Strand) : Bool :=
  !(s.cluster (clusterOf (coreOf sid))).holds && t.runs && !t.barWait && t.sleepTo.isNone && t.vsleep.isNone && t.tlbWait.isNone &&
  (match s.gangs.get? t.gang with | some g => g.save.isNone && g.restore.isNone && g.stopped.isNone && !g.killed && g.resident | none => false)

/-- No link on the way of what a fetch has read, or of its translations, retrains (R307, R353). -/
def State.fetchOpen (s : State) (core : Nat) (t : Strand) (f : Fetched) : Bool :=
  s.linkOpen f.home && s.partsOpen core t [{ key := 0, va := f.base.toNat, bit := 0, w := 0, size := 32 + f.len }]

/-- BLOCK_FETCH (R24, R40 to R43): the strand's current block, or one that its running block may name, is read and checked; its bytes then cross to
the front end (R280), and wait for a link that retrains (R353). The first fetch of a gang gives its QSTART (R330). -/
def blockFetch (sid addr : Nat) (s : State) : Option State :=
  match s.strand? sid with
  | none => none
  | some t =>
    if !s.mayRun sid t ∨ addr % 32 ≠ 0 ∨ 2 ^ 64 ≤ addr ∨ (t.win.isNone ∧ addr ≠ t.pc.toNat) ∨ !s.clocked (coreOf sid) then none
    else
      let r := s.fetchBlock (coreOf sid) t.asid (s.rootOf t.ctx) t.sup (BitVec.ofNat 64 addr)
      if !s.fetchOpen (coreOf sid) t r.1 then none
      else
        let s := r.2.updStrand sid fun t => { t with fetched := some { r.1 with at_ := s.now } }
        some (s.updGang t.gang fun g => { g with qstart := some (g.qstart.getD s.now) })

/-- BLOCK_FETCH. -/
def execBlockFetch (sid addr : Nat) (s : State) : Out := s.act (blockFetch sid addr s)

/-- A block that has just become current (R66, R67). -/
def Window.start_ (f : Fetched) (now : Nat) : Window :=
  { blk := f, start := now, excluded := 0, ops := [], slots := [], lsids := [], exit := none, accs := [], stores := [],
    v := [], m := [], scl := [], vl := none, counts := [], events := [], sr := [], posts := [], resv := [], armed := [], armedHit := false,
    links := [], fault := none }

/-- The tile and stream checks of block start, in their order (R204, R220): kind, sub-code, index. -/
def State.startCheck (s : State) (core gang : Nat) (b : Fetched) : Option (Nat × Nat × Nat) :=
  let vs := b.views
  let k := s.core core
  let shapes := vs.filterMap fun kv => match kv.2 with | .tile 0 o => some (kv.1, o.acc.toNat) | _ => none
  let twice := shapes.filter fun x => shapes.any fun y => y.1 < x.1 && y.2 == x.2
  let posted := vs.filter fun kv => kv.2.isPosted
  match twice with
  | x :: _ => some (kTile, 0x03, x.1)
  | [] =>
    if (bitsSet 8 b.hdr.acmask.toNat).any fun a => (match (k.tile a).gang with | some g => g != gang | none => false) then some (kTile, 0x07, 0xFF)
    else if 64 < posted.length then some (kTile, 0x08, ((posted[64]?).map (·.1)).getD 0xFF)
    else if (bitsSet 8 b.hdr.csmask.toNat).any fun a => (match (k.stream a).gang with | some g => g != gang | none => false) then some (kStream, 0x09, 0xFF)
    else none

/-- The tiles and the streams that a block names are bound to its gang (R198, R220). -/
def State.bindNames (s : State) (core gang : Nat) (b : Fetched) : State :=
  let s := (bitsSet 8 b.hdr.acmask.toNat).foldl (fun (s : State) a => s.updTile core a fun x => if x.gang.isSome then x else { Tile.reset with gang := some gang }) s
  (bitsSet 8 b.hdr.csmask.toNat).foldl (fun (s : State) a => s.updStream core a fun x => if x.gang.isSome then x else { Stream.reset with gang := some gang }) s

/-- BLOCK_START (R66 to R68, R41, R42, R198, R220, R280, R362): the fetched block that the strand's program counter names, once it has come, becomes
current at a front-end boundary, and the front end steps; a fault that its fetch holds, a failing check of block start, or a deferred
remote-lost stops it there, and then binds it no tile and no stream (log 132). -/
def blockStart (sid : Nat) (s : State) : Option State :=
  let core := coreOf sid
  match s.strand? sid with
  | none => none
  | some t =>
    if !s.mayRun sid t ∨ t.win.isSome ∨ (s.core core).fe.stepping s.now ∨ !s.clocked core then none
    else
      match t.fetched with
      | none => none
      | some f =>
        if f.base ≠ t.pc ∨ f.sup ≠ t.sup ∨ !s.crossedTo false f.at_ f.home then none
        else
          match t.deferred with
          | d :: ds =>
            let s := if (s.core core).queueFull then s else s.updStrand sid fun t => { t with deferred := ds }
            some (s.takeTrap sid { d with key := s.now } t.pc true)
          | [] =>
            match f.fault with
            | some d => some (s.takeTrap sid { d with key := s.now } t.pc true)
            | none =>
              match s.startCheck core t.gang f with
              | some x => some (s.takeTrap sid (heldFault x.1 x.2.1 x.2.2 0 0 0) t.pc true)
              | none =>
                some (((s.bindNames core t.gang f).wakeFe core).updStrand sid fun t => { t with fetched := none, win := some (Window.start_ f s.now) })

/-- BLOCK_START. -/
def execBlockStart (sid : Nat) (s : State) : Out := s.act (blockStart sid s)

end Sys2Proof.Machine
end

