-- ==== Sys2Proof/Machine/Exits.lean ====
section
/-! DEFINITION. The exits (R86 to R89): what fires; the exit takes effect at the commit of its block. -/

namespace Sys2Proof.Machine

/-- The fall-through address of a block (R86). -/
def Fetched.fall (b : Fetched) : Dword := b.base + BitVec.ofNat 64 (32 * ((32 + b.len + 31) / 32))

/-- An exit fires (R72, R74): the first is the block's; a second is a double exit, whose record names the later one, or the higher
index of one step. -/
def State.leave (s : State) (c : Ctx) (kind : Nat) (target link : Dword) : State :=
  match c.w.exit with
  | none => s.updWin c.sid fun w => { w with exit := some { idx := c.idx, at_ := c.at_, kind := kind, target := target, link := link } }
  | some e => s.raise c.sid kDoubleExit 0 (if e.at_ = c.at_ then max e.idx c.idx else c.idx) 0 0

/-- The target of `br` and `call` (R87). -/
def BOp.target (o : BOp) (a : Dword) : Dword := a + (o.off.signExtend 64 <<< 5)

/-- `bro` and `callo` check their target (R88). -/
def State.leaveTo (s : State) (c : Ctx) (kind : Nat) (link : Dword) : State :=
  let s := if c.l.toNat % 32 ≠ 0 then s.raise c.sid kExitAlign 0 c.idx 0 0 else s
  s.leave c kind c.l link

/-- `br` (R87). -/
def execBr (o : BOp) (s : State) : Out := s.run (.b 0x07 o) fun s c => s.leave c 0 (BOp.target o c.w.blk.base) 0

/-- `call` (R87): at commit `g1` takes the left operand. -/
def execCall (o : BOp) (s : State) : Out := s.run (.b 0x08 o) fun s c => s.leave c 1 (BOp.target o c.w.blk.base) c.l

/-- `bro` (R88). -/
def execBro (o : BXOp) (s : State) : Out := s.run (.bx 0 o) fun s c => s.leaveTo c 0 0

/-- `callo` (R88): at commit `g1` takes the fall-through address. -/
def execCallo (o : BXOp) (s : State) : Out := s.run (.bx 1 o) fun s c => s.leaveTo c 1 c.w.blk.fall

/-- `halt` (R89). -/
def execHalt (o : BXOp) (s : State) : Out := s.run (.bx 2 o) fun s c => s.leave c 2 c.w.blk.fall 0

/-- `yld` (R89). -/
def execYld (o : BXOp) (s : State) : Out := s.run (.bx 3 o) fun s c => s.leave c 3 c.w.blk.fall 0

/-- `sys` (R89): its token goes into the service-request record. -/
def execSys (o : BXOp) (s : State) : Out := s.run (.bx 4 o) fun s c => s.leave c 4 c.w.blk.fall c.l

/-- `brk` (R89). -/
def execBrk (o : BXOp) (s : State) : Out := s.run (.bx 5 o) fun s c => s.leave c 5 c.w.blk.fall 0

end Sys2Proof.Machine
end

