-- ==== Sys2Proof/Machine/Control.lean ====
section
/-! DEFINITION. The front-end instructions of the classes VCFG (R145, R146), GANG (R257 to R259, R323), TIM (R285), WIN (R253, R255)
and SYSI (R289 to R295): what each delivers, checks and posts to the commit of its block. -/

namespace Sys2Proof.Machine

/-- The check of a format word that `vlset` and `vlmax` take as a token (R145): the sub-code of the first that fails. -/
def lengthWordBad (fw : Nat) : Option Nat :=
  if fwReserved fw then some 0x01
  else if (fmtOf (fwSrc1 fw)).isBad || (fmtOf (fwSrc2 fw)).isBad || (fmtOf (fwDst fw)).isBad then some 0x02
  else if 6 ≤ fwFrnd fw then some 0x04
  else if fwSlices fw = 0 ∨ 4 < fwSlices fw then some 0x05
  else none

/-- The elements that a grant of `slabs` gives under a format word (R145). -/
def lengthOfWord (slabs fw : Nat) : Nat :=
  1024 * slabs * 8 * fwGroup fw / max (fmtOf (fwSrc1 fw)).width (max (fmtOf (fwSrc2 fw)).width (fmtOf (fwDst fw)).width)

/-- The grant that `vlset`, `vlmax` and `vgrant` see (R143). -/
def Strand.slabs (t : Strand) : Nat := t.posted.getD t.grant

/-- `vlset` (R145): its count, delivered, and the block's vector length. -/
def execVlset (o : GOp) (s : State) : Out :=
  s.run (.g 0x2A 0 o) fun s c =>
    match lengthWordBad c.r.toNat with
    | some sub => s.raise c.sid kFmtWord sub c.idx 0 0
    | none =>
      let n := min c.l.toNat (min (lengthOfWord c.t.slabs c.r.toNat) c.t.vceil.toNat)
      (s.updWin c.sid fun w => { w with vl := some n }.post c.idx (.vlset c.t.slabs)).give c (.g 0x2A 0 o) (.val (BitVec.ofNat 64 n))

/-- `vlget` (R146): the vector length of the block. -/
def execVlget (o : GOp) (s : State) : Out :=
  s.run (.g 0x2A 1 o) fun s c => s.give c (.g 0x2A 1 o) (.val (BitVec.ofNat 64 (c.w.vlen c.t)))

/-- `vlmax` (R146). -/
def execVlmax (o : GOp) (s : State) : Out :=
  s.run (.g 0x2A 2 o) fun s c =>
    match lengthWordBad c.l.toNat with
    | some sub => s.raise c.sid kFmtWord sub c.idx 0 0
    | none => s.give c (.g 0x2A 2 o) (.val (BitVec.ofNat 64 (lengthOfWord c.t.slabs c.l.toNat)))

/-- `vrel` (R142, R146): the vector state is dead after the commit. -/
def execVrel (o : GOp) (s : State) : Out :=
  s.run (.g 0x2A 3 o) fun s c => (s.updWin c.sid (·.post c.idx .vrel)).give c (.g 0x2A 3 o) (.val 0)

/-- `vgrant` (R146). -/
def execVgrant (o : GOp) (s : State) : Out :=
  s.run (.g 0x2A 4 o) fun s c => s.give c (.g 0x2A 4 o) (.val (BitVec.ofNat 64 c.t.slabs))

/-- A start record from its 64 bytes (R317). -/
def startRecOf (x : Nat) : StartRec :=
  { entry := BitVec.ofNat 64 x, args := BitVec.ofNat 64 (x >>> 64), ctx := BitVec.ofNat 64 (x >>> 128), done := BitVec.ofNat 64 (x >>> 192),
    asid := BitVec.ofNat 16 (getBits x 304 16), doneScope := BitVec.ofNat 4 (getBits x 296 4), super := x.testBit 295,
    prio := BitVec.ofNat 3 (getBits x 292 3), affinity := BitVec.ofNat 32 (getBits x 256 32), gsize := BitVec.ofNat 4 (getBits x 360 4),
    slabPref := BitVec.ofNat 6 (getBits x 352 6), slabMin := BitVec.ofNat 6 (getBits x 344 6), vceil := BitVec.ofNat 22 (getBits x 320 22),
    reservedOk := getBits x 300 4 == 0 && getBits x 288 4 == 0 && getBits x 364 20 == 0 && getBits x 358 2 == 0 && getBits x 350 2 == 0 &&
      getBits x 342 2 == 0 && getBits x 384 128 == 0 }

/-- The check of DONE (R318, R323): a write of 64 bytes, not in the scratchpad, device control space or the fabric window. -/
def State.doneBad (s : State) (core : Nat) (asid : BitVec 16) (ctx : Nat) (sup : Bool) (done : Nat) : Option Bad × State :=
  if inScratch done then (some ⟨4, kPerm, 0x04, done, 0⟩, s)
  else
    let r := s.probeNow core asid ctx 1 1 sup (onePart done 64)
    (r.1, r.2.2)

/-- The priority of a strand's gang. -/
def State.prioOf (s : State) (gang : Nat) : Nat := match s.gangs.get? gang with | some g => g.prio | none => 0

/-- `spawn` (R257, R259, R323). -/
def execSpawn (o : GOp) (s : State) : Out :=
  s.runWhen (.g 0x0A 0 o) (fun s c => s.readOpen c.sid c.t c.l.toNat 64) fun s c =>
    s.readRecord c c.l.toNat 64 64 fun s x =>
      let r := startRecOf x
      let d := s.doneBad (coreOf c.sid) c.t.asid c.t.ctx c.t.sup r.done.toNat
      match d.1 with
      | some b => d.2.raise c.sid b.kind b.sub c.idx b.va 1 b.pa
      | none =>
        if !c.t.sup ∧ r.super then d.2.raise c.sid kPerm 0x05 c.idx 0 0
        else
          let own := s.prioOf c.t.gang
          let r := if c.t.sup then r
            else { r with asid := c.t.asid, ctx := BitVec.ofNat 64 c.t.ctx, prio := if own < r.prio.toNat then BitVec.ofNat 3 own else r.prio }
          (d.2.updWin c.sid (·.post c.idx (.spawn r))).give c (.g 0x0A 0 o) (.val 0)

/-- `bar` (R257, R258). -/
def execBar (o : GOp) (s : State) : Out :=
  s.run (.g 0x0A 1 o) fun s c => (s.updWin c.sid (·.post c.idx .bar)).give c (.g 0x0A 1 o) (.val 0)

/-- `gid` (R257). -/
def execGid (o : GOp) (s : State) : Out := s.run (.g 0x0A 2 o) fun s c => s.give c (.g 0x0A 2 o) (.val (BitVec.ofNat 64 c.t.gang))

/-- `gsize` (R257): the strands of the gang at launch. -/
def execGsize (o : GOp) (s : State) : Out :=
  s.run (.g 0x0A 3 o) fun s c =>
    s.give c (.g 0x0A 3 o) (.val (BitVec.ofNat 64 (match s.gangs.get? c.t.gang with | some g => g.gsize | none => 0)))

/-- `cid` (R257). -/
def execCid (o : GOp) (s : State) : Out := s.run (.g 0x0A 4 o) fun s c => s.give c (.g 0x0A 4 o) (.val (BitVec.ofNat 64 c.t.cid))

/-- `sleep` (R257, R259). -/
def execSleep (o : GOp) (s : State) : Out :=
  s.run (.g 0x0A 5 o) fun s c => (s.updWin c.sid (·.post c.idx (.sleep c.l))).give c (.g 0x0A 5 o) (.val 0)

/-- `qtime` (R285): the count at the start of its step. -/
def execQtime (o : GOp) (s : State) : Out :=
  s.run (.g 0x1D 0 o) fun s c => s.give c (.g 0x1D 0 o) (.val (BitVec.ofNat 64 (s.core (coreOf c.sid)).fe.start))

/-- `qlocal` (R285): the front end's local count at the start of its step. -/
def execQlocal (o : GOp) (s : State) : Out :=
  s.run (.g 0x1D 1 o) fun s c =>
    let fe := (s.core (coreOf c.sid)).fe
    s.give c (.g 0x1D 1 o) (.val (BitVec.ofNat 64 (fe.count fe.start)))

/-- `qdl` (R285, R286): the block-entry deadline; the new one is written at commit. -/
def execQdl (o : GOp) (s : State) : Out :=
  s.run (.g 0x1D 2 o) fun s c => (s.updWin c.sid (·.post c.idx (.ctl 0x030 c.l))).give c (.g 0x1D 2 o) (.val c.t.qdl)

/-- `qper` (R285, R341): the period floor under which its step of the front end began. -/
def execQper (o : GOp) (s : State) : Out :=
  s.run (.g 0x1D 3 o) fun s c => s.give c (.g 0x1D 3 o) (.val (BitVec.ofNat 64 (s.core (coreOf c.sid)).fe.floor))

/-- What a window descriptor breaks (R253). -/
def winBad (base desc : Dword) : Bool :=
  let f := winFmt desc
  let okFmt := (f.isInt || f.isFlt) && f.width != 64
  desc.toNat / 2 ^ 26 != 0 || !okFmt || winLen desc == 0 || 32768 < winLen desc || winLen desc % winCb desc != 0 ||
  (winOp desc == 3 && f.isFlt) || base.toNat % winCb desc != 0

/-- Whether a `vawin` finds the core's window taken (R244): open, or about to be by another strand's running block. -/
def State.winTaken (s : State) (sid : Nat) : Bool :=
  (match (s.core (coreOf sid)).accWin with | some x => !x.closed | none => false) ||
  (s.running (coreOf sid)).any fun x => x.1 != sid && x.2.2.posts.any fun kv => match kv.2 with | .vawin _ _ _ => true | _ => false

/-- `vawin` (R253): the window gets a number of its own. -/
def execVawin (o : GOp) (s : State) : Out :=
  s.run (.g 0x2F 0 o) fun s c =>
    if winBad c.l c.r then s.raise c.sid kSync 0x04 c.idx 0 0
    else if s.winTaken c.sid then s.raise c.sid kSync 0x05 c.idx 0 0
    else
      let q := s.fresh
      (q.2.updWin c.sid (·.post c.idx (.vawin q.1 c.l c.r))).give c (.g 0x2F 0 o) (.val 0)

/-- The size of a gang's save (R310), without the vector, tile, stream and window sections where `scalar` (R312). -/
def Stream.saveSize (st : Stream) : Nat := (128 + (if st.desc.red = 2 then 4 * st.desc.strip else 0) + 255) / 256 * 256
def State.boundTiles (s : State) (core gang : Nat) : List Nat := (List.range 8).filter fun k => ((s.core core).tile k).gang == some gang
def State.boundStreams (s : State) (core gang : Nat) : List Nat := (List.range 8).filter fun k => ((s.core core).stream k).gang == some gang
def State.gangWin (s : State) (core gang : Nat) : Option AccWin := (s.core core).accWin.filter fun x => x.gang == gang && !x.closed

/-- The elements in memory that a `vamerge` folds into (R255). -/
def mergeParts (base desc : Dword) : List Part :=
  (List.range (winCount desc)).map fun i =>
    { key := i, va := (base.toNat + i * winCb desc) % 2 ^ 64, bit := 0, w := (winFmt desc).width, size := winCb desc }

/-- `vamerge` (R255, R353): it probes and pins the elements of the window that is open for its gang, once no link on the way of their translations retrains;
the folds come after commit. -/
def execVamerge (o : GOp) (s : State) : Out :=
  s.runWhen (.g 0x2F 1 o)
    (fun s c =>
      match s.gangWin (coreOf c.sid) c.t.gang with
      | none => true
      | some x =>
        let ps := mergeParts x.base x.desc
        s.partsOpen (coreOf c.sid) c.t ps && match c.t.pinCheck (accessPins (s.probeNow (coreOf c.sid) c.t.asid c.t.ctx 1 1 c.t.sup ps).2.1 ps) with
        | .wait => false
        | _ => true)
    fun s c =>
      match s.gangWin (coreOf c.sid) c.t.gang with
      | none => s.raise c.sid kSync 0x06 c.idx 0 0
      | some x =>
        let ps := mergeParts x.base x.desc
        let p := s.probeNow (coreOf c.sid) c.t.asid c.t.ctx 1 1 c.t.sup ps
        match p.1 with
        | some b => p.2.2.raise c.sid b.kind b.sub c.idx b.va 1 b.pa
        | none =>
          match c.t.pinCheck (accessPins p.2.1 ps) with
          | .fault => p.2.2.raise c.sid kPinLimit 0 c.idx 0 0
          | _ => (p.2.2.updWin c.sid (·.post c.idx (.vamerge x.base x.desc p.2.1 x.id))).give c (.g 0x2F 1 o) (.val 0)

/-- `vawclr` (R255). -/
def execVawclr (o : GOp) (s : State) : Out :=
  s.run (.g 0x2F 2 o) fun s c => (s.updWin c.sid (·.post c.idx .vawclr)).give c (.g 0x2F 2 o) (.val 0)

/-- The value of an event index register (R173). -/
def eixWord (p : Option (Nat × Nat)) : Dword :=
  match p with
  | some x => BitVec.ofNat 64 (x.1 % 2 ^ 7 * 2 ^ 32 + x.2 % 2 ^ 32)
  | none => 0

/-- The identity of the part (R291). -/
def ident : Dword := BitVec.ofNat 64 (0x7E11 * 2 ^ 48 + 0x0512 * 2 ^ 32 + stepping.toNat * 2 ^ 24 + 1)

/-- The control registers (R144, R172, R173, R131, R205, R256, R286, R290, R291): what each reads; none where the number is not
assigned. -/
def State.ctlRead (s : State) (sid : Nat) (t : Strand) (num : Nat) : Option Dword :=
  let ctx (f : Context → Dword) : Option Dword := some (match s.contexts.get? t.ctx with | some x => f x | none => 0)
  match num with
  | 0x000 => some (t.vl.zeroExtend 64)
  | 0x001 => some (BitVec.ofNat 64 t.slabs)
  | 0x002 => some (t.vceil.zeroExtend 64)
  | 0x010 => some (t.fstat.zeroExtend 64)
  | 0x011 => some (eixWord (t.eix.get? 0))
  | 0x012 => some (eixWord (t.eix.get? 1))
  | 0x013 => some (eixWord (t.eix.get? 2))
  | 0x014 => some (eixWord (t.eix.get? 3))
  | 0x015 => some (eixWord (t.eix.get? 4))
  | 0x016 => some (eixWord (t.eix.get? 5))
  | 0x018 => some (t.srseed.zeroExtend 64)
  | 0x019 => some (t.mstat.zeroExtend 64)
  | 0x020 => some (BitVec.ofNat 64 (sid % 256))
  | 0x021 => some (BitVec.ofNat 64 (t.gang % 256))
  | 0x022 => some (BitVec.ofNat 64 (coreOf sid % 32))
  | 0x023 => some (t.asid.zeroExtend 64)
  | 0x030 => some t.qdl
  | 0x031 => some t.wstat
  | 0x100 => some ident
  | 0x101 => some (if t.sup then 1 else 0)
  | 0x110 => some t.tcause
  | 0x111 => some t.taddr
  | 0x112 => some t.tinfo
  | 0x120 => ctx (·.ptroot)
  | 0x121 => ctx (·.sabase)
  | 0x122 => ctx (·.sasize)
  | 0x130 => some t.btmo
  | _ => none

/-- The write of a control register at commit (R289): read-only registers and fields keep their values. -/
def Strand.ctlWrite (t : Strand) (num : Nat) (x : Dword) : Strand :=
  match num with
  | 0x010 => { t with fstat := BitVec.ofNat 6 x.toNat }
  | 0x018 => { t with srseed := BitVec.ofNat 32 x.toNat, sr := [] }
  | 0x019 => { t with mstat := BitVec.ofNat 6 x.toNat }
  | 0x030 => { t with qdl := x }
  | 0x130 => { t with btmo := x }
  | _ => t

/-- The check of a control register's number at a level (R288, R289): the kind and the sub-code of the fault. -/
def State.ctlBad (s : State) (c : Ctx) : Option (Nat × Nat) :=
  let n := c.l.toNat
  if n < 4096 ∧ 0x100 ≤ n ∧ n ≤ 0x1FF ∧ !c.t.sup then some (kPerm, 0x06)
  else if 4096 ≤ n ∨ (s.ctlRead c.sid c.t n).isNone then some (kSystem, 0x01)
  else none

/-- `ctl.rd` (R289): its wait for `mstat` stands in `State.gate`. -/
def execCtlRd (o : GOp) (s : State) : Out :=
  s.run (.g 0x1E 0 o) fun s c =>
    match s.ctlBad c with
    | some f => s.raise c.sid f.1 f.2 c.idx 0 0
    | none => s.give c (.g 0x1E 0 o) (.val ((s.ctlRead c.sid c.t c.l.toNat).getD 0))

/-- `ctl.wr` (R289): the write comes at commit. -/
def execCtlWr (o : GOp) (s : State) : Out :=
  s.run (.g 0x1E 1 o) fun s c =>
    match s.ctlBad c with
    | some f => s.raise c.sid f.1 f.2 c.idx 0 0
    | none => (s.updWin c.sid (·.post c.idx (.ctl c.l.toNat c.r))).give c (.g 0x1E 1 o) (.val 0)

/-- A supervisor form (R288, R292): at user level it is a permission fault. -/
def State.superForm (s : State) (c : Ctx) (body : State → State) : State :=
  if c.t.sup then body s else s.raise c.sid kPerm 0x05 c.idx 0 0

/-- `tret` (R292): the level drops at commit. -/
def execTret (o : GOp) (s : State) : Out :=
  s.run (.g 0x1E 2 o) fun s c => s.superForm c fun s => (s.updWin c.sid (·.post c.idx .tret)).give c (.g 0x1E 2 o) (.val 0)

/-- A control word of `tlb.inv` that is not accepted (R293): a bit outside the layout, or the reserved kind. -/
def invBad (x : Nat) : Bool := x / 2 ^ 32 != 0 || getBits x 2 14 != 0 || x % 4 == 3

/-- `tlb.inv` (R293). -/
def execTlbInv (o : GOp) (s : State) : Out :=
  s.run (.g 0x1E 3 o) fun s c => s.superForm c fun s =>
    if invBad c.r.toNat then s.raise c.sid kSystem 0x02 c.idx 0 0
    else (s.updWin c.sid (·.post c.idx (.tlbInv c.l c.r))).give c (.g 0x1E 3 o) (.val 0)

def State.gangSlabs (s : State) (g : Gang) : Nat := (g.members.map fun sid => match s.strand? sid with | some t => t.grant | none => 0).foldl max 0
def State.saveSize (s : State) (gid : Nat) (g : Gang) (scalar : Bool) : Nat :=
  let n := g.members.length
  256 + 2048 * n +
  (if scalar then 0 else
    104 * vlenb (s.gangSlabs g) * n + 524288 * (s.boundTiles g.core gid).length +
    ((s.boundStreams g.core gid).map fun k => ((s.core g.core).stream k).saveSize).foldl (· + ·) 0 +
    (match s.gangWin g.core gid with | some x => 64 * roundUp256 (winLen x.desc) | none => 0))

/-- The status of `ctx.save` (R294). -/
def State.saveStatus (s : State) (l : Nat) : Nat :=
  if 256 ≤ l then 4
  else
    match s.gangs.get? l with
    | none => 1
    | some g =>
      if !g.resident then 1
      else if g.save.isSome then 3
      else
        match s.contexts.get? g.ctx with
        | none => 0
        | some x => if x.broken then 5 else if x.sasize.toNat < s.saveSize l g false then 2 else 0

/-- `ctx.save` (R294). -/
def execCtxSave (o : GOp) (s : State) : Out :=
  s.run (.g 0x1E 4 o) fun s c => s.superForm c fun s =>
    let st := s.saveStatus c.l.toNat
    let s := if st = 0 then s.updWin c.sid (·.post c.idx (.ctxSave c.l.toNat)) else s
    s.give c (.g 0x1E 4 o) (.val (BitVec.ofNat 64 st))

/-- `ctx.load` (R295). -/
def execCtxLoad (o : GOp) (s : State) : Out :=
  s.runWhen (.g 0x1E 5 o) (fun s c => !c.t.sup || s.readOpen c.sid c.t c.l.toNat 256) fun s c => s.superForm c fun s =>
    s.readRecord c c.l.toNat 256 4096 fun s h =>
      let st := if !h.testBit 0 then 1 else if getBits h 8 8 ≠ 1 then 2
        else match s.gangs.get? (getBits h 64 8) with | some g => if g.resident then 3 else 0 | none => 0
      let s := if st = 0 then s.updWin c.sid (·.post c.idx (.ctxLoad c.l h)) else s
      s.give c (.g 0x1E 5 o) (.val (BitVec.ofNat 64 st))

end Sys2Proof.Machine
end

