-- ==== Sys2Proof/Machine/Streams.lean ====
section
/-! DEFINITION. The copy streams (R220 to R234): the record, the CPS instructions, what their commands do at commit, and the
accesses that a running stream makes. -/

namespace Sys2Proof.Machine

/-- A stream record from its 64 bytes, and whether its reserved fields are zero (R221). -/
def streamRecOf (x : Nat) : StreamRec :=
  { srcBase := getBits x 0 64, srcStride := getBits x 64 64, dstBase := getBits x 128 64, dstStride := getBits x 192 64,
    n := getBits x 256 48, free := x.testBit 359, scope := getBits x 352 4, red := getBits x 344 2, fmt := getBits x 336 8,
    strip := getBits x 320 16 + 1 }
def streamReserved (x : Nat) : Bool :=
  getBits x 304 16 != 0 || getBits x 360 24 != 0 || getBits x 356 3 != 0 || getBits x 346 6 != 0 || getBits x 384 128 != 0

/-- The element format of a stream, and the checks of R225 after the reserved fields: sub-code of the stream fault. -/
def StreamRec.broken (r : StreamRec) : Option Nat :=
  let f : Fmt := fmtOf r.fmt
  if f.isBad || f.isE8 || f.isMx || (r.red != 0 && 32 < f.width) then some 0x02
  else if r.n = 0 ∨ 32768 < r.strip * r.cb then some 0x03
  else if r.red = 3 ∨ (r.red = 2 ∧ f.isInt) ∨ (r.dstStride = 0 ∧ r.red ≠ 2) then some 0x04
  else Option.none

/-- The base or stride that is no multiple of the container (R225). -/
def StreamRec.misaligned (r : StreamRec) : Option Nat :=
  [r.srcBase, r.dstBase, r.srcStride, r.dstStride].find? fun x => x % r.cb != 0

/-- A hull that is canonical and does not wrap (R226): it lies in one half of the address space. -/
def hullOk (h : Int × Int) : Bool :=
  decide (0 ≤ h.1 ∧ h.2 ≤ 2 ^ 51) || decide ((2 ^ 64 - 2 ^ 51 : Int) ≤ h.1 ∧ h.2 ≤ 2 ^ 64)

/-- Whether the two ranges of a stream overlap (R234). -/
def StreamRec.overlaps (r : StreamRec) : Bool := decide (r.srcHull.1 < r.dstHull.2 ∧ r.dstHull.1 < r.srcHull.2)

/-- The status word (R229). -/
def Stream.status (st : Stream) : Dword :=
  let pos : Nat := match st.state with | 3 => st.desc.n | 4 => st.failAt | 5 => st.done_ | _ => 0
  BitVec.ofNat 64 (st.events.toNat * 2 ^ 56 + st.state * 2 ^ 48 + pos)

/-- `cps.cfg` (R224, R225). The address recorded for a misaligned base or stride is that base's or stride's own value (log 127). -/
def execCpsCfg (o : CPOp) (s : State) : Out :=
  s.runWhen (.cp 0 o) (fun s c => s.readOpen c.sid c.t c.l.toNat 64) fun s c =>
    s.readRecord c c.l.toNat 64 64 fun s x =>
      let r := streamRecOf x
      if streamReserved x then s.raise c.sid kStream 0x01 c.idx 0 0
      else
        match r.broken with
        | some sub => s.raise c.sid kStream sub c.idx 0 0
        | none =>
          match r.misaligned with
          | some va => s.raise c.sid kAlign 0 c.idx va 0
          | none =>
            if ((s.core (coreOf c.sid)).stream o.stream.toNat).state = 2 then s.raise c.sid kStream 0x05 c.idx 0 0
            else (s.updWin c.sid (·.post c.idx (.cpsCfg o.stream.toNat r))).give c (.cp 0 o) (.val 0)

/-- The record that a `cps.go` uses, with the state of its stream (R226): that of the nearest accepted `cps.cfg` of lower index, else
the committed one. -/
def State.goRec (s : State) (c : Ctx) (k : Nat) : Nat × StreamRec :=
  match (c.w.posts.filterMap fun kv => match kv.2 with | .cpsCfg j r => if j = k ∧ kv.1 < c.idx then some r else none | _ => none).getLast? with
  | some r => (1, r)
  | none => let st := (s.core (coreOf c.sid)).stream k; (st.state, st.desc)

/-- `cps.go` (R224, R226): its wait for a `cps.cfg` of its block stands in `State.gate`. -/
def execCpsGo (o : CPOp) (s : State) : Out :=
  s.run (.cp 1 o) fun s c =>
    let g := s.goRec c o.stream.toNat
    if g.1 ≠ 1 ∧ g.1 ≠ 4 then s.raise c.sid kStream 0x06 c.idx 0 0
    else s.snapshot c g.2.scope fun s sn =>
      if !(hullOk g.2.srcHull && hullOk g.2.dstHull) then s.raise c.sid kStream 0x07 c.idx 0 0
      else (s.updWin c.sid (·.post c.idx (.cpsGo o.stream.toNat sn g.2))).give c (.cp 1 o) (.val 0)

/-- `cps.step` (R224). -/
def execCpsStep (o : CPOp) (s : State) : Out :=
  s.run (.cp 2 o) fun s c =>
    let st := (s.core (coreOf c.sid)).stream o.stream.toNat
    if st.state < 2 ∨ 4 < st.state ∨ st.desc.free then s.raise c.sid kStream 0x06 c.idx 0 0
    else (s.updWin c.sid (·.post c.idx (.cpsStep o.stream.toNat))).give c (.cp 2 o) (.val 0)

/-- `cps.avail` (R224). -/
def execCpsAvail (o : CPOp) (s : State) : Out :=
  s.run (.cp 3 o) fun s c => s.give c (.cp 3 o) (.val (BitVec.ofNat 64 ((s.core (coreOf c.sid)).stream o.stream.toNat).avail))

/-- `cps.wait` (R224, R229): its wait for a running stream stands in `State.gate`. -/
def execCpsWait (o : CPOp) (s : State) : Out :=
  s.run (.cp 4 o) fun s c => s.give c (.cp 4 o) (.val ((s.core (coreOf c.sid)).stream o.stream.toNat).status)

/-- `cps.kill` (R224). -/
def execCpsKill (o : CPOp) (s : State) : Out :=
  s.run (.cp 5 o) fun s c => (s.updWin c.sid (·.post c.idx (.cpsKill o.stream.toNat))).give c (.cp 5 o) (.val 0)

/-- The `vldcs` of the core's running blocks that wait on a stream look at it again. -/
def State.wakeVldcs (s : State) (core k : Nat) : State :=
  (s.running core).foldl (fun s x =>
    x.2.2.accs.foldl (fun (s : State) kv =>
      match x.2.2.view kv.1 with
      | some (.vm 0x2C 7 _) => if kv.2.data = k ∧ kv.2.phase = .reading then s.fixVldcs x.1 kv.1 else s
      | _ => s) s) s

/-- A change of a stream's state is seen by the `vldcs` that wait on it (R190); where it completes a strip and retires it at once, they see the strip
complete first. -/
def State.setStream (s : State) (core k : Nat) (f : Stream → Stream) : State :=
  let old := (s.core core).stream k
  let new := f old
  if old.state = 2 ∧ new.state = 2 ∧ new.cur ≠ old.cur then
    ((s.updStream core k fun _ => { new with cur := old.cur }).wakeVldcs core k |>.updStream core k fun _ => new).wakeVldcs core k
  else (s.updStream core k fun _ => new).wakeVldcs core k

/-- The commit of a `cps.cfg` (R223, R224). -/
def State.postCfg (s : State) (core k : Nat) (r : StreamRec) : State :=
  s.setStream core k fun st => { Stream.reset with gang := st.gang, desc := r, state := 1 }

/-- The commit of a `cps.go` of strand `sid` (R223, R224, R228, R231): from position 0, or from the faulting element; the stream takes
its two interlock entries. -/
def State.postGo (s : State) (sid k : Nat) (sn : Sedge) : State :=
  let core := coreOf sid
  let st := (s.core core).stream k
  match s.strand? sid with
  | none => s
  | some t =>
    if st.state ≠ 1 ∧ st.state ≠ 4 then s
    else
      let q := s.fresh
      let st := if st.state = 1 then { Stream.reset with gang := st.gang, desc := st.desc } else st
      let st := { st with state := 2, issuer := sid, cid := t.cid, snap := sn, item := q.1, strips := [], failKind := 0, draining := false, sent := s.now }
      let src : Interlock := { stream := some k, item := q.1, lo := st.desc.srcHull.1.toNat, hi := st.desc.srcHull.2.toNat, write := false }
      let dst : Interlock := { stream := some k, item := q.1, lo := st.desc.dstHull.1.toNat, hi := st.desc.dstHull.2.toNat, write := true }
      (q.2.setStream core k fun _ => st).updStrand sid fun t => { t with lock := t.lock ++ [src, dst] }

/-- The commit of a `cps.step` (R224, R227): the next strip becomes current, of a stream too that has been killed since its check. -/
def State.postStep (s : State) (core k : Nat) : State :=
  s.setStream core k fun st => if 2 ≤ st.state then { st with cur := st.cur + 1 } else st

/-- The commit of a `cps.kill`, and the kill of a stream by the end of its gang (R224, R331). -/
def State.postKill (s : State) (core k : Nat) : State :=
  let st := (s.core core).stream k
  if st.state = 2 ∨ st.state = 4 then s.setStream core k fun st => { st with state := 5, strips := [] } else s

/-- A committed operation of the strand, earlier than a stream access, that still touches bytes the access reads or writes (R231). -/
def itemsHold (t : Strand) (before : Nat) (write : Bool) (vas pas : List Nat) : Bool :=
  t.items.any fun i => i.q < before && (match i.kind with
    | .store segs _ _ _ => pas.any fun p => segs.any fun g => g.bytes.has p
    | .atomic _ size pa _ _ _ _ _ _ => pas.any fun p => pa ≤ p && p < pa + size
    | .tile w lo hi _ _ => (w || write) && (vas.any (fun b => lo ≤ b && b < hi) || pas.any (t.tileHits i.q))
    | .vamerge base desc _ _ => vas.any fun b => base ≤ b && b < base + winLen (BitVec.ofNat 64 desc)
    | _ => false)

/-- The byte at which a physical access performs (R361): a fabric address of this device loops back to FXBASE + o; none where the
access is refused. -/
def State.target (s : State) (pa : Nat) : Option Nat :=
  if placeOf pa = .fabric ∧ fabDev pa = s.board.devnum.toNat then
    (if fabOff pa < s.board.fxsize.toNat ∧ s.board.fxbase.toNat + fabOff pa < hbmTop then some (s.board.fxbase.toNat + fabOff pa) else none)
  else some pa

/-- One access of a stream to one container (R181, R228, R357, R362): its physical address, or the fault it meets. It is checked under the privilege that
the issuing strand has then (log 128). -/
def State.streamCheck (s : State) (core : Nat) (st : Stream) (t : Strand) (acc va : Nat) : Except Bad Nat × State :=
  let ps := onePart va st.desc.cb
  let r := s.xlateAll core t.asid.toNat (s.rootOf t.ctx) (partPages ps) []
  match worst (ps.filterMap (partBad r.2 (if st.snap.fabric then 4 else 1) acc t.sup r.1)) with
  | some b => (.error b, r.2)
  | none =>
    match physOf core r.1 va with
    | none => (.error ⟨2, kTrans, 0x01, va, 0⟩, r.2)
    | some pa =>
      if s.noRoute pa then (.error ⟨5, kRemote, 0x01, va, 0⟩, r.2)
      else if placeOf pa = .host ∧ s.hostDown then (.error ⟨5, kPoison, 0, va, pa⟩, r.2)
      else match s.target pa with | some p => (.ok p, r.2) | none => (.error ⟨5, kRemote, 0x03, va, 0⟩, r.2)

/-- A failure that no fault of the stream reports: its page walk has met an uncorrectable error, on a path after commit (R349). -/
def Bad.fatalWalk (b : Bad) : Bool := b.kind == kPoison && b.rank == 2

/-- Whether a container's bytes are free for a stream's access: nothing of its strand that comes earlier holds them (R231), nor does a fence that its
`cps.go` follows (R262, R266), and for a write no reservation (R252), and that it follows every other in coherence order (R245, R263); what was sent for can have come, and no link on its way
retrains, nor on that of its translation (R280, R353); an access to another device can leave (R359), and a bank of the scratchpad can accept one (R195, R280). -/
def State.streamFree (s : State) (core : Nat) (st : Stream) (t : Strand) (write : Bool) (va pa : Nat) : Bool :=
  let vas := (List.range st.desc.cb).map (va + ·)
  let pas := (List.range st.desc.cb).map (pa + ·)
  s.partsOpen core t (onePart va st.desc.cb) && !itemsHold t st.item write vas pas && fencesAllow (!write) [] t.items st.item && !lockHolds (s.core core) t st.item write vas && !(write && s.resv.has (lineOf pa)) &&
  (!write || s.lastNow (32 + core) (bytesOf pa st.desc.cb 0)) && s.crossedTo true st.sent [pa] && s.fabricReady pa && s.chanOpen pa && s.spotFree pa

/-- `n` bytes at their home. -/
def State.homeLe (s : State) (pa : Nat) : Nat → Nat
  | 0 => 0
  | n + 1 => (s.homeByte pa).toNat + 256 * s.homeLe (pa + 1) n

/-- A stream that may access memory (R227, R231): it runs, both its interlock entries are among the first sixteen of its strand's table,
its gang is not stopped, the clocks of its core run (R282), and what it sent for can have come (R280, R353). -/
def State.streamOpen (s : State) (st : Stream) (k : Nat) : Option Strand :=
  match s.strand? st.issuer with
  | none => none
  | some t =>
    let live : Bool := match st.gang.bind s.gangs.get? with | some x => x.stopped.isNone | none => false
    if st.state = 2 ∧ ((t.lock.take 16).filter fun e => e.stream == some k && e.item == st.item).length = 2 ∧ live ∧ s.clocked (coreOf st.issuer) ∧ s.crossed st.sent then some t else none

/-- The copy engine of a core reads a container at its source: a flit asks another device for it, a bank gives it, or its home; what the issuing strand has kept
of it follows (R195, R264, R359). -/
def State.streamTake (s : State) (st : Stream) (pa : Nat) : State :=
  (((s.sendFlit pa).useSpot pa).touchL2 pa).saw st.issuer st.item ((List.range st.desc.cb).map (pa + ·))

/-- The reading of a strip before anything of it is written (R234): the values of its elements, until one fails. -/
def State.readStrip (s : State) (core : Nat) (st : Stream) (t : Strand) : List Nat → NMap Nat → NMap (Nat × Nat) → Except (Nat × Nat) Unit × Strip × State
  | [], vals, came => (.ok (), { t := 0, vals := vals, came := came }, s)
  | i :: is, vals, came =>
    let r := s.streamCheck core st t 0 (st.desc.srcAt i)
    match r.1 with
    | .error b => (.error (b.kind, i), { t := 0, vals := vals, came := came }, r.2)
    | .ok pa => (r.2.streamTake st pa).readStrip core st t is (vals.put i (r.2.homeLe pa st.desc.cb)) (came.put i ((r.2.touchL2 pa).spotStop pa, pa))

/-- The first element of some whose reading ends in a fatal record, by an uncorrectable error in its bytes or in its page walk (R349): the
error's address. An element that fails before it, and stops the stream, is first. -/
def State.stripPoison (s : State) (core : Nat) (st : Stream) (t : Strand) (is : List Nat) : Option Nat :=
  (is.findSome? fun i => match (s.streamCheck core st t 0 (st.desc.srcAt i)).1 with
    | .ok pa => if s.poisoned pa then some (some pa) else none
    | .error b => some (if b.fatalWalk then some b.pa else none)).join

/-- A committed path of a stream has met an uncorrectable error (R301, R349), which is counted. -/
def State.streamFatal (s : State) (core : Nat) (st : Stream) (pa : Nat) : State := s.fatal (st.gang.getD 256) core 2 pa
def State.streamPoison (s : State) (core : Nat) (st : Stream) (pa : Nat) : State := (s.meetError pa).streamFatal core st pa

/-- STREAM_STRIP_FETCH (R227, R234): a running stream takes its next strip into its buffer. Where its ranges overlap, the strip is read
whole, once the strips before it are written. -/
def streamStripFetch (core k : Nat) (s : State) : Option State :=
  let st := (s.core core).stream k
  let d := st.desc
  match s.streamOpen st k with
  | none => none
  | some t =>
    let n := st.done_ / d.strip + st.strips.length
    if d.strips ≤ n ∨ st.cur + 1 < n ∨ 2 ≤ st.strips.length ∨ st.draining ∨ st.failKind ≠ 0 then none
    else if !d.overlaps then some (s.setStream core k fun st => { st with strips := st.strips ++ [{ t := n, vals := [] }], sent := s.now })
    else if !st.strips.isEmpty ∧ d.red ≠ 2 then none
    else
      let is := (List.range d.strip).filterMap fun j => let i := n * d.strip + j; if i < d.n ∧ !st.isWritten i then some i else none
      let open_ := is.all fun i => match (s.streamCheck core st t 0 (d.srcAt i)).1 with | .ok pa => s.streamFree core st t false (d.srcAt i) pa | .error _ => true
      if !open_ then none
      else match s.stripPoison core st t is with
      | some pa => some (s.streamPoison core st pa)
      | none =>
        let r := s.readStrip core st t is [] []
        let fail : Nat × Nat := match r.1 with | .error e => e | .ok _ => (0, 0)
        some (r.2.2.setStream core k fun st => { st with strips := st.strips ++ [{ r.2.1 with t := n }], sent := s.now, failKind := fail.1, failAt := if fail.1 = 0 then st.failAt else fail.2 })

/-- STREAM_STRIP_FETCH. -/
def execStreamStripFetch (core stream : Nat) (s : State) : Out := s.act (streamStripFetch core stream s)

/-- A sum rounded to a float format, with its events (R227). -/
def addRound (f : Fmt) (a b : XV) : Nat × Nat :=
  let r := putFmt f 0 false 0 (a.add false b)
  (r.1, r.2 ||| sigInv [a, b] ||| (if a.addInvalid b then fINV else 0))

/-- The first element that is neither written nor in `m`. -/
def prefixFrom (m : NMap Bool) : Nat → Nat → Nat
  | 0, k => k
  | n + 1, k => if m.has k then prefixFrom m n (k + 1) else k

/-- An element of a stream has been written or folded (R227): the prefix grows, strips that are done leave the buffer, and with FREE = 1
they are retired; the last one stays the current strip (log 130). -/
def Stream.progress (st : Stream) (i : Nat) : Stream :=
  let w := st.written.put i true
  let d := prefixFrom w w.length st.done_
  let c := d / st.desc.strip
  let full := d = st.desc.n
  { st with done_ := d, written := w.filter fun kv => d ≤ kv.1, strips := st.strips.filter fun p => !(full || decide (p.t < c)),
            cur := if st.desc.free then max st.cur (min c (st.desc.strips - 1)) else st.cur,
            saved := if st.desc.red = 2 ∧ st.done_ / st.desc.strip < c ∧ !full then st.part else st.saved }

/-- The write of one container by the copy engine of a core; what the issuing strand has kept of it follows (R263). -/
def State.streamPut (s : State) (core : Nat) (st : Stream) (pa v : Nat) : State :=
  (((s.sendFlit pa).useSpot pa).performBytes (32 + core) none (bytesOf pa st.desc.cb v)).saw st.issuer st.item ((List.range st.desc.cb).map (pa + ·))

/-- An element that the source has sent (R280): its value, the quantum at which it left and its place there. -/
def Stream.source (st : Stream) (i : Nat) : Option (Nat × Nat × Nat) :=
  (st.strips.find? fun p => p.t == i / st.desc.strip).bind fun p => (p.vals.get? i).map fun v => (v, (p.came.get? i).getD (st.sent, 0))

/-- An element is read at its source, and sent to its place. -/
def Stream.send (st : Stream) (i v now pa : Nat) : Stream :=
  { st with strips := st.strips.map fun p => if p.t = i / st.desc.strip then { p with vals := p.vals.put i v, came := p.came.put i (now, pa) } else p }

/-- What an element does when it arrives (R222, R227): the bits written at its destination, its partial sum, its events. A signalling NaN among the operands
of a sum raises `inv`, but not the initial read of a destination element under RED = 2 (log 129). -/
def Stream.arrive (st : Stream) (i old x : Nat) : Option Nat × Stream :=
  let d := st.desc
  let f := fmtOf d.fmt
  let w := f.width
  match d.red with
  | 0 => (some (x % 2 ^ (8 * d.cb)), st.progress i)
  | 1 =>
    if f.isInt then (some ((old % 2 ^ w + x % 2 ^ w) % 2 ^ w), st.progress i)
    else
      let r := addRound f (elemValue f (old % 2 ^ w) 0) (elemValue f (x % 2 ^ w) 0)
      (some r.1, { st.progress i with events := st.events ||| BitVec.ofNat 6 r.2 })
  | _ =>
    let k := i % d.strip
    let p0 : Nat × Nat := match st.part.get? k with | some p => (p.toNat, 0) | none => putFmt fp32 0 false 0 (elemValue f (old % 2 ^ w) 0)
    let r := addRound fp32 (elemValue fp32 p0.1 0) (elemValue f (x % 2 ^ w) 0)
    let st := { st with saved := if st.part.has k then st.saved else st.saved.put k (BitVec.ofNat 32 p0.1), part := st.part.put k (BitVec.ofNat 32 r.1),
                        events := st.events ||| BitVec.ofNat 6 (r.2 ||| p0.2) }
    (none, st.progress i)

/-- Whether an element may arrive: its strip is in the buffer and it is still to be written; under RED = 2 the strips before it are
folded, so that strips fold in ascending order (R227). -/
def Stream.due (st : Stream) (i : Nat) : Bool :=
  !st.isWritten i && decide (i < st.desc.n) && (st.strips.any fun p => p.t == i / st.desc.strip) && (st.failKind == 0 || decide (i < st.failAt)) &&
  (st.desc.red != 2 || decide (i / st.desc.strip = st.done_ / st.desc.strip))

/-- STREAM_ELEMENT_ARRIVAL (R227, R231, R232, R278, R280): one element is read at its source; once it has crossed, it is written, reduced or folded. The
read-modify-write of RED = 1 is indivisible, and takes its home 4 q. -/
def streamElementArrival (core k i : Nat) (s : State) : Option State :=
  let st := (s.core core).stream k
  let d := st.desc
  match s.streamOpen st k with
  | none => none
  | some t =>
    if !st.due i then none
    else
      match st.source i with
      | none =>
        let a := s.streamCheck core st t 0 (d.srcAt i)
        match a.1 with
        | .error b => if b.fatalWalk then some (a.2.streamFatal core st b.pa) else none
        | .ok pa =>
          if !s.streamFree core st t false (d.srcAt i) pa then none
          else if s.poisoned pa then some (a.2.streamPoison core st pa)
          else some ((a.2.streamTake st pa).setStream core k (·.send i (a.2.homeLe pa d.cb) ((a.2.touchL2 pa).spotStop pa) pa))
      | some (x, sent, place) =>
        if !s.crossedTo true sent [place] then none
        else if d.red = 2 ∧ st.part.has (i % d.strip) then some (s.setStream core k fun st => (st.arrive i 0 x).2)
        else
          let b := s.streamCheck core st t 1 (d.dstAt i)
          match b.1 with
          | .error e => if e.fatalWalk then some (b.2.streamFatal core st e.pa) else none
          | .ok pa =>
            if !s.streamFree core st t (d.red != 2) (d.dstAt i) pa then none
            else if s.poisoned pa then some (b.2.streamPoison core st pa)
            else
              let r := st.arrive i (b.2.homeLe pa d.cb) x
              let s := match r.1 with | some v => (if d.red = 1 then b.2.l2Work pa 4 else b.2).streamPut core st pa v | none => b.2.streamTake st pa
              some (s.setStream core k fun _ => r.2)

/-- STREAM_ELEMENT_ARRIVAL. -/
def execStreamElementArrival (core stream elem : Nat) (s : State) : Out := s.act (streamElementArrival core stream elem s)

/-- STREAM_RED2_FINAL_WRITE (R227, R232): destination element k below N takes its partial sum rounded (log 109). -/
def streamRed2FinalWrite (core k e : Nat) (s : State) : Option State :=
  let st := (s.core core).stream k
  let d := st.desc
  match s.streamOpen st k with
  | none => none
  | some t =>
    if d.red ≠ 2 ∨ st.done_ ≠ d.n ∨ min d.strip d.n ≤ e ∨ st.finals.has e then none
    else
      let b := s.streamCheck core st t 1 (d.dstAt e)
      match b.1 with
      | .error x => if x.fatalWalk then some (b.2.streamFatal core st x.pa) else none
      | .ok pa =>
        if st.failKind ≠ 0 || !s.streamFree core st t true (d.dstAt e) pa then none
        else if s.poisoned pa then some (b.2.streamPoison core st pa)
        else
          let r := putFmt (fmtOf d.fmt) 0 false 0 (elemValue fp32 (st.part.getD e 0).toNat 0)
          some ((b.2.streamPut core st pa r.1).setStream core k fun st =>
            { st with finals := st.finals.put e true, events := st.events ||| BitVec.ofNat 6 r.2 })

/-- STREAM_RED2_FINAL_WRITE. -/
def execStreamRed2FinalWrite (core stream elem : Nat) (s : State) : Out := s.act (streamRed2FinalWrite core stream elem s)

/-- Every element of a stream is written, with the destination below N under RED = 2 (log 109). -/
def Stream.complete (st : Stream) : Bool :=
  st.done_ == st.desc.n && (st.desc.red != 2 || st.finals.length == min st.desc.strip st.desc.n)

/-- STREAM_DONE (R223, R227, R233): every element is written, and the stream is DONE; or the issuing strand has halted, the strips fetched
are written, and the stream is KILLED. A drain leaves the current strip as it is (log 131). -/
def streamDone (core k : Nat) (s : State) : Option State :=
  let st := (s.core core).stream k
  if st.state ≠ 2 then none
  else if st.complete then some (s.setStream core k fun st => { st with state := 3 })
  else if st.draining ∧ st.strips.isEmpty ∧ st.done_ ≠ st.desc.n then some (s.setStream core k fun st => { st with state := 5 })
  else none

/-- STREAM_DONE. -/
def execStreamDone (core stream : Nat) (s : State) : Out := s.act (streamDone core stream s)

/-- The kind of the fault of one access of a stream (R228, R353, R361, R362): a check that it fails, once its translation can come, or the refusal of
another device that it goes to, where `refused`. -/
def State.accessFails (s : State) (core : Nat) (st : Stream) (t : Strand) (acc va : Nat) (refused : Bool) : Option Nat :=
  if !s.partsOpen core t (onePart va st.desc.cb) then none
  else match (s.streamCheck core st t acc va).1 with
  | .error b => if b.fatalWalk then none else some b.kind
  | .ok pa => if refused ∧ (s.remotePort pa).isSome then some kRemote else none

/-- The kind and the address of the access of element i that fails now (R228). -/
def State.streamFails (s : State) (core : Nat) (st : Stream) (t : Strand) (i : Nat) (refused : Bool) : Option (Nat × Nat) :=
  let d := st.desc
  let buffered : Bool := ((st.strips.find? fun p => p.t == i / d.strip).bind (·.vals.get? i)).isSome
  let src : Bool := !buffered && (match (s.streamCheck core st t 0 (d.srcAt i)).1 with | .ok pa => placeOf pa == .fabric | .error b => b.kind == kRemote)
  if st.failKind ≠ 0 ∧ i = st.failAt then some (st.failKind, if st.failKind ≠ kRemote ∨ src then d.srcAt i else d.dstAt i)
  else
    match (if buffered then none else s.accessFails core st t 0 (d.srcAt i) refused) with
    | some e => some (e, d.srcAt i)
    | none =>
      if d.red = 2 ∧ st.part.has (i % d.strip) then none
      else (s.accessFails core st t 1 (d.dstAt i) refused).map fun e => (e, d.dstAt i)

/-- A stream stops FAULTED at element e (R228): the additions at and above e under RED = 2 are taken back; the core writes a notice. -/
def State.streamStop (s : State) (core k : Nat) (t : Strand) (e kind va : Nat) : State :=
  let st := (s.core core).stream k
  let d := st.desc
  let p := e / d.strip * d.strip
  let part := if d.red = 2 then (List.range d.strip).foldl (fun m j => if p + j < e then m else match st.saved.get? j with | some x => m.put j x | none => m.erase j) st.part else st.part
  let s := s.setStream core k fun st =>
    { st with state := 4, strips := [], failAt := e, failKind := kind, done_ := e, part := part, finals := [],
              written := if d.red = 1 then st.written.filter fun kv => e < kv.1 else [] }
  s.notice core
    { asid := t.asid, core := BitVec.ofNat 5 core, ctxn := BitVec.ofNat 3 (ctxnOf st.issuer), fovf := false, repeat_ := false, parked := false,
      fatal := false, rpl := false, index := 0xFF, sub := 0, kind := BitVec.ofNat 8 kStreamNote, block := 0, vaddr := BitVec.ofNat 64 va,
      info := BitVec.ofNat 64 (k + kind * 256), info2 := BitVec.ofNat 64 e, qt := s.qtime, seq := 0, gang := BitVec.ofNat 8 t.gang }

/-- STREAM_ACCESS_FAULT (R228, R360, R361, R362): the access of element e fails, with every element below it written; or, after the last strip
of RED = 2, the write of destination element e fails and the stream stops at the first element of its last strip. With `refused` not 0 the
other device that the access goes to has refused it. -/
def streamAccessFault (core k e refused : Nat) (s : State) : Option State :=
  let st := (s.core core).stream k
  let d := st.desc
  match s.streamOpen st k with
  | none => none
  | some t =>
    if d.red = 2 ∧ st.done_ = d.n then
      if min d.strip d.n ≤ e ∨ st.finals.has e then none
      else
        (if st.failKind ≠ 0 then some st.failKind else s.accessFails core st t 1 (d.dstAt e) (refused != 0)).map fun kind =>
          s.streamStop core k t ((d.strips - 1) * d.strip) kind (d.dstAt e)
    else if st.done_ ≠ e ∨ d.n ≤ e ∨ !(st.strips.any fun p => p.t == e / d.strip) then none
    else (s.streamFails core st t e (refused != 0)).map fun f => s.streamStop core k t e f.1 f.2

/-- The number that, added to the element which STREAM_ACCESS_FAULT names, says that the other device refused the access; every element is
below it. -/
def refusedMark : Nat := 2 ^ 64

/-- STREAM_ACCESS_FAULT. -/
def execStreamAccessFault (core stream elem : Nat) (s : State) : Out :=
  s.act (streamAccessFault core stream (elem % refusedMark) (elem / refusedMark) s)

/-- INTERLOCK_WAIT_END (R231): the operation of an entry has passed every byte, and its entry frees; an access or an operation that
waited on it proceeds. -/
def interlockWaitEnd (sid : Nat) (s : State) : Option State :=
  match s.strand? sid with
  | none => none
  | some t =>
    let c := s.core (coreOf sid)
    let ended (e : Interlock) : Bool := match e.stream with
      | some k => (c.stream k).state != 2 || (c.stream k).issuer != sid || (c.stream k).item != e.item
      | none => !t.items.any (·.q == e.item)
    if t.lock.any ended then some (s.updStrand sid fun t => { t with lock := t.lock.filter fun e => !ended e }) else none

/-- INTERLOCK_WAIT_END. -/
def execInterlockWaitEnd (sid : Nat) (s : State) : Out := s.act (interlockWaitEnd sid s)

end Sys2Proof.Machine
end

