-- ==== Sys2Proof/Machine/Matrix.lean ====
section
/-! DEFINITION. The matrix engine (R198 to R219): the tile instructions up to their commit, the plane array's issue and steps, and
what a posted form does when it performs. -/

namespace Sys2Proof

/-- The rows that an `mld` or `mst` moves (R213), and the row of an `mvrow` (R217). -/
def TOp.row0 (o : TOp) : Nat := 32 * (o.imm.toNat % 32)
def TOp.rowCount (o : TOp) : Nat := 32 * (o.imm.toNat / 32 % 32 + 1)
def TOp.line (o : TOp) : Nat := o.imm.toNat % 1024

/-- The shape that an `mshape` makes (R207), and its limit (R199). -/
def TOp.shape (o : TOp) : Machine.Shape :=
  { rows := 32 * (o.imm.toNat % 32 + 1), cols := 32 * (o.imm.toNat / 32 % 32 + 1), cell := o.imm.toNat / 1024 % 4 }
def Machine.Shape.fits (sh : Machine.Shape) : Bool := sh.rows * sh.cols ≤ (if sh.cell = 2 then 65536 else 131072)

end Sys2Proof

namespace Sys2Proof.Machine

/-- Whether the kinds of a tile form's formats do not match the cell type (R209 to R217, tile fault 0x04). -/
def tileMismatch (pm cell : Nat) (a : Fmt) : Bool :=
  match pm with
  | 2 => cell == 2 || (cell == 0 && a.isInt) || (cell == 1 && a.isFlt)
  | 3 => cell != 0
  | 4 => cell != 2
  | 5 => (cell == 1) != a.isInt
  | 8 => (cell == 1) != a.isInt
  | _ => false

/-- The dispatch checks of a posted tile form in their order (R203, R204): the shape it is checked against, or its fault. -/
def State.tileCheck (s : State) (c : Ctx) (pm : Nat) (o : TOp) : Except (Nat × Nat) Shape :=
  let v : View := .tile pm o
  let fw := c.t.fw v
  let sh := s.shapeFor c.sid c.w c.idx o.acc.toNat
  match (if pm < 2 then none else fmtWordBad v fw sh false) with
  | some sub => .error (kFmtWord, sub)
  | none =>
    match sh with
    | none => .error (kTile, 0x02)
    | some x =>
      if tileMismatch pm x.cell (fmtOf (fwSrc1 fw)) then .error (kTile, 0x04)
      else if (pm = 5 ∨ pm = 6) ∧ x.rows < o.row0 + o.rowCount then .error (kTile, 0x05)
      else if pm = 8 ∧ x.rows ≤ o.line then .error (kTile, 0x05)
      else if (pm = 5 ∨ pm = 6 ∨ pm = 8) ∧ fwFrnd fw = 5 then .error (kTile, 0x09)
      else .ok x

/-- The vector, mask and scale operands, the register length and the n that a posted form fixes before commit (R202), as a block gives them to its index
(R138). -/
def TileOp.fixed (p : TileOp) (t : Strand) (w : Window) (pm : Nat) (o : TOp) : TileOp :=
  let reg (r : Nat) : Nat := w.readV t r p.idx
  let deep := pm == 2 || pm == 3 || pm == 4
  { p with
    va := if deep then (groupFrom o.va.toNat o.depth).map reg else if pm = 8 then [reg o.va.toNat] else [],
    vb := if deep then (groupFrom o.vb.toNat o.depth).map reg else [],
    mask := w.readM t o.msk.toNat p.idx,
    sca := if pm = 3 then w.readS t o.sca.toNat p.idx else if pm = 8 then w.readS t (fwScla p.fw) p.idx else 0,
    scb := if pm = 3 then w.readS t o.scb.toNat p.idx else 0,
    vlenb := Machine.vlenb t.grant, n := w.countOf t (.tile pm o) p.fw (Machine.vlenb t.grant) }

/-- A posted form as it is accepted (R202, R203): its registers are fixed again at its commit, when all that it reads is there. -/
def tileOpOf (c : Ctx) (pm : Nat) (o : TOp) (sh : Shape) : TileOp :=
  ({ idx := c.idx, item := 0, op := pm, tile := o.acc.toNat, shape := sh, va := [], vb := [], mask := 0, sca := 0, scb := 0,
     fw := c.t.fw (.tile pm o), n := 0, kg := o.depth, vlenb := c.t.vb, row := if pm = 8 then o.line else o.row0, count := o.rowCount,
     base := c.l.toNat, stride := c.r.toNat, xl := [] } : TileOp).fixed c.t c.w pm o

/-- An accepted form is posted and delivers 0 (R203). -/
def State.tilePost (s : State) (c : Ctx) (v : View) (op : TileOp) : State :=
  (s.updWin c.sid (·.post c.idx (.tile op))).give c v (.val 0)

/-- A posted form that touches no memory (R203). -/
def State.tileForm (s : State) (pm : Nat) (o : TOp) : Out :=
  s.run (.tile pm o) fun s c =>
    match s.tileCheck c pm o with
    | .error f => s.raise c.sid f.1 f.2 c.idx 0 0
    | .ok sh => s.tilePost c (.tile pm o) (tileOpOf c pm o sh)

/-- `mshape` (R207): it checks its own record. -/
def execMshape (o : TOp) (s : State) : Out :=
  s.run (.tile 0 o) fun s c =>
    if !o.shape.fits then s.raise c.sid kTile 0x01 c.idx 0 0
    else s.tilePost c (.tile 0 o) (tileOpOf c 0 o o.shape)

/-- `mzero` (R208). -/
def execMzero (o : TOp) (s : State) : Out := s.tileForm 1 o

/-- `mop` (R209). -/
def execMop (o : TOp) (s : State) : Out := s.tileForm 2 o

/-- `mopmx` (R211). -/
def execMopmx (o : TOp) (s : State) : Out := s.tileForm 3 o

/-- `mopd` (R212). -/
def execMopd (o : TOp) (s : State) : Out := s.tileForm 4 o

/-- `mvrow` (R217). -/
def execMvrow (o : TOp) (s : State) : Out := s.tileForm 8 o

/-- `mld` and `mst` (R213 to R215): the dispatch checks, the alignment, the probe and the pins; then the form is posted and its LSID
resolves. It waits for a link on the way of its translations that retrains (R353). The address of an alignment fault is the base, of a stride that is misaligned too (log 85). The record of tile
fault 0x06 carries the index of the load (log 107). -/
def State.tileMove (s : State) (pm : Nat) (o : TOp) : Out :=
  let acc := if pm = 6 then 1 else 0
  s.runWhen (.tile pm o)
    (fun s c =>
      match s.tileCheck c pm o with
      | .error _ => true
      | .ok sh =>
        let op := tileOpOf c pm o sh
        let p := s.probeNow (coreOf c.sid) c.t.asid c.t.ctx 1 acc c.t.sup op.parts
        s.partsOpen (coreOf c.sid) c.t op.parts && match c.t.pinCheck (accessPins p.2.1 op.parts) with
        | .wait => p.1.isSome
        | _ => true)
    fun s c =>
      match s.tileCheck c pm o with
      | .error f => s.raise c.sid f.1 f.2 c.idx 0 0
      | .ok sh =>
        let op := tileOpOf c pm o sh
        if op.base % 64 ≠ 0 ∨ op.stride % 64 ≠ 0 then s.raise c.sid kAlign 0 c.idx op.base acc
        else
          let p := s.probeNow (coreOf c.sid) c.t.asid c.t.ctx 1 acc c.t.sup op.parts
          match p.1 with
          | some b => p.2.2.raise c.sid b.kind b.sub c.idx b.va acc b.pa
          | none =>
            match c.t.pinCheck (accessPins p.2.1 op.parts) with
            | .fault => p.2.2.raise c.sid kPinLimit 0 c.idx 0 0
            | _ =>
              let op := { op with xl := p.2.1 }
              match (if pm = 6 then c.w.loadOver (coreOf c.sid) o.lsid.toNat (op.moves (coreOf c.sid)) else none) with
              | some k => p.2.2.raise c.sid kTile 0x06 k 0 0
              | none =>
                (p.2.2.tilePost c (.tile pm o) op).updWin c.sid (·.resolve o.lsid.toNat c.idx c.at_)

/-- `mld` (R213). -/
def execMld (o : TOp) (s : State) : Out := s.tileMove 5 o

/-- `mst` (R213). -/
def execMst (o : TOp) (s : State) : Out := s.tileMove 6 o

/-- A cell of a tile as its bits, and a cell written (R199). -/
def Tile.bits (x : Tile) (k : Nat) : Nat := (x.cells.getD k 0).toNat
def Tile.cell (x : Tile) (sh : Shape) (i j : Nat) : Nat :=
  let k := i * sh.cols + j
  if sh.cell = 2 then x.bits (2 * k) + 2 ^ 32 * x.bits (2 * k + 1) else x.bits k
def Tile.setBits (x : Tile) (k v : Nat) : Tile :=
  if v % 2 ^ 32 = 0 then { x with cells := x.cells.erase k } else { x with cells := x.cells.put k (BitVec.ofNat 32 v) }
def Tile.setCell (x : Tile) (sh : Shape) (i j v : Nat) : Tile :=
  let k := i * sh.cols + j
  if sh.cell = 2 then (x.setBits (2 * k) (v % 2 ^ 32)).setBits (2 * k + 1) (v / 2 ^ 32) else x.setBits k v

/-- `mrowv` and `mcolv` (R216): the elements of a row or a column of the tile as it stands, converted to DST. -/
def State.tileRead (s : State) (pm : Nat) (o : TOp) : Out :=
  s.runVec (.tile pm o) fun s c =>
    let v : View := .tile pm o
    let fw := c.t.fw v
    let tile := (s.core (coreOf c.sid)).tile o.acc.toNat
    let sh := tile.shape.getD ((s.shapeFor c.sid c.w c.idx o.acc.toNat).getD default)
    let d := fmtOf (fwDst fw)
    let vb := c.t.vb
    let n := min (c.w.countOf c.t v fw vb) (if pm = 7 then sh.cols else sh.rows)
    s.updWin c.sid fun w =>
      let old := w.readV c.t o.va.toNat c.idx
      let mask := w.readM c.t o.msk.toNat c.idx
      let r := (List.range n).foldl (fun (st : Nat × Window) j =>
        if mask.testBit j then
          let q := if rounds sh.fmt d then st.2.drawIf c.t (fwFrnd fw) (laneOf vb d.width j) else (0, st.2)
          let x := elemValue sh.fmt (if pm = 7 then tile.cell sh o.line j else tile.cell sh j o.line) 0
          let p := convert sh.fmt d (fwFrnd fw) (fwSat fw) q.1 x
          (st.1 ||| (p.1 % 2 ^ d.width) <<< (j * d.width), q.2.eventMask c.idx (p.2 ||| sigInv [x]) j)
        else (st.1 ||| maskOff (fwMask fw) old d.width j <<< (j * d.width), st.2)) (0, w)
      r.2.putGroup c.idx o.va.toNat 1 vb (withTail old (8 * vb) n d.width (fwTail fw) r.1)

/-- `mrowv` (R216). -/
def execMrowv (o : TOp) (s : State) : Out := s.tileRead 7 o

/-- `mcolv` (R216). -/
def execMcolv (o : TOp) (s : State) : Out := s.tileRead 9 o

/-- The exact sum of an old cell and its products, as `acc_put` writes it (R210): the cell's bits and events. -/
def accPut (sh : Shape) (sat : Bool) (old : XV) (ps : List (XV × XV)) : Nat × Nat :=
  let terms := old :: ps.map fun p => p.1.mul p.2
  let x := (terms.drop 1).foldl (XV.add false) old
  if sh.cell = 1 then putInt true 32 sat (x.exactInt.getD 0)
  else
    let r := putFmt sh.fmt 0 false 0 x
    let bad := ps.any (fun p => p.1.mulInvalid p.2) || (terms.any (fun t => t.isInf && t.neg) && terms.any fun t => t.isInf && !t.neg)
    (r.1, r.2 ||| sigInv (old :: ps.flatMap fun p => [p.1, p.2]) ||| (if bad then fINV else 0))

/-- An FP64 operand of `mopd` cut to its first S slices (R212). -/
def cutSlices (n : Nat) (x : XV) : XV :=
  match x with
  | .fin neg m q => .fin neg ((m * 2 ^ 11) >>> (64 - 16 * n) <<< (64 - 16 * n)) (q - 11)
  | y => y

/-- Element i of A at depth k, and element j of B (R209, R211, R212). -/
def TileOp.operand (o : TileOp) (b : Bool) (k i : Nat) : XV :=
  let f := fmtOf (if b then fwSrc2 o.fw else fwSrc1 o.fw)
  let regs := if b then o.vb else o.va
  if o.op = 3 then
    let e := k * (o.vlenb * 8 / f.width) + i
    elemValue f (elem (groupBits o.vlenb regs) f.width e) (getBits (if b then o.scb else o.sca) (8 * (e / 32)) 8)
  else
    let x := elemValue f (elem (regs[k]?.getD 0) f.width i) 0
    if o.op = 4 then cutSlices (fwSlices o.fw) x else x

/-- An outer product performs (R209 to R212): the tile with its active cells summed, and the events. -/
def Tile.outer (x : Tile) (o : TileOp) : Tile × Nat :=
  let sh := o.shape
  let rows := (List.range (min sh.rows o.n)).filter o.mask.testBit
  let cols := List.range (min sh.cols o.n)
  rows.foldl (fun st i => cols.foldl (fun (st : Tile × Nat) j =>
    let ps := (List.range o.kg).map fun k => (o.operand false k i, o.operand true k j)
    let r := accPut sh (fwSat o.fw) (elemValue sh.fmt (x.cell sh i j) 0) ps
    (st.1.setCell sh i j r.1, st.2 ||| r.2)) st) (x, 0)

/-- An element converted to a cell (R213, R217), with its events. -/
def cellOf (sh : Shape) (f : Fmt) (fw bits sc : Nat) : Nat × Nat :=
  putFmt sh.fmt (fwFrnd fw) (fwSat fw) 0 (elemValue f bits sc)

/-- `mvrow` performs (R217). -/
def Tile.putRow (x : Tile) (o : TileOp) : Tile × Nat :=
  let f := fmtOf (fwSrc1 o.fw)
  ((List.range (min o.shape.cols o.n)).filter o.mask.testBit).foldl (fun st j =>
    let r := cellOf o.shape f o.fw (elem (o.va.headD 0) f.width j) (scaleOf o.sca j)
    (st.1.setCell o.shape o.row j r.1, st.2 ||| r.2)) (x, 0)

/-- The address of element (t, j) of an `mld` or `mst` (R213). -/
def TileOp.elemAt (o : TileOp) (t j : Nat) : Nat := (o.rowAt t + j * o.cb) % 2 ^ 64

/-- A byte that an `mld` reads, under the translations of its probe: at its home, or as a later load of its block has read it (R264). -/
def State.tileByte (s : State) (core : Nat) (o : TileOp) (va : Nat) : Nat :=
  match physOf core o.xl va with
  | some p => (match o.early.get? (lineOf p) with | some x => x / 2 ^ (8 * (p % 64)) % 256 | none => (s.homeByte p).toNat)
  | none => 0

/-- A container that an `mld` reads. -/
def State.readAt (s : State) (core : Nat) (o : TileOp) (va : Nat) : Nat → Nat
  | 0 => 0
  | n + 1 => s.tileByte core o va + 256 * s.readAt core o ((va + 1) % 2 ^ 64) n

/-- `mld` performs (R213, R215). -/
def State.tileLoad (s : State) (core : Nat) (x : Tile) (o : TileOp) : Tile × Nat :=
  let f := fmtOf (fwSrc1 o.fw)
  (List.range o.count).foldl (fun st t => (List.range o.shape.cols).foldl (fun (st : Tile × Nat) j =>
    let r := cellOf o.shape f o.fw (s.readAt core o (o.elemAt t j) o.cb % 2 ^ f.width) 0
    (st.1.setCell o.shape (o.row + t) j r.1, st.2 ||| r.2)) st) (x, 0)

/-- The bytes that an `mst` writes (R213): of two elements at one byte the later row, then the later column. -/
def Tile.storeOut (x : Tile) (o : TileOp) : NMap BByte × Nat :=
  let d := fmtOf (fwDst o.fw)
  (List.range o.count).foldl (fun st t => (List.range o.shape.cols).foldl (fun (st : NMap BByte × Nat) j =>
    let r := convert o.shape.fmt d (fwFrnd o.fw) (fwSat o.fw) 0 (elemValue o.shape.fmt (x.cell o.shape (o.row + t) j) 0)
    (putField st.1 (o.elemAt t j) 0 (8 * o.cb) (r.1 % 2 ^ d.width) o.cb, st.2 ||| r.2)) st) ([], 0)

/-- The hull of an `mld` or `mst` (R231). -/
def TileOp.hull (o : TileOp) : Nat × Nat :=
  let h := hullOf o.base o.stride o.count (o.shape.cols * o.cb)
  (h.1.toNat, h.2.toNat)

/-- The plane steps of a posted form (R206). -/
def TileOp.steps (o : TileOp) : Nat :=
  let a := fmtOf (fwSrc1 o.fw)
  let b := fmtOf (fwSrc2 o.fw)
  let w : Nat × Nat := if o.op = 4 then (min 53 (16 * fwSlices o.fw), min 53 (16 * fwSlices o.fw)) else (a.sigWidth, b.sigWidth)
  if o.op = 2 ∨ o.op = 3 ∨ o.op = 4 then max 1 ((o.shape.rows * o.shape.cols * o.kg * w.1 * w.2 + 2 ^ 21 - 1) / 2 ^ 21)
  else if o.op = 5 ∨ o.op = 6 then max 1 ((o.count * o.shape.cols * o.cb + 4095) / 4096)
  else 1

/-- The entries of a strand's queue that the plane array has taken and not performed. -/
def Core.planeTaken (c : Core) (sid : Nat) : Nat :=
  (match c.planeCur with | some e => if e.sid = sid then 1 else 0 | none => 0) + (c.planeFill.filter (·.sid == sid)).length

/-- The next entry of a strand's queue to issue (R206): it has crossed to the plane array (R280), and an `mld` or `mst` needs an interlock entry
(R231). -/
def State.planeHead (s : State) (core sid : Nat) : Option TileOp :=
  match s.strand? sid with
  | none => none
  | some t =>
    match t.mq[(s.core core).planeTaken sid]? with
    | some o => if !s.crossed o.sent ∨ ((o.op = 5 ∨ o.op = 6) ∧ 16 ≤ t.lock.length) then none else some o
    | none => none

/-- MATRIX_ISSUE (R206, R231): the next strand in turn issues one entry of its queue. -/
def matrixIssue (core : Nat) (s : State) : Option State :=
  let k := s.core core
  if k.planeCur.isSome || k.plane.stepping s.now || !s.clocked core then none
  else
    ((List.range 8).findSome? fun d =>
      let x := (k.planeRr + 1 + d) % 8
      (s.planeHead core (8 * core + x)).map fun o => (x, o)).map fun r =>
        let sid := 8 * core + r.1
        let s := s.updCore core fun k => { k with planeCur := some { sid := sid, left := r.2.steps }, planeRr := r.1 }
        if r.2.op = 5 ∨ r.2.op = 6 then
          let h := r.2.hull
          s.updStrand sid fun t => { t with lock := t.lock ++ [{ stream := none, item := r.2.item, lo := h.1, hi := h.2, write := r.2.op == 6 }] }
        else s

/-- MATRIX_ISSUE. -/
def execMatrixIssue (core : Nat) (s : State) : Out := s.act (matrixIssue core s)

/-- The lines that an `mld` or `mst` moves. -/
def TileOp.lines (core : Nat) (o : TileOp) : List Nat := ((o.parts.flatMap Part.ends).filterMap fun b => (physOf core o.xl b).map lineOf).eraseDups

/-- Whether an `mld` or `mst` may move its bytes (R215, R231, R242), those of a scratchpad when its banks can give them (R195, R280). An `mld` at the head of
its queue waits for what stands before its LSID, also for an `mst` of its block that is behind it in the queue, and then for ever (log 126). -/
def State.tileMayMove (s : State) (core : Nat) (t : Strand) (o : TileOp) : Bool :=
  if o.op ≠ 5 then true
  else if o.read then s.crossedTo true o.sent ((o.parts.flatMap Part.ends).filterMap (physOf core o.xl))
  else
    let vas := o.parts.flatMap Part.bytes
    !itemsHold t o.item false vas (vas.filterMap (physOf core o.xl)) && !lockHolds (s.core core) t o.item false vas &&
    fencesAllow true [] t.items o.item && (vas.filterMap (physOf core o.xl)).all s.chanOpen &&
    (o.parts.filterMap fun p => physOf core o.xl p.va).all s.spotFree

/-- The first entry that has run its fill and may perform: its strand's oldest. -/
def State.planeReady (s : State) (core : Nat) : Option (Nat × Strand × TileOp) :=
  let k := s.core core
  (k.planeFill.map (·.sid)).eraseDups.findSome? fun sid =>
    match k.planeFill.find? (·.sid == sid), s.strand? sid with
    | some e, some t =>
      match t.mq with
      | o :: _ => if e.left = 0 ∧ s.tileMayMove core t o then some (sid, t, o) else none
      | [] => none
    | _, _ => none

/-- A line of the bytes of an `mld` with an uncorrectable error (R203, R349). -/
def State.tilePoison (s : State) (core : Nat) (o : TileOp) : Option Nat :=
  if o.op ≠ 5 then none
  else (o.parts.filterMap fun p => physOf core o.xl p.va).find? fun p => s.poisoned p || (placeOf p == .host && s.hostDown)

/-- An `mld` reads its lines at their homes (R213, R215), and they are sent to the plane array (R280). They leave its core's L1, so that no later
load reads anything older there (R264). -/
def State.tileFetch (s : State) (core : Nat) (o : TileOp) : State × TileOp :=
  let ls := o.lines core
  (((ls.foldl (fun (s : State) l => s.touchL2 (64 * l)) ((o.parts.filterMap fun p => physOf core o.xl p.va).foldl State.useSpot s))).updCore core (·.dropL1 ls.contains),
   { o with read := true, sent := s.now, early := ls.foldl (fun m l => if m.has l then m else m.put l (lineFrom s.homeByte l)) o.early })

/-- A posted form performs on its tile (R203 to R217): the state with the tile, `mstat` and the strand's posted items changed. The bytes of an `mst`
leave the plane array now (R280), and what the strand has kept of them follows (R263). -/
def State.performTile (s : State) (core sid : Nat) (o : TileOp) : State :=
  let x := (s.core core).tile o.tile
  let done (s : State) (y : Tile) (ev : Nat) : State :=
    (s.updTile core o.tile fun _ => y).updStrand sid fun t => { t with mstat := t.mstat ||| BitVec.ofNat 6 ev }
  match o.op with
  | 0 => done s { x with shape := some o.shape } 0
  | 1 => done s { x with cells := [] } 0
  | 5 =>
    let r := s.tileLoad core x o
    ((done s r.1 r.2).updCore core fun k => { k with planeWake := true }).updStrand sid fun t => { t with items := t.items.filter (·.q != o.item) }
  | 6 =>
    let r := x.storeOut o
    let segs := segWrites core o.xl 64 o.parts r.1
    ((done s x r.2).updStrand sid fun t => { t with items := t.items.map fun i => if i.q = o.item then { i with kind := .store segs false none false, sent := s.now } else i }).saw
      sid o.item (segs.flatMap fun g => g.bytes.keys)
  | 8 => let r := x.putRow o; done s r.1 r.2
  | _ => let r := x.outer o; done s r.1 r.2

/-- MATRIX_PERFORM_DONE (R201, R203, R206, R280): an entry whose fill is over performs whole, and leaves its queue; an `mld` first reads memory, and
performs once its bytes have crossed to the plane array (log 115); what the strand has kept of them follows (R264). -/
def matrixPerformDone (core : Nat) (s : State) : Option State :=
  if (s.core core).plane.stepping s.now ∨ !s.clocked core then none
  else
    (s.planeReady core).map fun r =>
      let sid := r.1
      let o := r.2.2
      let drop (l : List PlaneE) : List PlaneE := l.eraseP (·.sid == sid)
      let s' := (s.updCore core fun k => { k with planeFill := drop k.planeFill }).updStrand sid fun t => { t with mq := t.mq.drop 1 }
      if o.op = 5 ∧ !o.read then
        match s.tilePoison core o with
        | some pa => (if s.poisoned pa then s'.meetError pa else s').fatal r.2.1.gang core 2 pa
        | none =>
          let x := s.tileFetch core o
          (x.1.updStrand sid fun t => { t with mq := x.2 :: t.mq.drop 1 }).saw sid o.item ((o.parts.flatMap Part.bytes).filterMap (physOf core o.xl))
      else s'.performTile core sid o

/-- MATRIX_PERFORM_DONE. -/
def execMatrixPerformDone (core : Nat) (s : State) : Out := s.act (matrixPerformDone core s)

/-- TILE_MEMORY_MOVE_DONE (R214, R231): the last byte of an `mld` or `mst` has moved, and its interlock entry frees. -/
def tileMemoryMoveDone (core : Nat) (s : State) : Option State :=
  let ended (t : Strand) (e : Interlock) : Bool := e.stream.isNone && !t.items.any (·.q == e.item)
  match s.strands.find? fun kv => coreOf kv.1 == core && kv.2.lock.any (ended kv.2) with
  | some kv => some (s.updStrand kv.1 fun t => { t with lock := t.lock.eraseP (ended t) })
  | none => none

/-- TILE_MEMORY_MOVE_DONE. -/
def execTileMemoryMoveDone (core : Nat) (s : State) : Out := s.act (tileMemoryMoveDone core s)

end Sys2Proof.Machine
end

