-- ==== Sys2Proof/Machine/Block.lean ====
section
/-! DEFINITION. The end of a block (R66, R72 to R77, R139 to R146): when it is quiescent, when it is whole, what its commit does, and
its faults. -/

namespace Sys2Proof.Machine

/-- A core's units hold nothing of a strand's block (R66). -/
def Core.idle (c : Core) (sid : Nat) : Bool :=
  c.inbox.all (·.sid != sid) && c.rd.all (·.sid != sid) && c.ex.all (·.sid != sid) && c.wr.all (·.sid != sid) && c.toFe.all (·.sid != sid) && c.fills.all (·.sid != sid) &&
  c.idiv.all (·.2.sid != sid) && c.idivWait.all (·.sid != sid) && c.fdiv.all (·.sid != sid) && c.fdivWait.all (·.sid != sid)

/-- An instruction that has not fired and that nothing but a token of the block could fire (R66, R69). -/
def State.stuck (s : State) (sid : Nat) (t : Strand) (w : Window) (idx : Nat) (v : View) : Bool :=
  let o := w.op idx
  o.fired || !o.tokensBy v (s.stepKey (coreOf sid)) || (!o.anyNull v && s.gate sid t w idx v == .inner)

/-- Nothing of a running block is executing, in transit or outstanding (R66), whatever step its core's front end makes for other strands. A `vldcs`
that waits for its stream's count is outstanding: the count comes from the stream alone, and `vcnt` takes it (R190). -/
def State.still (s : State) (sid : Nat) (t : Strand) (w : Window) : Bool :=
  (s.core (coreOf sid)).idle sid && w.accs.all (fun kv => kv.2.phase == .done || (kv.2.phase == .reading && w.unsent kv.2 && !w.uncounted kv.1)) &&
  w.blk.views.all (fun kv => s.stuck sid t w kv.1 kv.2) && w.slots.all (·.2.at_ ≤ s.now) && (match w.exit with | some e => decide (e.at_ ≤ s.now) | none => true)

/-- A running block is quiescent at a front-end boundary (R66). -/
def State.quiet (s : State) (sid : Nat) (t : Strand) (w : Window) : Bool := !(s.core (coreOf sid)).fe.stepping s.now && s.still sid t w

/-- A renamed register has been written and reported, or nulled (R72, R279), by one of its writers. -/
def renDone (m : NMap Renamed) (r : Nat) : Bool := m.any fun kv => kv.1 / 128 == r && kv.2.ready && kv.2.reported

/-- Saves that have begun and will take a place on the resumption list (R328). -/
def State.savesBegun (s : State) : Nat := (s.gangs.filter fun kv => match kv.2.save with | some o => o.by_ != 0 && o.started | none => false).length

/-- The conditions of R72. -/
def Window.complete (w : Window) : Bool :=
  let h := w.blk.hdr
  (bitsSet 64 h.wrmask.toNat).all w.slots.has && (bitsSet 32 h.stmask.toNat).all w.lsids.has && (bitsSet 32 h.vwmask.toNat).all (renDone w.v) &&
  (bitsSet 7 h.mwmask.toNat).all (fun k => renDone w.m (k + 1)) && w.exit.isSome && w.accs.all (·.2.phase == .done) && w.fault.isNone

/-- The posted tile forms of a block in ascending index. -/
def Window.tileOps (w : Window) : List TileOp := w.posts.filterMap fun kv => match kv.2 with | .tile o => some o | _ => none
def Window.posted (w : Window) (p : Post → Bool) : Bool := w.posts.any fun kv => p kv.2

/-- A `vacc` or a `vamerge` of the gang is still to perform (R254, R255). -/
def State.windowBusy (s : State) (gang : Nat) : Bool :=
  s.strands.any fun kv => kv.2.gang == gang && kv.2.items.any fun i => match i.kind with | .vacc _ => true | .vamerge _ _ _ _ => true | _ => false

/-- Whether commit must wait for room in the matrix queue (R201). -/
def Window.queueWait (t : Strand) (w : Window) : Bool := 64 < t.mq.length + w.tileOps.length

/-- Whether commit must wait for room (R201, R300, R323, R328), or for an accumulation window that closes (R255). -/
def State.commitWaits (s : State) (sid : Nat) (t : Strand) (w : Window) : Bool :=
  let c := s.core (coreOf sid)
  let spawns := (w.posts.filter fun kv => match kv.2 with | .spawn _ => true | _ => false).length
  let loads := (w.posts.filter fun kv => match kv.2 with | .ctxLoad _ _ => true | _ => false).length
  w.queueWait t || (spawns != 0 && 16 < c.spawn.length + spawns) || (loads != 0 && 64 < s.disp.resumes.length + s.savesBegun + loads) ||
  ((match w.exit with | some e => e.kind == 4 || e.kind == 5 | none => false) && c.queueFull) ||
  (w.posted (fun p => match p with | .vawin _ _ _ => true | _ => false) && c.accWin.any (·.closed))

/-- A register's bits after a change of grant (R140): `unit` bits for each slab; those beyond the smaller grant are free values. -/
def State.resize (s : State) (unit a b x : Nat) : Nat × State :=
  if b ≤ a then (x % 2 ^ (unit * b), s)
  else
    let u := s.undef (unit * (b - a))
    (x % 2 ^ (unit * a) + u.1 * 2 ^ (unit * a), u.2)
def State.resizeAll (s : State) (unit a b : Nat) (m : NMap Nat) : List Nat → NMap Nat × State
  | [] => (m, s)
  | r :: rs =>
    let x := s.resize unit a b (m.getD r 0)
    x.2.resizeAll unit a b (m.put r x.1) rs

/-- A strand's grant changes (R140). -/
def State.setGrant (s : State) (sid b : Nat) : State :=
  match s.strand? sid with
  | none => s
  | some t =>
    if t.grant = b then s
    else
      let v := s.resizeAll 8192 t.grant b t.v (List.range 32)
      let m := v.2.resizeAll 65536 t.grant b t.m ((List.range 7).map (· + 1))
      let c := m.2.resizeAll 16384 t.grant b t.scl (List.range 8)
      c.2.updStrand sid fun t => { t with v := v.1, m := m.1, scl := c.1, grant := b }

/-- A reclaim that every strand of the gang has answered is over (R143, R327). -/
def State.settleReclaim (s : State) (gid : Nat) : State :=
  if s.strands.any fun kv => kv.2.gang == gid && kv.2.posted.isSome then s else s.updGang gid fun g => { g with reclaim := none }

/-- The vector state of a strand is dead, and its slabs return (R89, R142, R146). -/
def Strand.release (t : Strand) : Strand := { t with v := [], m := [], scl := [], vl := 0, grant := 0, posted := none }

/-- The memory operations of a block in program order (R73, R215): by LSID, each with its kind and its register. -/
def Window.memOps (w : Window) : List PKind :=
  let st : List (Nat × PKind) := w.stores.filterMap fun kv => if kv.2.segs.isEmpty then none else some (kv.2.lsid, .store kv.2.segs kv.2.ordered kv.2.stamp kv.2.sc)
  let ps : List (Nat × PKind) := w.posts.filterMap fun kv => match kv.2 with
    | .fence l k sn => some (l, .fence k sn)
    | .atomic l x z pa va r t g sn pins => some (l, .atomic x z pa va r t g sn pins)
    | .vacc l ups _ => some (l, .vacc ups)
    | .tile o => if o.op = 5 ∨ o.op = 6 then some (((w.view kv.1).bind View.lsid?).getD 0, .tile (o.op == 6) o.hull.1 o.hull.2 o.xl o.homes) else none
    | _ => none
  (NMap.ofList (st ++ ps)).vals ++ w.posts.filterMap fun kv => match kv.2 with
    | .vamerge b d xl _ => some (.vamerge b.toNat d.toNat xl 0)
    | _ => none

/-- The register that an item gives a value to after commit (R106, R246). -/
def PKind.reg : PKind → Option Nat
  | .store _ _ g _ => g
  | .atomic _ _ _ _ _ _ g _ _ => g
  | _ => none

/-- The item of the block at an LSID, by its place. -/
def Window.tileItem (w : Window) (q : Nat) (o : TileOp) : TileOp :=
  if o.op = 5 ∨ o.op = 6 then
    let l := ((w.view o.idx).bind View.lsid?).getD 0
    let below (kv : Nat × Post) : Bool := match kv.2 with
      | .fence k _ _ => k < l
      | .atomic k _ _ _ _ _ _ _ _ _ => k < l
      | .vacc k _ _ => k < l
      | .tile p => (p.op == 5 || p.op == 6) && ((w.view kv.1).bind View.lsid?).getD 0 < l
      | _ => false
    { o with item := q + (w.stores.filter fun kv => !kv.2.segs.isEmpty && kv.2.lsid < l).length + (w.posts.filter below).length }
  else o

/-- A tile form as its block posts it at commit (R202, R215, R264, R280): its registers are fixed, it has its place among the posted items, and an
`mld` takes the lines that later loads of the block have read before it, under the block's stores before it. -/
def State.postTile (s : State) (core : Nat) (t : Strand) (w : Window) (o : TileOp) : TileOp :=
  let o := w.tileItem s.seq { (match w.view o.idx with | some (.tile pm x) => o.fixed t w pm x | _ => o) with sent := s.now }
  if o.op = 5 then
    let l := ((w.view o.idx).bind View.lsid?).getD 0
    { o with early := (o.lines core).foldl (fun m n => match w.captured l n with
        | some x => m.put n (lineFrom (fun p => w.overlay l p (BitVec.ofNat 8 (x >>> (8 * (p % 64))))) n)
        | none => m) [] }
  else o

/-- The port that an operation goes out by, for an atomic to another device (R361, R362). -/
def State.carrier (s : State) : PKind → Option Nat
  | .atomic _ _ pa _ _ _ _ _ _ => s.remotePort pa
  | _ => none

/-- A window that a commit of a strand finds open, or opens (R253, R254). -/
def State.liveWin (s : State) (sid : Nat) (t : Strand) (w : Window) (k : Nat) : Bool :=
  match (w.posts.filterMap fun kv => match kv.2 with | .vawin q _ _ => some q | _ => none).getLast? with
  | some q => k == q
  | none => match (s.core (coreOf sid)).accWin with | some x => x.id == k && x.gang == t.gang && !x.closed | none => false

/-- A block as it commits: a `vacc` or `vamerge` whose window a `vawclr` has closed since, with its copies, has nothing left to do (log 110). -/
def State.dropLost (s : State) (sid : Nat) (t : Strand) (w : Window) : Window :=
  { w with posts := w.posts.filter fun kv => match kv.2 with | .vacc _ _ k => s.liveWin sid t w k | .vamerge _ _ _ k => s.liveWin sid t w k | _ => true }

/-- The registers, the vector state, the posted memory operations and the tile forms of a commit (R73). Of two writers of one register the
higher index stands (log 77). -/
def State.commitValues (s : State) (sid : Nat) (t : Strand) (w : Window) : State :=
  let ops := w.memOps
  let items := (List.range ops.length).map fun k => ({ q := s.seq + k, kind := ops[k]?.getD default, sent := s.now, port := s.carrier (ops[k]?.getD default) } : PItem)
  let tiles := w.tileOps.map (s.postTile (coreOf sid) t w)
  let t := w.slots.foldl (fun (t : Strand) kv => match kv.2.tok with
    | .val x => { t.setReg kv.1 x with pend := t.pend.erase kv.1 }
    | _ => t) t
  let t := items.foldl (fun (t : Strand) i => match i.kind.reg with | some g => { t with pend := t.pend.put g { item := i.q, old := i.isAtomic, value := none } } | none => t) t
  let keep (m : NMap Nat) (ren : NMap Renamed) : NMap Nat := ren.foldl (fun m kv => if kv.2.ready && !kv.2.nulled then m.put (kv.1 / 128) kv.2.bits else m) m
  let t := { t with
    v := keep t.v w.v, m := keep t.m w.m, scl := keep t.scl w.scl, items := t.items ++ items, mq := t.mq ++ tiles,
    lock := t.lock ++ items.filterMap fun i => match i.kind with
      | .vamerge b d _ _ => some { stream := none, item := i.q, lo := b, hi := b + winLen (BitVec.ofNat 64 d), write := true : Interlock }
      | _ => none,
    acqs := t.acqs ++ (w.acqsBelow 32).map (·.2), sr := w.sr.foldl (fun m kv => m.put kv.1 kv.2) t.sr }
  let s := { s with seq := s.seq + ops.length }
  let s := s.updStrand sid fun _ => t
  w.tileOps.foldl (fun s o => if o.op = 0 then s.updTile (coreOf sid) o.tile fun x => { x with committed := some o.shape } else s) s

/-- A change of a Sedge table entry commits (R240): the master copy and the issuing core's copy take it; the other cores on which the
context is resident keep the old one until they acknowledge, but for those in a power state. -/
def State.changeEntry (s : State) (core ctx e : Nat) (d : Sedge) : State :=
  let others := ((s.gangs.filter fun kv => kv.2.resident && kv.2.restore.isNone && kv.2.ctx == ctx && kv.2.core != core).map (·.2.core)).eraseDups
  let asleep := others.filter fun c => (s.cluster (clusterOf c)).state != 0
  let awake := others.filter fun c => !asleep.contains c
  s.updCtx ctx fun x =>
    let copies := awake.foldl (fun m c => if NMap.has m c then m else NMap.put m c x.table) x.copies
    let copies := (core :: asleep).foldl (fun m c => NMap.adjust m c fun k => NMap.put k e d) copies
    { x with table := x.table.put e d, copies := copies, sentAt := x.sentAt.put e s.now, unacked := (x.unacked.filter fun a => a.2 != e) ++ awake.map fun c => (c, e) }

/-- The window of a core opens (R253): copies at the identity, the scratchpad below 64·L′ undefined; beyond it an earlier, larger window's
free value stays. -/
def State.openWindow (s : State) (core gang id : Nat) (base desc : Dword) : State :=
  let lim := 64 * roundUp256 (winLen desc)
  let lo := spPhys core 0
  let s' := s.updCore core fun c =>
    { c with accWin := some { id := id, gang := gang, base := base, desc := desc, copies := [], undef := none, closed := false }, smear := (s.free, lim) :: c.smear.filter fun x => lim < x.2 }
  { s' with free := s.free + 1, marks := s.marks.filter fun kv => kv.1 < lo || lo + lim ≤ kv.1 }

/-- The window of a gang closes (R255), once the operations on it have performed. -/
def State.closeWindow (s : State) (core gang : Nat) : State :=
  let busy := s.windowBusy gang
  s.updCore core fun c =>
    match c.accWin with
    | some x => if x.gang = gang then { c with accWin := if busy then some { x with closed := true } else none } else c
    | none => c

/-- What the dispatcher keeps of a saved gang (R329, R330): for its save area, or for a copy of that at another address (log 111). -/
def State.savedOf (s : State) (gang ctx : Nat) (area : Dword) : Option SavedGang :=
  let l := s.disp.saved.filter fun k => k.gang == gang && k.ctx == ctx
  (l.find? (·.area == area)).or l.head?

/-- A fence, an atomic and the other memory operations of a post are items already; what the others do at commit (R73), each in its
turn in ascending index. -/
def State.applyPost (s : State) (sid : Nat) (t : Strand) (w : Window) (p : Post) : State :=
  let core := coreOf sid
  match p with
  | .ctl num x => s.updStrand sid (·.ctlWrite num x)
  | .cpsCfg k r => s.postCfg core k r
  | .cpsGo k sn _ => s.postGo sid k sn
  | .cpsStep k => s.postStep core k
  | .cpsKill k => s.postKill core k
  | .spawn r => s.updCore core fun c => { c with spawn := c.spawn ++ [(r, s.now)] }
  | .bar => s.updStrand sid fun t => { t with barWait := true }
  | .sleep q => if q = 0 then s else s.updStrand sid fun t => { t with sleepTo := some (max (t.sleepTo.getD 0) (s.now + q.toNat)) }
  | .tret => s.updStrand sid fun t => { t with sup := false }
  | .tlbInv va ctl =>
    let q := s.fresh
    let i : Inval := { id := q.1, kind := ctl.toNat % 4, asid := BitVec.ofNat 16 (ctl.toNat / 2 ^ 16), va := va, sid := some sid, walks := q.1 }
    { q.2 with invals := q.2.invals ++ [i] }.updStrand sid fun t => { t with tlbWait := some q.1 }
  | .ctxSave g => s.updGang g fun g => if g.resident && g.save.isNone then { g with save := some { by_ := 0, scalarOnly := false, started := false } } else g
  | .ctxLoad addr h =>
    let free := s.undef 128
    let kept := s.savedOf (getBits h 64 8) (getBits h 192 64) addr
    let r : Resume :=
      { gang := getBits h 64 8, area := addr, ctx := getBits h 192 64, via := t.ctx, prio := getBits h 105 3, affinity := BitVec.ofNat 32 (getBits h 128 32),
        gsize := getBits h 72 4, slabMin := getBits h 160 6, slabPref := getBits h 168 6, idKept := false, since := s.now,
        args := (kept.map (·.args)).getD (BitVec.ofNat 64 free.1), src := kept.bind (·.src),
        qstart := match kept with | some k => k.qstart | none => some (free.1 / 2 ^ 64), bars := (kept.map (·.bars)).getD [],
        arrived := (kept.map (·.arrived)).getD [],
        kept := (kept.map (·.kept)).getD [], stopped := kept.bind (·.stopped) }
    free.2.updDisp fun d => { d with resumes := d.resumes ++ [r] }
  | .vawin k b d => s.openWindow core t.gang k b d
  | .vawclr => s.closeWindow core t.gang
  | .vlset k =>
    let n := BitVec.ofNat 22 ((w.vl).getD 0)
    let s := (if k = t.grant then s else s.setGrant sid k).updStrand sid fun t => if t.posted = some k then { t with posted := none } else t
    (s.updStrand sid fun t => { t with vl := n }).settleReclaim t.gang
  | _ => s

/-- The changes of the Sedge table that a block holds, in program order (R52, R240, log 87). -/
def State.commitScopes (s : State) (sid : Nat) (t : Strand) (w : Window) : State :=
  let core := coreOf sid
  (NMap.ofList (w.posts.filterMap fun kv => kv.2.scopeChange.map fun x => (((w.view kv.1).bind View.lsid?).getD 0, x))).foldl (fun (s : State) kv =>
      let gen := (s.sedgeMaster core t.ctx kv.2.1).gen + 1
      s.changeEntry core t.ctx kv.2.1 { kv.2.2.getD Sedge.none with gen := gen }) s

/-- `vwait` at commit (R256, R286, R287): COUNT is that of the last in program order; with nothing armed there is no sleep, nor when the deadline has passed
or a watched line has been written. Where several of these hold, REASON 3 comes before 1 and 1 before 0 (log 141, DESIGN CHOICE). -/
def State.commitWait (s : State) (sid : Nat) (w : Window) : State :=
  let ws : NMap Nat := NMap.ofList (w.posts.filterMap fun kv => match kv.2 with
    | .vwait c _ => some (((w.view kv.1).bind View.lsid?).getD 0, c)
    | _ => none)
  match ws.getLast? with
  | none => s
  | some (_, c) =>
    let none_ := ws.all fun kv => kv.2 == 0
    let late : Bool := (s.strand? sid).any (·.late s.qtime)
    let wake := none_ || w.armedHit || late
    let reason := if none_ then 3 else if late then 1 else 0
    let s := s.updStrand sid fun t =>
      { t with wstat := BitVec.ofNat 64 (reason * 2 ^ 62 + c % 2 ^ 22), vsleep := if wake then none else some { lines := w.armed, hit := false } }
    if wake then s.updCore (coreOf sid) fun c => { c with watches := c.watches.filter (·.1 != sid) } else s

/-- The streams that a halting strand leaves (R233): those with FREE = 0 drain. -/
def Core.drainStreams (c : Core) (sid gang : Nat) : Core :=
  { c with streams := c.streams.mapVals fun _ st => if st.state = 2 ∧ st.issuer = sid ∧ st.gang = some gang ∧ !st.desc.free then { st with draining := true } else st }

/-- The barrier of a gang releases when every live strand has arrived (R258); a halted strand counts as arrived (R89). -/
def State.settleBarrier (s : State) (gid : Nat) : State :=
  match s.gangs.get? gid with
  | none => s
  | some g =>
    let live := s.strands.filter fun kv => kv.2.gang == gid && kv.2.run != .halted
    if !(s.strands.any fun kv => kv.2.gang == gid && kv.2.barWait) ∨ !(live.all fun kv => g.arrived.contains kv.2.cid) then s
    else
      let s' := s.updGang gid fun g => { g with arrived := [] }
      { s' with strands := s'.strands.mapVals fun _ t => if t.gang = gid then { t with barWait := false } else t }

/-- The last live strand of a gang halts (R329): its completion scope is the entry as it stands now, or scope 15 where that is invalid. -/
def State.latchDone (s : State) (gid : Nat) : State :=
  match s.gangs.get? gid with
  | none => s
  | some g =>
    if g.doneSnap.isSome ∨ s.strands.any fun kv => kv.2.gang == gid && kv.2.run != .halted then s
    else
      let e := s.sedgeMaster g.core g.ctx g.doneScope
      s.updGang gid fun g => { g with doneSnap := some (if e.valid then e else .all) }

/-- The exit takes effect after the other effects of commit (R86 to R89). A block fetched ahead that it does not name is discarded (R66). -/
def State.takeExit (s : State) (sid : Nat) (e : Exit) : State :=
  let s := s.updStrand sid fun t => { t with pc := e.target, redo := false, fetched := t.fetched.filter (·.base == e.target) }
  match e.kind with
  | 1 => s.updStrand sid fun t => { t.setReg 1 e.link with pend := t.pend.erase 1 }
  | 2 =>
    match s.strand? sid with
    | none => s
    | some t =>
      ((((s.updStrand sid fun t => { t.release with run := .halted, barWait := false, fetched := none }).updCore (coreOf sid)
        (·.drainStreams sid t.gang)).settleReclaim t.gang).settleBarrier t.gang).latchDone t.gang
  | 3 => s.updCore (coreOf sid) fun c => { c with issueRr := ctxnOf sid }
  | 4 => s.takeTrap sid { key := s.now, cls := 0, kind := kSys, sub := 0, index := e.idx, vaddr := 0, info := e.link.toNat, info2 := 0 } e.target false
  | 5 => s.takeTrap sid { key := s.now, cls := 0, kind := kBrk, sub := 0, index := e.idx, vaddr := 0, info := 0, info2 := 0 } e.target false
  | _ => s

/-- Whether a block leaves the reads of later blocks in no order behind its own commit (R79, R229, R256, R258, R265, R274): it holds no acquire fence, no
`bar`, no `vwait` and no `cps.wait`. -/
def Window.unordered (w : Window) : Bool :=
  w.posts.all (fun kv => match kv.2 with | .fence _ k _ => !acquires k | .bar => false | .vwait _ _ => false | _ => true) &&
  w.blk.views.all fun kv => match kv.2 with | .cp 4 _ => false | _ => true

/-- What a block that commits leaves its successor of the lines read ahead, those that it has not read anew among them: none where it orders reads. -/
def Window.passAhead (w : Window) (f : Fetched) : Fetched :=
  { f with ahead := if w.unordered then f.ahead.foldl (fun (m : NMap L1Line) kv => m.put kv.1 kv.2) w.blk.ahead else [] }

/-- COMMIT (R73): the values, the posts in ascending index, the changes of the Sedge table, the flags, the vector release, the links, and last the exit. -/
def State.commitBlock (s : State) (sid : Nat) (t : Strand) (w : Window) (e : Exit) : State :=
  let w := s.dropLost sid t w
  let s := s.commitValues sid t w
  let s := (w.posts.foldl (fun (s : State) kv => s.applyPost sid t w kv.2) s).commitScopes sid t w
  let s := s.updStrand sid (·.mergeEvents w.events)
  let s := s.commitWait sid w
  let s := if w.posted (fun p => match p with | .vrel => true | _ => false) then (s.updStrand sid (·.release)).settleReclaim t.gang else s
  let s := s.updCore (coreOf sid) fun c => { c with links := c.links.map fun k => if k.sid = sid ∧ w.links.contains k.line then { k with usable := true } else k }
  let s := s.updCtx t.ctx (·.release sid)
  let s := s.updStrand sid fun t => { t with win := none, again := false, fetched := t.fetched.map w.passAhead }
  s.takeExit sid e

/-- The starved and the timed-out fault (R74). -/
def stallFault (now sub : Nat) : FaultRec :=
  { key := now, cls := 5, kind := kStall, sub := sub, index := 0xFF, vaddr := 0, info := 0, info2 := 0 }

/-- Whether a block commits at this boundary. -/
def State.commits (s : State) (sid : Nat) (t : Strand) (w : Window) : Bool := s.quiet sid t w && w.complete && !s.commitWaits sid t w

/-- A running block of a strand is quiescent and complete, so that its commit comes before what would end it (R80); one that waits for room stays so,
whatever step its core's front end makes for other strands (log 100). -/
def State.commitDue (s : State) (sid : Nat) : Bool :=
  match s.strand? sid with
  | none => false
  | some t => t.runs && (match t.win with | some w => w.complete && (if s.commitWaits sid t w then s.still sid t w else s.quiet sid t w) | none => false)

/-- An asynchronous abort of a strand's running block (R78, R80): one that is quiescent and complete commits first, now or once it has room. -/
def State.endBlock (s : State) (sid : Nat) : State :=
  if s.commitDue sid then
    match s.strand? sid with
    | some t => (match t.win with
      | some w => (match w.exit with | some e => if s.clocked (coreOf sid) && s.commits sid t w then s.commitBlock sid t w e else s | none => s)
      | none => s)
    | none => s
  else s.abortBlock sid

/-- BLOCK_QUIESCENT (R66, R72, R74, R76): at a front-end boundary, a recorded fault ends the block; a quiescent block commits when it is
whole, waits when it lacks only room, and is starved otherwise. -/
def blockQuiescent (sid : Nat) (s : State) : Option State :=
  match s.strand? sid with
  | none => none
  | some t =>
    match t.win with
    | none => none
    | some w =>
      if (s.core (coreOf sid)).fe.stepping s.now ∨ !t.runs ∨ !s.clocked (coreOf sid) then none
      else
        match w.fault with
        | some f => if f.key ≤ s.now then some (s.faultBlock sid f) else none
        | none =>
          if !s.quiet sid t w then none
          else if !w.complete then some (s.faultBlock sid (stallFault s.now 1))
          else if s.commitWaits sid t w then none
          else w.exit.map (s.commitBlock sid t w)

/-- BLOCK_QUIESCENT. -/
def execBlockQuiescent (sid : Nat) (s : State) : Out := s.act (blockQuiescent sid s)

/-- Whether the running time of a block leaves out the present (R75): it waits for room in its matrix queue, for a grant, or for another
strand's reservation of a table entry. -/
def State.waitsExcluded (s : State) (sid : Nat) (t : Strand) (w : Window) : Bool :=
  (w.queueWait t && s.still sid t w && w.complete) ||
  w.blk.views.any fun kv =>
    let o := w.op kv.1
    !o.fired && o.tokensBy kv.2 s.now && !o.anyNull kv.2 && s.gate sid t w kv.1 kv.2 == .outer &&
    (match kv.2 with
     | .amo 0x1C 4 _ => true
     | .amo 0x1C 6 _ => true
     | .g 0x2A 0 _ => true
     | v => v.isVec && t.grant == 0)

/-- BLOCK_TIMEOUT (R72, R74, R75): the block has run longer than `btmo` allows, and neither commits nor is starved at this boundary:
any quantum at which the front end makes no step (log 99). -/
def blockTimeout (sid : Nat) (s : State) : Option State :=
  match s.strand? sid with
  | none => none
  | some t =>
    match t.win with
    | none => none
    | some w =>
      if (s.core (coreOf sid)).fe.stepping s.now ∨ !t.runs ∨ t.btmo = 0 ∨ s.now - w.start - w.excluded ≤ t.btmo.toNat ∨ w.fault.isSome ∨
         s.commits sid t w ∨ (s.quiet sid t w ∧ !w.complete) ∨ !s.clocked (coreOf sid) then none
      else some (s.faultBlock sid (stallFault s.now 2))

/-- BLOCK_TIMEOUT. -/
def execBlockTimeout (sid : Nat) (s : State) : Out := s.act (blockTimeout sid s)

end Sys2Proof.Machine
end

