-- ==== Sys2Proof/Machine/Launch.lean ====
section
/-! DEFINITION. The launch dispatcher (R315 to R332): taking records, placing gangs, pre-emption, lane grants and completion. -/

namespace Sys2Proof.Machine

/-- The dispatcher works (R345, R353, R365): bring-up has reached reduced service, no thermal emergency
stops it, and no die link is lost. -/
def State.dispatching (s : State) : Bool := 5 ≤ s.board.phase.toNat && s.board.phase != 0xE && !s.pkg.emergency && !(s.links.any fun kv => kv.2.lost)

/-- A physical address that the dispatcher can read 64 bytes of as memory (R306, R318). -/
def State.readable (s : State) (pa : Nat) : Bool := placeOf pa == .hbm && !(s.board.reduced && 2 ^ 30 ≤ pa) && !s.poisoned pa

/-- A context descriptor usable for translation (R318): aligned, readable, its PTROOT aligned. -/
def State.ctxUsable (s : State) (pa : Nat) : Bool := pa % 64 == 0 && s.readable pa && (Memory.dword s.mem pa).toNat % 65536 == 0

/-- A descriptor that breaks R306 elsewhere (R318, code 0x07). -/
def State.ctxBroken (s : State) (pa : Nat) : Bool :=
  (Memory.dword s.mem (pa + 8)).toNat % 4096 != 0 || (Memory.dword s.mem (pa + 16)).toNat % 4096 != 0 || Memory.readLe s.mem (pa + 24) 40 != 0

/-- The physical address of a DONE, when it passes its check (R318, R321). -/
def State.doneAt (s : State) (root done : Nat) (sup : Bool) : Option Nat :=
  if done % 64 ≠ 0 ∨ inScratch done then none
  else
    let xl : NMap XRes := [(pageOf done, s.walk root (pageOf done))]
    match partBad s 1 1 sup xl ((onePart done 64).headD default) with
    | some _ => none
    | none => physOf 0 xl done

/-- Whether a gang of a context is resident, so that a table of it is held: not one that is placed and still to be restored (R237, R313). -/
def State.ctxResident (s : State) (ctx : Nat) : Bool := s.gangs.any fun kv => kv.2.resident && kv.2.restore.isNone && kv.2.ctx == ctx

/-- Whether DONESCOPE names a valid entry of the table that the gang would receive (R318, code 0x08). -/
def State.scopeValid (s : State) (ctx e : Nat) : Bool :=
  e == 0 || e == 15 || (s.ctxResident ctx && (match s.contexts.get? ctx with | some x => (sedgeIn x.table 0 e).valid | none => false))

/-- The checks of R318 on a record, in their order: why there is nowhere to report, or its code, or that it is good. -/
inductive Verdict where
  | skip (code : Nat)
  | reject (code pa : Nat)
  | good
  deriving DecidableEq, Repr
def State.judge (s : State) (r : StartRec) : Verdict :=
  let ctx := r.ctx.toNat
  if !s.ctxUsable ctx then .skip 0x11
  else
    match s.doneAt (Memory.dword s.mem ctx).toNat r.done.toNat r.super with
    | none => .skip 0x10
    | some pa =>
      let g := r.gsize.toNat
      if !r.reservedOk then .reject 0x01 pa
      else if g = 0 ∨ 8 < g then .reject 0x02 pa
      else if r.slabMin = 0 ∨ r.slabPref.toNat < r.slabMin.toNat ∨ 32 < g * r.slabMin.toNat then .reject 0x03 pa
      else if r.vceil = 0 then .reject 0x04 pa
      else if r.entry.toNat % 32 ≠ 0 ∨ !canonical r.entry.toNat then .reject 0x05 pa
      else if r.affinity = 0 then .reject 0x06 pa
      else if s.ctxBroken ctx then .reject 0x07 pa
      else if !s.scopeValid ctx r.doneScope.toNat then .reject 0x08 pa
      else .good

/-- A completion record can perform now (R252, R269): its line is reserved, and it will be held there, or it is the last write of its bytes. -/
def State.doneOpen (s : State) (port pa : Nat) : Bool := s.resv.has (lineOf pa) || s.lastNow port (bytesOf pa 64 0)

/-- Whether no link retrains on the way of what a record's checks read (R318, R353), nor on that of a rejection's completion record, which can
perform. -/
def State.judgeOpen (s : State) (r : StartRec) : Bool :=
  let ctx := r.ctx.toNat
  s.linkOpen [ctx] && (!s.ctxUsable ctx || s.linkOpen (walkPath s.mem (pageOf r.done.toNat) 3 (Memory.dword s.mem ctx).toNat)) &&
  (match s.judge r with | .reject _ pa => s.linkOpen [pa] && s.doneOpen 83 pa | _ => true)

/-- The completion record's 64 bytes (R330). -/
def State.doneBytes (s : State) (pa status code core gid : Nat) (args : Dword) (qstart : Nat) : NMap BByte :=
  bytesOf pa 64 (status + code * 2 ^ 8 + gid * 2 ^ 16 + core * 2 ^ 24 + args.toNat * 2 ^ 64 + qstart % 2 ^ 64 * 2 ^ 128 + s.qtime.toNat * 2 ^ 192)

/-- MSI-X after a completion record of a host queue (R315, R329). -/
def State.doneMsix (s : State) (src : Option Nat) : State :=
  match src with
  | some q => if q < 64 ∧ (s.queue q).cie then s.msix (s.queue q).vec.toNat else s
  | none => s

/-- The completion record (R330), written as one segment from a source port, and the MSI-X that follows it; in the host window while HOSTDN = 1
it is discarded, and a line that a `vsc` has reserved holds it back (R252). -/
def State.writeDone (s : State) (port pa status code core gid : Nat) (args : Dword) (qstart : Nat) (src : Option Nat) : State :=
  let bytes := s.doneBytes pa status code core gid args qstart
  if placeOf pa = .host ∧ s.hostDown then s.doneMsix src
  else if s.resv.has (lineOf pa) then
    { s with held := s.held.put (lineOf pa) (s.held.getD (lineOf pa) [] ++ [{ port := port, bytes := bytes, item := none, src := src }]) }
  else (s.performBytes port none bytes).doneMsix src

def State.updQueue (s : State) (q : Nat) (f : HostQueue → HostQueue) : State :=
  s.updDisp fun d => { d with queues := d.queues.put q (f (s.queue q)) }

/-- A record leaves the head of its source: a host queue, or the spawn buffer of core `src − 64` (R316, R319). -/
def State.popSource (s : State) (src : Nat) : State :=
  let id := (s.disp.heads.get? src).map (·.id)
  let s := { s with gangs := s.gangs.mapVals fun _ g => { g with refused := g.refused.filter fun n => some n != id } }
  let s := s.updDisp fun d => { d with heads := d.heads.erase src }
  if src < 64 then s.updQueue src fun q => { q with qrd := q.qrd + 1 }
  else s.updCore (src - 64) fun c => { c with spawn := c.spawn.drop 1 }

/-- The record at the head of a source (R316, R323), once what its checks read can come. -/
def State.sourceRec (s : State) (src : Nat) : Option StartRec :=
  Option.filter s.judgeOpen <|
  if src < 64 then
    let q := s.queue src
    let at_ := q.qbase.toNat + 64 * (q.qrd.toNat % 2 ^ q.qsize.toNat)
    if q.en ∧ q.qrd ≠ q.qwr ∧ !s.hostDown ∧ s.linkOpen [at_] then some (startRecOf (Memory.readLe s.mem at_ 64))
    else none
  else if src < 96 then (s.core (src - 64)).spawn.head?.map (·.1)
  else none

/-- DISPATCHER_TAKE_RECORD (R316, R318, R331): a record is read and checked; a bad one is skipped or rejected, a good one waits at its
head to be placed. -/
def dispatcherTakeRecord (src : Nat) (s : State) : Option State :=
  if !s.dispatching || s.disp.heads.has src then none
  else
    (s.sourceRec src).map fun r =>
      match s.judge r with
      | .good => { s with seq := s.seq + 1 }.updDisp fun d => { d with heads := d.heads.put src { start := r, since := s.now, id := s.seq } }
      | .reject code pa => (s.popSource src).writeDone 83 pa 3 code 0 0 r.args 0 (some src)
      | .skip code =>
        let s' := s.popSource src
        if src < 64 then s'.updQueue src fun q => { q with bad := true, badIdx := (s.queue src).qrd, badCode := BitVec.ofNat 8 code } else s'

/-- DISPATCHER_TAKE_RECORD. -/
def execDispatcherTakeRecord (src : Nat) (s : State) : Out := s.act (dispatcherTakeRecord src s)

/-- The grants of a core's strands, and the die condition (R20). -/
def State.grants (s : State) (core : Nat) : List Nat := s.strands.filterMap fun kv => if coreOf kv.1 = core then some kv.2.grant else none
def dieOk (l : List Nat) : Bool := l.foldl (· + ·) 0 ≤ 32 && (l.map fun x => (x + 1) / 2).foldl (· + ·) 0 ≤ 16
def State.freeSlabs (s : State) (core : Nat) : Nat := 32 - (s.grants core).foldl (· + ·) 0
def State.freeCtxs (s : State) (core : Nat) : List Nat := (List.range 8).filter fun k => !s.strands.has (8 * core + k)

/-- A core on which the dispatcher may place work (R339, R366). -/
def State.coreOpen (s : State) (core : Nat) : Bool := !(s.cluster (clusterOf core)).qreq && (!s.board.reduced || core < 4)

/-- Whether `n` strands of `slabMin` slabs fit a core (R320), gang ids apart. -/
def State.fitsCore (s : State) (core n slabMin : Nat) (affinity : BitVec 32) : Bool :=
  affinity.getLsbD core && s.coreOpen core && n ≤ (s.freeCtxs core).length && n * slabMin ≤ s.freeSlabs core &&
  dieOk (s.grants core ++ List.replicate n slabMin)

/-- The core taken (R320): the most free slabs, then the lower number. -/
def State.bestCore (s : State) (n slabMin : Nat) (affinity : BitVec 32) : Option Nat :=
  (List.range 32).foldl (fun best c =>
    if s.fitsCore c n slabMin affinity then
      match best with
      | some b => if s.freeSlabs b < s.freeSlabs c then some c else best
      | none => some c
    else best) none

/-- The grant of each of `n` strands (R320): the largest that the core's free slabs and the die condition allow. -/
def State.grantFor (s : State) (core n slabMin slabPref : Nat) : Nat :=
  let top := min slabPref (s.freeSlabs core / max n 1)
  (List.range (top + 1)).foldl (fun b x => if slabMin ≤ x ∧ dieOk (s.grants core ++ List.replicate n x) then x else b) slabMin

/-- The lowest free gang id (R320). -/
def State.freeGang (s : State) : Option Nat := (List.range 256).find? fun g => !s.gangs.has g

/-- A strand as it starts (R321). -/
def Strand.start (entry : Dword) (args : Dword) (gang cid : Nat) (asid : BitVec 16) (ctx : Nat) (sup : Bool) (vceil : BitVec 22) (slabs : Nat) : Strand :=
  { pc := entry, g := (Vector.replicate 64 0).set 3 args, pend := [], v := [], m := [], scl := [], vl := 0, grant := slabs, posted := none, vceil := vceil,
    fstat := 0, eix := [], srseed := 0, sr := [], mstat := 0, qdl := 0, wstat := 0, sup := sup, tcause := 0, taddr := 0, tinfo := 0, btmo := btmoDefault,
    gang := gang, cid := cid, asid := asid, ctx := ctx, run := .active, stopped := false, barWait := false, sleepTo := none, vsleep := none, tlbWait := none,
    fetched := none, win := none, items := [], acqs := [], mq := [], lock := [], deferred := [], parkKind := 0, parkInfo := 0, redo := false }

/-- A context that a gang is placed under (R235, R306, R321): its descriptor as it stands; a new table unless a gang of it is resident. -/
def State.openCtx (s : State) (pa : Nat) (table : NMap Sedge) : State :=
  let d (k : Nat) : Dword := Memory.dword s.mem (pa + 8 * k)
  let old : Context := (s.contexts.get? pa).getD { ptroot := 0, sabase := 0, sasize := 0, table := [], copies := [], resv := [], unacked := [], broken := false }
  let keep : Context := if s.ctxResident pa then old else { old with table := table, copies := [], resv := [], unacked := [] }
  { s with contexts := s.contexts.put pa { keep with ptroot := d 0, sabase := d 1, sasize := d 2 } }

/-- Strands of another ASID are resident on a core. -/
def State.sharedCore (s : State) (core : Nat) (asid : BitVec 16) : Bool :=
  s.gangs.any fun kv => kv.2.core == core && kv.2.resident && kv.2.restore.isNone && kv.2.asid != asid

/-- A core clears its scratchpad before a strand of another ASID than those that may have written there becomes resident (R313): `owner` names the one
ASID since the last clearing, none when there is another (log 119). -/
def State.ownCore (s : State) (core : Nat) (asid : BitVec 16) : State :=
  let shared := s.sharedCore core asid
  if (s.core core).owner = some asid ∧ !shared then s
  else
    let lo := spPhys core 0
    let inside (a : Nat) : Bool := lo ≤ a && a < lo + spSize
    { s with mem := s.mem.filter fun c => !inside c.1, marks := s.marks.filter fun kv => !inside kv.1 }.updCore core fun c =>
      { c with owner := if shared then none else some asid, smear := [] }

/-- The strands of a gang take the lowest free contexts of the core in ascending `cid`. -/
def State.addStrands (s : State) (core n : Nat) (f : Nat → Strand) : List Nat × State :=
  let ids := ((s.freeCtxs core).take n).map (8 * core + ·)
  (ids, (List.range ids.length).foldl (fun (s : State) k => { s with strands := s.strands.put (ids[k]?.getD 0) (f k) }) s)

/-- A start record is placed (R320, R321). -/
def State.placeStart (s : State) (src : Nat) (r : StartRec) (core gid : Nat) : State :=
  let n := r.gsize.toNat
  let slabs := s.grantFor core n r.slabMin.toNat r.slabPref.toNat
  let ctx := r.ctx.toNat
  let pa := s.doneAt (Memory.dword s.mem ctx).toNat r.done.toNat r.super
  let s := (s.openCtx ctx []).ownCore core r.asid
  let a := s.addStrands core n fun cid => Strand.start r.entry r.args gid cid r.asid ctx r.super r.vceil slabs
  let g : Gang :=
    { ctx := ctx, asid := r.asid, core := core, members := a.1, gsize := n, prio := r.prio.toNat, affinity := r.affinity, slabMin := r.slabMin.toNat,
      slabPref := r.slabPref.toNat, super := r.super, args := r.args, done := r.done, donePa := pa, doneScope := r.doneScope.toNat, qstart := none,
      src := if src < 64 then some src else none, restore := none, born := s.seq, arrived := [], reclaim := none, save := none, killed := false,
      stopped := none, refused := [], resident := true }
  let s := ({ a.2 with gangs := a.2.gangs.put gid g, seq := s.seq + 1 }).popSource src
  s.updDisp fun d => if src < 64 then { d with rrQueue := src } else { d with rrSpawn := src - 64 }

/-- A resumption is placed (R328): its save area is still to be read. -/
def State.placeResume (s : State) (k : Nat) (r : Resume) (core : Nat) : State :=
  let slabs := s.grantFor core r.gsize r.slabMin r.slabPref
  let blank (cid : Nat) : Strand := { Strand.start 0 0 r.gang cid 0 r.ctx false 0 slabs with run := .held }
  let a := s.addStrands core r.gsize blank
  let g : Gang :=
    { ctx := r.ctx, asid := 0, core := core, members := a.1, gsize := r.gsize, prio := r.prio, affinity := r.affinity, slabMin := r.slabMin, slabPref := r.slabPref,
      super := false, args := r.args, done := 0, donePa := none, doneScope := 15, qstart := r.qstart, src := r.src, restore := some (r.area.toNat, r.via),
      born := s.seq, arrived := r.arrived, reclaim := none, save := none, killed := false, stopped := r.stopped, refused := [], resident := true, kept := r.kept }
  let s := { a.2 with gangs := a.2.gangs.put r.gang g, seq := s.seq + 1 }
  let s := r.bars.foldl (fun (s : State) cid => match a.1[cid]? with | some sid => s.updStrand sid fun t => { t with barWait := true } | none => s) s
  s.updDisp fun d => { d with resumes := d.resumes.eraseIdx k }

/-- A record that may be placed: its priority, its class (0 resumption, 1 spawned, 2 host), its turn, and what it is. -/
structure Offer where
  prio : Nat
  cls : Nat
  turn : Nat
  src : Nat
  core : Nat
  gid : Nat

/-- The records that can be placed now (R319, R320, R328). -/
def State.offers (s : State) : List Offer :=
  let heads : List Offer := s.disp.heads.filterMap fun kv =>
    let r := kv.2.start
    if (kv.1 < 64 ∧ (s.hostDown ∨ !(s.queue kv.1).en)) ∨ !s.judgeOpen r then none
    else
      match s.bestCore r.gsize.toNat r.slabMin.toNat r.affinity, s.freeGang with
      | some c, some g =>
        some { prio := r.prio.toNat, cls := if kv.1 < 64 then 2 else 1,
               turn := if kv.1 < 64 then (kv.1 + 63 - s.disp.rrQueue) % 64 else (kv.1 - 64 + 31 - s.disp.rrSpawn) % 32, src := kv.1, core := c, gid := g }
      | _, _ => none
  let rs : List Offer := (List.range s.disp.resumes.length).filterMap fun k =>
    match s.disp.resumes[k]? with
    | none => none
    | some r =>
      let idOk : Bool := match s.gangs.get? r.gang with | some g => r.idKept && !g.resident | none => true
      if !idOk then none
      else (s.bestCore r.gsize r.slabMin r.affinity).map fun c => { prio := r.prio, cls := 0, turn := k, src := k, core := c, gid := r.gang }
  heads ++ rs

/-- The order of R319. -/
def Offer.before (a b : Offer) : Bool :=
  if a.prio != b.prio then b.prio < a.prio else if a.cls != b.cls then a.cls < b.cls else a.turn < b.turn
def State.pickOffer (s : State) : Option Offer :=
  s.offers.foldl (fun best o => match best with | some b => if o.before b then some o else best | none => some o) none

/-- DISPATCH_PLACE (R319 to R321, R328): the first record in order that fits is placed. -/
def dispatchPlace (s : State) : Option State :=
  if !s.dispatching then none
  else
    match s.pickOffer with
    | none => none
    | some o =>
      if o.cls = 0 then (s.disp.resumes[o.src]?).map fun r => s.placeResume o.src r o.core
      else (s.disp.heads.get? o.src).map fun h => s.placeStart o.src h.start o.core o.gid

/-- DISPATCH_PLACE. -/
def execDispatchPlace (s : State) : Out := s.act (dispatchPlace s)

/-- Room on the resumption list for one more full switch (R328). -/
def State.resumeRoom (s : State) : Bool :=
  s.disp.resumes.length + (s.gangs.filter fun kv => match kv.2.save with | some o => o.by_ != 0 | none => false).length < 64

/-- The victim for a record (R326). -/
def State.victim (s : State) (id prio : Nat) (affinity : BitVec 32) : Option (Nat × Gang) :=
  let ok := s.gangs.filter fun kv =>
    kv.2.resident && kv.2.prio < prio && affinity.getLsbD kv.2.core && s.coreOpen kv.2.core && !kv.2.refused.contains id && kv.2.save.isNone &&
    kv.2.restore.isNone && kv.2.reclaim.isNone && kv.2.stopped.isNone && !kv.2.killed
  let first (a b : Nat × Gang) : Bool := if a.2.prio != b.2.prio then a.2.prio < b.2.prio else b.2.born < a.2.born
  ok.foldl (fun best x => match best with | some y => if first x y then some x else best | none => some x) none

/-- The grant posted by a reclaim (R326): the largest below the victim's for which the record could be placed. -/
def State.reclaimTo (s : State) (g : Gang) (n slabMin : Nat) : Option Nat :=
  let own := s.gangSlabs g
  let others := s.strands.filterMap fun kv => if coreOf kv.1 = g.core ∧ !g.members.contains kv.1 then some kv.2.grant else none
  let held := (g.members.filter fun sid => match s.strand? sid with | some t => t.grant != 0 | none => false).length
  if (s.freeCtxs g.core).length < n then none
  else
    ((List.range own).filter fun x =>
      g.slabMin ≤ x && (others.foldl (· + ·) 0) + held * x + n * slabMin ≤ 32 && dieOk (others ++ List.replicate held x ++ List.replicate n slabMin)).getLast?

/-- A reclaim is posted to every strand of a gang that holds slabs (R143). -/
def State.postReclaim (s : State) (gid : Nat) (g : Gang) (x : Nat) : State :=
  let s := g.members.foldl (fun (s : State) sid => s.updStrand sid fun t => if t.grant = 0 then t else { t with posted := some x }) s
  s.updGang gid fun g => { g with reclaim := some (x, s.now) }

/-- PREEMPT_WAIT_EXPIRY (R315, R326): a head record, of a queue that is enabled, that has waited PWAIT pre-empts a victim. -/
def preemptWaitExpiry (src : Nat) (s : State) : Option State :=
  match s.disp.heads.get? src with
  | none => none
  | some h =>
    let r := h.start
    let n := r.gsize.toNat
    if !s.dispatching ∨ (src < 64 ∧ (s.hostDown ∨ !(s.queue src).en)) ∨ s.now < h.since + s.disp.pwait.toNat ∨ (s.bestCore n r.slabMin.toNat r.affinity).isSome ∨ s.freeGang.isNone ∨
       (s.gangs.any fun kv => kv.2.resident && r.affinity.getLsbD kv.2.core && (kv.2.reclaim.isSome || (match kv.2.save with | some o => o.by_ == 1 | none => false))) then none
    else
      match s.victim h.id r.prio.toNat r.affinity with
      | none => none
      | some (gid, g) =>
        match (if s.disp.rcltmo = 0 then none else s.reclaimTo g n r.slabMin.toNat) with
        | some x => some ((s.postReclaim gid g x).updGang gid fun g => { g with forHead := some h.id })
        | none =>
          if s.resumeRoom then some (s.updGang gid fun g => { g with save := some { by_ := 1, scalarOnly := false, started := false }, forHead := some h.id }) else none

/-- PREEMPT_WAIT_EXPIRY. -/
def execPreemptWaitExpiry (src : Nat) (s : State) : Out := s.act (preemptWaitExpiry src s)

/-- RECLAIM_TIMEOUT (R327, R345): the reclaim is withdrawn and the victim is saved; a save of it that has been asked for already stands, and once dispatch
has stopped in an emergency the dispatcher asks for none. -/
def reclaimTimeout (gid : Nat) (s : State) : Option State :=
  match s.gangs.get? gid with
  | none => none
  | some g =>
    match g.reclaim with
    | none => none
    | some (_, since) =>
      let asks := g.save.isNone && !s.pkg.emergency
      if s.now < since + s.disp.rcltmo.toNat ∨ (asks && !s.resumeRoom) then none
      else
        let s := g.members.foldl (fun (s : State) sid => s.updStrand sid fun t => { t with posted := none }) s
        some (s.updGang gid fun g => { g with reclaim := none, save := if asks then some { by_ := 1, scalarOnly := false, started := false } else g.save })

/-- RECLAIM_TIMEOUT. -/
def execReclaimTimeout (gang : Nat) (s : State) : Out := s.act (reclaimTimeout gang s)

/-- A strand whose running block waits for a grant (R142). -/
def Strand.wantsGrant (t : Strand) : Bool :=
  t.grant == 0 && t.runs && (match t.win with
    | some w => w.blk.views.any fun kv => (kv.2.isVec || kv.2.isVlset) && !(w.op kv.1).fired
    | none => false)

/-- LANE_GRANT (R142): the strands of a gang that hold no slabs receive one count: that of the others, or a new one, the largest that fits (log 98). -/
def laneGrant (gid : Nat) (s : State) : Option State :=
  match s.gangs.get? gid with
  | none => none
  | some g =>
    let live := g.members.filterMap fun sid => (s.strand? sid).bind fun t => if t.run = .halted then none else some (sid, t)
    let zero := live.filter fun x => x.2.grant == 0
    let held := (live.filter fun x => x.2.grant != 0).map fun x => x.2.posted.getD x.2.grant
    if !(zero.any fun x => x.2.wantsGrant) ∨ !g.resident ∨ g.reclaim.isSome ∨ g.save.isSome then none
    else
      let n := zero.length
      let x := match held with
        | y :: _ => y
        | [] => s.grantFor g.core n g.slabMin g.slabPref
      if x = 0 ∨ s.freeSlabs g.core < n * x ∨ !dieOk (s.grants g.core ++ List.replicate n x) then none
      else some (zero.foldl (fun (s : State) z => s.setGrant z.1 x) s)

/-- LANE_GRANT. -/
def execLaneGrant (gang : Nat) (s : State) : Out := s.act (laneGrant gang s)

/-- A strand's committed work that is still to perform, fences apart (R329, R334). -/
def Strand.busy (t : Strand) : Bool := !t.mq.isEmpty || t.items.any fun i => match i.kind with | .fence _ _ => false | _ => true

/-- A core on which no strand of a context is resident any longer gives up its copy of the context's table, and has nothing to acknowledge
(R235, R240). -/
def State.leaveCtx (s : State) (ctx core : Nat) : State :=
  if s.gangs.any fun kv => kv.2.resident && kv.2.restore.isNone && kv.2.ctx == ctx && kv.2.core == core && kv.2.members.any s.strands.has then s
  else s.updCtx ctx fun x => { x with copies := x.copies.erase core, unacked := x.unacked.filter (·.1 != core) }

/-- The gang's strands, tiles, streams, window, links and watches leave the core (R308, R329). -/
def State.clearGang (s : State) (gid : Nat) (g : Gang) : State :=
  let mine (sid : Nat) : Bool := g.members.contains sid
  let s := s.updCore g.core fun c =>
    { c with tiles := c.tiles.filter fun kv => kv.2.gang != some gid, streams := c.streams.filter fun kv => kv.2.gang != some gid,
             accWin := c.accWin.filter fun x => x.gang != gid, links := c.links.filter fun k => !mine k.sid, watches := c.watches.filter fun k => !mine k.1 }
  { s with strands := s.strands.filter fun kv => !mine kv.1 }.leaveCtx g.ctx g.core

/-- A context that no gang is resident under gives up its table; a save-broken mark stands (R311). -/
def State.closeCtx (s : State) (ctx : Nat) : State :=
  let keep : Bool := match s.contexts.get? ctx with | some x => x.broken | none => true
  if s.ctxResident ctx || keep then s
  else { s with contexts := s.contexts.erase ctx }

/-- The entry under which a gang completes (R329): that of its completion scope as its last strand halted. -/
def State.doneEntry (s : State) (g : Gang) : Sedge :=
  match g.doneSnap with
  | some e => e
  | none => let e := s.sedgeMaster g.core g.ctx g.doneScope; if e.valid then e else .all

/-- A segment of a store that a completion does not wait for (R271): in the host window, below MEET 2. -/
def Sedge.skips (e : Sedge) (g : SegW) : Bool := e.meet.toNat < 2 && g.bytes.all fun kv => placeOf kv.1 == .host

/-- A posted item that a completion waits for (R271, R329). -/
def PItem.awaited (e : Sedge) (i : PItem) : Bool :=
  match i.kind with
  | .fence _ _ => false
  | .store segs _ _ _ => segs.any fun g => !e.skips g
  | _ => true

/-- Stores of a strand that a committed fence still holds behind earlier ones (R266): the strand's gang completes only after. -/
def Strand.fenced (t : Strand) : Bool :=
  (t.items.dropWhile fun i => match i.kind with | .fence _ _ => false | _ => true).any fun i => match i.kind with | .fence _ _ => false | _ => true

/-- The stores of a gang that its completion does not wait for go on to their place by themselves (R271, log 117). -/
def State.looseStores (s : State) (g : Gang) : State :=
  let segs : List SegW := (g.members.filterMap s.strand?).flatMap fun t => t.items.flatMap fun i => match i.kind with | .store segs _ _ _ => segs.filter (!·.held) | _ => []
  segs.foldl (fun (s : State) x =>
    let l := lineOf (x.bytes.headD (0, default)).1
    { s with held := s.held.put l (s.held.getD l [] ++ [{ port := g.core, bytes := x.bytes, item := none }]) }) s

/-- GANG_COMPLETE (R271, R329 to R331): every strand has halted, the gang's work has performed at its completion scope and its streams are not
RUNNING; its resources are released and its record is written. A gang that a fatal record has stopped completes only by KILL. -/
def gangComplete (gid : Nat) (s : State) : Option State :=
  match s.gangs.get? gid with
  | none => none
  | some g =>
    let ts := g.members.filterMap s.strand?
    if !g.resident ∨ g.save.isSome ∨ g.restore.isSome ∨ g.stopped.isSome ∨
       (ts.any fun t => t.run != .halted || !t.mq.isEmpty || t.items.any (PItem.awaited (s.doneEntry g)) || t.fenced) ∨
       ((s.core g.core).streams.any fun kv => kv.2.gang == some gid && kv.2.state == 2) ∨ !s.linkOpen g.donePa.toList ∨
       !g.donePa.all (s.doneOpen g.core) then none
    else
      let s := (s.looseStores g).clearGang gid g
      let s := { s with gangs := s.gangs.erase gid }.closeCtx g.ctx
      some (match g.donePa with
        | some pa => s.writeDone g.core pa (if g.killed then 2 else 1) 0 g.core gid g.args (g.qstart.getD 0) g.src
        | none => s.doneMsix g.src)

/-- GANG_COMPLETE. -/
def execGangComplete (gang : Nat) (s : State) : Out := s.act (gangComplete gang s)

/-- A queue is disabled, or its ring changes (R316): the dispatcher reads its head anew when it takes records again. -/
def State.dropHead (s : State) (src : Nat) : State := s.updDisp fun d => { d with heads := d.heads.erase src }

/-- QWR_WRITE (R315, R316): the host advances QWR; more pending records than the ring holds set OVR and clear EN. -/
def State.writeQwr (s : State) (q : Nat) (x : BitVec 32) : State :=
  if 2 ^ (s.queue q).qsize.toNat < (x - (s.queue q).qrd).toNat then
    (s.updQueue q fun h => { h with qwr := x, ovr := true, en := false }).dropHead q
  else s.updQueue q fun h => { h with qwr := x }
def qwrWrite (q value : Nat) (s : State) : Option State := if q < 64 then some (s.writeQwr q (BitVec.ofNat 32 value)) else none

/-- QWR_WRITE. -/
def execQwrWrite (queue value : Nat) (s : State) : Out := s.act (qwrWrite queue value s)

end Sys2Proof.Machine
end

