-- ==== Sys2Proof/Machine/Saves.lean ====
section
/-! DEFINITION. The context-save engine (R308 to R313): what a save area holds, saving a gang and restoring one. -/

namespace Sys2Proof.Machine

/-- A field of a save area: its offset, its length in bytes, its value. -/
abbrev Field := Nat × Nat × Nat

/-- Values of `w` bits each, the first lowest. -/
def packNat (w : Nat) : List Nat → Nat
  | [] => 0
  | x :: xs => x % 2 ^ w + packNat w xs * 2 ^ w

/-- Whether a strand saves as parked (R308): on a service request or a breakpoint. -/
def Strand.savesParked (t : Strand) : Bool := t.run == .parked && (t.parkKind == kSys || t.parkKind == kBrk)

/-- `wstat` as a save records it (R256, R286): a strand asleep in `vwait` resumes with REASON 2, unless its deadline, or a watched write, has ended the
sleep. -/
def Strand.savedWstat (t : Strand) (qtime : Dword) : Dword :=
  match t.vsleep with
  | some w => BitVec.ofNat 64 ((if t.late qtime then 1 else if w.hit then 0 else 2) * 2 ^ 62 + t.wstat.toNat % 2 ^ 22)
  | none => t.wstat

/-- A control register as the save area holds it (R309). -/
def State.savedCtl (s : State) (sid : Nat) (t : Strand) (k : Nat) : Nat :=
  if k = 0x031 then (t.savedWstat s.qtime).toNat else ((s.ctlRead sid t k).getD 0).toNat

/-- A scalar block (R309). -/
def State.scalarBlock (s : State) (sid : Nat) (t : Strand) : Nat :=
  let parked := t.savesParked
  t.pc.toNat + (bitAt t.sup 0 + bitAt parked 1 + bitAt (t.run == .halted) 2 + (if parked then t.parkKind * 2 ^ 8 else 0)) * 2 ^ 64 +
  (if parked then t.parkInfo.toNat else 0) * 2 ^ 128 + packNat 64 (t.g.toList.map (·.toNat)) * 2 ^ (8 * 0x40) +
  packNat 64 ((List.range 0x32).map (s.savedCtl sid t)) * 2 ^ (8 * 0x240) + t.btmo.toNat * 2 ^ (8 * 0x3D0) +
  packNat 32 ((List.range 256).map fun l => (t.lane l).toNat) * 2 ^ (8 * 0x400)

/-- The registers of a vector block (R309), as fields from `off`. -/
def vectorFields (t : Strand) (vb off : Nat) : List Field :=
  (List.range 32).map (fun r => (off + r * vb, vb, t.v.getD r 0)) ++
  (List.range 7).map (fun r => (off + 32 * vb + r * (8 * vb), 8 * vb, t.m.getD (r + 1) 0)) ++
  (List.range 8).map (fun r => (off + 88 * vb + r * (2 * vb), 2 * vb, t.scl.getD r 0))

/-- The IMM15 of an `mshape` that makes a shape (R207), and back. -/
def Shape.imm (sh : Shape) : Nat := sh.cell * 2 ^ 10 + (sh.cols / 32 - 1) * 2 ^ 5 + (sh.rows / 32 - 1)
def Shape.ofImm (x : Nat) : Shape := { rows := 32 * (x % 32 + 1), cols := 32 * (x / 32 % 32 + 1), cell := x / 1024 % 4 }

/-- A start record's 64 bytes, of a copy stream (R221). -/
def StreamRec.bytes (r : StreamRec) : Nat :=
  r.srcBase + r.srcStride * 2 ^ 64 + r.dstBase * 2 ^ 128 + r.dstStride * 2 ^ 192 + r.n * 2 ^ 256 + (r.strip - 1) * 2 ^ 320 + r.fmt * 2 ^ 336 +
  r.red * 2 ^ 344 + r.scope * 2 ^ 352 + bitAt r.free 359

/-- A stream block (R309): partial sums that no fold has made are 0 (log 88). -/
def Stream.block (st : Stream) : Nat :=
  st.desc.bytes + st.state * 2 ^ (8 * 0x40) + (match st.state with | 3 => st.desc.n | _ => st.done_) * 2 ^ (8 * 0x48) + st.avail * 2 ^ (8 * 0x50) +
  st.events.toNat * 2 ^ (8 * 0x58) + st.cid * 2 ^ (8 * 0x60) +
  (if st.desc.red = 2 then packNat 32 ((List.range st.desc.strip).map fun k => (st.part.getD k 0).toNat) else 0) * 2 ^ (8 * 0x80)

/-- The identity of a window's operation as element bits (R253). -/
def winIdentity (d : Dword) : Nat :=
  match winFmt d, winOp d with
  | .int s w, 1 => bitsOfInt w (intMax s w)
  | .int s w, 2 => bitsOfInt w (intMin s w)
  | .flt e m k, 1 => (match k with | .ieee => infEnc e m | _ => maxFin e m k)
  | .flt e m k, 2 => signBit e m true + (match k with | .ieee => infEnc e m | _ => maxFin e m k)
  | _, _ => 0

/-- Element i of the copy of a lane group (R253). -/
def AccWin.copy (x : AccWin) (g i : Nat) : Nat :=
  let w := (winFmt x.desc).width
  match x.copies.get? (32768 * g + i) with
  | some y => y
  | none => match x.undef with | some k => (freeValue k >>> (w * (32768 * g + i))) % 2 ^ w | none => winIdentity x.desc

/-- The window section (R309). -/
def winFields (x : AccWin) (off : Nat) : List Field :=
  let l := roundUp256 (winLen x.desc)
  (List.range 64).map fun g => (off + g * l, l, packNat (8 * winCb x.desc) ((List.range (winCount x.desc)).map (x.copy g)))

/-- Dword 0 of the header, but for COMPLETE (R309). -/
def headWord (size : Nat) (lost : Bool) : Nat := size * 2 ^ 32 + 2 ^ 8 + bitAt lost 1

/-- The header (R309). -/
def State.saveHeader (s : State) (gid : Nat) (g : Gang) (scalar : Bool) : Nat :=
  let c := s.core g.core
  let mask (l : List Nat) : Nat := l.foldl (fun x k => x + 2 ^ k) 0
  let win := s.gangWin g.core gid
  let shapes := (List.range 8).map fun k => match (c.tile k).shape with | some sh => if (c.tile k).gang = some gid then 2 ^ 15 + sh.imm else 0 | none => 0
  headWord (s.saveSize gid g scalar) scalar +
  (g.asid.toNat * 2 ^ 48 + bitAt g.super 44 + g.prio * 2 ^ 41 + bitAt win.isSome 40 + mask (s.boundStreams g.core gid) * 2 ^ 32 +
    mask (s.boundTiles g.core gid) * 2 ^ 24 + s.gangSlabs g * 2 ^ 12 + g.members.length * 2 ^ 8 + gid) * 2 ^ 64 +
  (g.slabPref * 2 ^ 40 + g.slabMin * 2 ^ 32 + g.affinity.toNat) * 2 ^ 128 + g.ctx * 2 ^ 192 + g.done.toNat * 2 ^ 256 + g.doneScope * 2 ^ 320 +
  (match win with | some x => x.desc.toNat * 2 ^ 384 + x.base.toNat * 2 ^ 448 | none => 0) +
  packNat 64 ((List.range 16).map fun e => (s.sedgeMaster g.core g.ctx e).word.toNat) * 2 ^ 512 + packNat 64 shapes * 2 ^ (8 * 0xC0)

/-- The save area in the order of R309; the scalar part alone under R312. -/
def State.saveFields (s : State) (gid : Nat) (g : Gang) (scalar : Bool) : List Field :=
  let c := s.core g.core
  let n := g.members.length
  let vb := vlenb (s.gangSlabs g)
  let ts : List (Nat × Strand) := g.members.filterMap fun sid => (s.strand? sid).map fun t => (sid, t)
  let head : List Field := [(0, 256, s.saveHeader gid g scalar)]
  let scal : List Field := (List.range ts.length).filterMap fun k => (ts[k]?).map fun x => (256 + 2048 * k, 2048, s.scalarBlock x.1 x.2)
  if scalar then head ++ scal
  else
    let v0 := 256 + 2048 * n
    let vec : List Field := (List.range ts.length).flatMap fun k => match ts[k]? with | some x => vectorFields x.2 vb (v0 + k * (104 * vb)) | none => []
    let t0 := v0 + n * (104 * vb)
    let tiles := s.boundTiles g.core gid
    let tls : List Field := (List.range tiles.length).map fun k =>
      (t0 + k * 524288, 524288, (c.tile (tiles[k]?.getD 0)).cells.foldl (fun x kv => x + kv.2.toNat * 2 ^ (32 * kv.1)) 0)
    let s0 := t0 + tiles.length * 524288
    let strs := (s.boundStreams g.core gid).foldl (fun (a : List Field × Nat) k =>
      (a.1 ++ [(a.2, (c.stream k).saveSize, (c.stream k).block)], a.2 + (c.stream k).saveSize)) ([], s0)
    let win : List Field := match s.gangWin g.core gid with | some x => winFields x strs.2 | none => []
    head ++ scal ++ vec ++ tls ++ strs.1 ++ win

/-- A field cut at 64 bytes, at its addresses from `base`. -/
def fieldPieces (base : Nat) (f : Field) : List Field :=
  (List.range ((f.2.1 + 63) / 64)).map fun k => ((base + f.1 + 64 * k) % 2 ^ 64, min 64 (f.2.1 - 64 * k), getBits f.2.2 (512 * k) 512)

/-- How the engine's writes end: all performed; one failed, with the address of the error that it met, or 0 (R298, R311); one waits behind a strand's
reservation of its line (R252), or to be the last write of its bytes (R269). -/
inductive SaveEnd where
  | done
  | failed (pa : Nat)
  | held
  deriving DecidableEq, Repr, Inhabited

/-- The engine's writes in order (R308, R311). -/
def State.saveWrite (s : State) (g : Gang) (root : Nat) : List Field → SaveEnd × State
  | [] => (.done, s)
  | (va, n, v) :: rest =>
    let r := s.xlateAll g.core g.asid.toNat root (partPages (onePart va n)) []
    match partBad r.2 1 1 g.super r.1 ((onePart va n).headD default), physOf g.core r.1 va with
    | some b, _ => (.failed b.pa, r.2)
    | none, some pa =>
      if s.poisoned pa then (.failed pa, r.2.meetError pa)
      else if s.resv.has (lineOf pa) ∨ !s.lastNow g.core (bytesOf pa n v) then (.held, r.2)
      else (if placeOf pa = .host ∧ s.hostDown then r.2 else r.2.performBytes g.core none (bytesOf pa n v)).saveWrite g root rest
    | none, none => (.failed 0, r.2)

/-- Everything of a save but its last step, and that step (R308, steps 4 and 5). -/
def State.saveArea (s : State) (gid : Nat) (g : Gang) (scalar : Bool) : SaveEnd × State :=
  match s.contexts.get? g.ctx with
  | none => (.failed 0, s)
  | some x =>
    let ps := (s.saveFields gid g scalar).flatMap (fieldPieces x.sabase.toNat)
    let r := s.saveWrite g x.ptroot.toNat ps
    match r.1 with
    | .done => r.2.saveWrite g x.ptroot.toNat [(x.sabase.toNat, 8, headWord (s.saveSize gid g scalar) scalar + 1)]
    | e => (e, r.2)

/-- A gang is killed (R303, R331): its streams are killed, its running blocks abort, its strands end, and it completes as R329 gives; the writes
already committed still perform. -/
def State.killNow (s : State) (gid : Nat) (g : Gang) : State :=
  let s := (s.boundStreams g.core gid).foldl (fun (s : State) k => s.postKill g.core k) s
  let s := g.members.foldl (fun (s : State) sid => (s.abortBlock sid).updStrand sid fun t =>
    { t.release with run := .halted, stopped := false, barWait := false, sleepTo := none, vsleep := none, tlbWait := none, deferred := [], parkKind := 0, redo := false }) s
  (s.updGang gid fun g => { g with killed := true, stopped := none, save := none, reclaim := none, doneSnap := none }).latchDone gid

/-- A KILL of a gang: at once, or after the save in progress (R332). -/
def State.kill (s : State) (gid : Nat) : State :=
  match s.gangs.get? gid with
  | some g => if g.save.isSome then s.updGang gid fun g => { g with killed := true } else s.killNow gid g
  | none => s

/-- The notice of a refused save (R298, R310). -/
def State.refuseNotice (s : State) (gid : Nat) (g : Gang) (size : Nat) : State :=
  s.notice g.core
    { asid := g.asid, core := BitVec.ofNat 5 g.core, ctxn := BitVec.ofNat 3 (ctxnOf (g.members.headD 0)), fovf := false, repeat_ := false, parked := false,
      fatal := false, rpl := false, index := 0xFF, sub := 0, kind := BitVec.ofNat 8 kSaveNote, block := 0, vaddr := 0, info := BitVec.ofNat 64 gid,
      info2 := BitVec.ofNat 64 size, qt := s.qtime, seq := 0, gang := BitVec.ofNat 8 gid }

/-- A refused save (R310, R311, R326, R345): the gang runs on, and is passed over for the record it was to make room for; one that the thermal
response asked for stays stopped in hardware (log 89), and no reclaim of it goes on. -/
def State.refuseSave (s : State) (gid : Nat) (g : Gang) (op : SaveOp) (size : Nat) : State :=
  let s := s.refuseNotice gid g size
  let s := if op.by_ = 3 then g.members.foldl (fun (s : State) sid => s.updStrand sid fun t => { t with posted := none }) s else s
  let s := s.updGang gid fun g =>
    { g with save := none, reclaim := if op.by_ = 3 then none else g.reclaim, refused := if op.by_ = 1 then g.refused ++ g.forHead.toList else g.refused, stopped := if op.by_ = 3 then g.stopped.or (some 5) else g.stopped }
  if g.killed then s.killNow gid g
  else
    let s := { s with ao := { s.ao with refused := s.ao.refused || op.by_ == 3 || s.pkg.emergency } }
    if op.by_ = 3 then s.stopGang gid true else s

/-- Room on the resumption list for a save that begins (R328). -/
def State.listRoom (s : State) : Bool := s.disp.resumes.length + s.savesBegun < 64

/-- The estimate of R345 reaches TTRIP: the most bytes still to save on a cluster, at 25,600 bytes in a µs. -/
def State.bytesToSave (s : State) (k : Nat) : Nat :=
  (s.gangs.filterMap fun kv => if clusterOf kv.2.core = k ∧ kv.2.resident then kv.2.save.map fun o => s.saveSize kv.1 kv.2 o.scalarOnly else none).foldl (· + ·) 0
def State.saveLate (s : State) : Bool := (List.range 8).any fun k => s.pkg.ttrip * 25600 ≤ s.bytesToSave k

/-- The saves that cannot end before a predicted trip proceed as R312 gives (R345). -/
def State.hurrySaves (s : State) : State :=
  if s.pkg.emergency ∧ s.saveLate then
    { s with gangs := s.gangs.mapVals fun _ g => { g with save := g.save.map fun o => { o with scalarOnly := true } } }
  else s

/-- A save in flight on a cluster (R345). -/
def State.saveFlies (s : State) (k : Nat) : Bool :=
  s.gangs.any fun kv => clusterOf kv.2.core == k && (match kv.2.save with | some o => o.started | none => false)

/-- A save that has been asked for may begin (R308, R328, R345): its gang is in its core, which is in no power state; the resumption list has room,
and for a save of the thermal response no other is in flight on the cluster. A block that commits at this boundary commits first (R80). -/
def State.saveMayStart (s : State) (g : Gang) (op : SaveOp) : Bool :=
  !op.started && g.resident && g.restore.isNone && (op.by_ == 0 || s.listRoom) && (s.cluster (clusterOf g.core)).state == 0 &&
  (op.by_ != 3 || !s.saveFlies (clusterOf g.core)) && !g.members.any s.commitDue

/-- A save begins (R78, R308, R346, log 120): the strands of the gang stop at a block boundary, and a reclaim is withdrawn. -/
def State.startSave (s : State) (gid : Nat) (g : Gang) (op : SaveOp) : State :=
  let s := g.members.foldl (fun (s : State) sid => (s.abortBlock sid).updStrand sid fun t => { t with posted := none }) s
  let s := { s with ao := { s.ao with esave := s.ao.esave || op.by_ == 3 || s.pkg.emergency } }
  s.updGang gid fun g => { g with save := some { op with started := true }, reclaim := none }

/-- CONTEXT_SAVE_START (R308, R310, R311, R345): a save that does not fit, or of a save-broken context, is refused; another begins. In an emergency the
time to the trip is estimated first, for every save. -/
def contextSaveStart (gid : Nat) (s : State) : Option State :=
  let s := s.hurrySaves
  match s.gangs.get? gid with
  | none => none
  | some g =>
    match g.save, s.contexts.get? g.ctx with
    | some op, some x =>
      let size := s.saveSize gid g op.scalarOnly
      if !s.saveMayStart g op then none
      else if x.broken ∨ x.sasize.toNat < size then some (s.refuseSave gid g op size)
      else some (s.startSave gid g op)
    | _, _ => none

/-- CONTEXT_SAVE_START. -/
def execContextSaveStart (gang : Nat) (s : State) : Out := s.act (contextSaveStart gang s)

/-- The engine has waited for what R308 lists, and for an invalidation that a strand waits for (R293), and the running streams stand at an element
boundary; one that its halted issuer has left to drain ends first (R233), and those of a gang that a fatal record has stopped stand where that found them
(log 113). No link to a die retrains (R353), and the record of a killed gang can be written. -/
def State.saveReady (s : State) (gid : Nat) (g : Gang) : Bool :=
  (match g.save with | some o => o.started | none => false) &&
  (g.members.filterMap s.strand?).all (fun t => t.pend.isEmpty && !t.busy && t.win.isNone && t.tlbWait.isNone) &&
  (g.stopped.isSome || (s.core g.core).streams.all fun kv => kv.2.gang != some gid || kv.2.state != 2 || (kv.2.written.isEmpty && !kv.2.draining)) &&
  !s.linkWait (· < 8) && (!g.killed || g.donePa.all (s.doneOpen g.core))

/-- The end of a killed gang (R331): its record with STATUS 2. -/
def State.endKilled (s : State) (gid : Nat) (g : Gang) : State :=
  let s := { s with gangs := s.gangs.erase gid }.closeCtx g.ctx
  match g.donePa with
  | some pa => s.writeDone g.core pa 2 0 g.core gid g.args (g.qstart.getD 0) g.src
  | none => s.doneMsix g.src

/-- The deferred remote-lost faults that a save finds are written at once (R362). -/
def State.flushDeferred (s : State) (sid : Nat) : State :=
  match s.strand? sid with
  | some t => (t.deferred.foldl (fun (s : State) d => s.notice (coreOf sid) (s.trapRec sid t d t.pc false true)) s).updStrand sid fun t => { t with deferred := [] }
  | none => s

/-- What a save keeps of a gang's streams beside its area (R226 to R228, R231 to R233). -/
def State.keptStreams (s : State) (core gid : Nat) : List KeptStream :=
  (s.boundStreams core gid).map fun k => let st := (s.core core).stream k; { stream := k, cur := st.cur, saved := st.saved, snap := st.snap, written := st.written, item := st.item, finals := st.finals }

/-- The stream notices of a gang that its core still holds wait for the restore (R298, R314), each with the `cid` of the strand that it names. -/
def State.holdNotes (s : State) (gid area : Nat) (g : Gang) : State :=
  let mine (r : TrapRec) : Bool := r.kind.toNat == kStreamNote && r.gang.toNat == gid
  let notes := (s.core g.core).notices.filter mine
  (s.updCore g.core fun c => { c with notices := c.notices.filter fun r => !mine r }).updDisp fun d =>
    { d with notes := (d.notes.filter fun x => x.1 != gid || x.2.1 != area) ++ notes.map fun r => (gid, area, { r with ctxn := BitVec.ofNat 3 (g.members.idxOf (8 * g.core + r.ctxn.toNat)) }) }

/-- Every strand of a gang that lives takes the grant that the header gives for all (R309, log 86). -/
def State.evenGrants (s : State) (g : Gang) : State :=
  let slabs := s.gangSlabs g
  g.members.foldl (fun (s : State) sid => match s.strand? sid with | some t => if t.run = .halted then s else s.setGrant sid slabs | none => s) s

/-- The grants of a gang's live strands are those that they had in an earlier state again. -/
def State.ownGrants (s was : State) (g : Gang) : State :=
  g.members.foldl (fun (s : State) sid => match was.strand? sid with | some t => if t.run = .halted then s else s.setGrant sid t.grant | none => s) s

/-- A saved gang leaves its core (R308, R328): one that `ctx.save` saved is gone; another goes on the resumption list, with its id; a killed one ends
(R332). The dispatcher keeps, for a `ctx.load` of the area, what a completion record needs (R295, R329, R330). -/
def State.leaveSaved (s : State) (gid : Nat) (g : Gang) (by_ : Nat) (area : Dword) (kept : List KeptStream) (bars : List Nat) : State :=
  let keep : SavedGang :=
    { gang := gid, ctx := g.ctx, area := area, args := g.args, qstart := g.qstart, src := g.src, kept := kept, stopped := g.stopped, bars := bars, arrived := g.arrived }
  let s : State := if g.killed then s else s.updDisp fun d => { d with saved := keep :: d.saved.filter fun k => k.gang != gid || k.ctx != g.ctx || k.area != area }
  if g.killed then s.endKilled gid g
  else if by_ = 0 then { s with gangs := s.gangs.erase gid }.closeCtx g.ctx
  else
    let e : Resume :=
      { gang := gid, area := area, ctx := g.ctx, via := g.ctx, prio := g.prio, affinity := g.affinity, gsize := g.members.length, slabMin := g.slabMin,
        slabPref := g.slabPref, idKept := true, since := s.now, args := g.args, src := g.src, qstart := g.qstart, bars := bars, arrived := g.arrived, kept := kept,
        stopped := g.stopped }
    let s := s.updGang gid fun g => { g with resident := false, members := [], save := none, reclaim := none, stopped := none, doneSnap := none }
    (s.closeCtx g.ctx).updDisp fun d => { d with resumes := d.resumes ++ [e] }

/-- CONTEXT_SAVE_COMPLETE (R308, R312, R328, R346): the area is written and COMPLETE with it; the gang's resources are released. -/
def contextSaveComplete (gid : Nat) (s : State) : Option State :=
  match s.gangs.get? gid with
  | none => none
  | some g =>
    match g.save with
    | none => none
    | some op =>
      if !s.saveReady gid g then none
      else
        let r := (s.evenGrants g).saveArea gid g op.scalarOnly
        match r.1 with
        | .done =>
          let area := match s.contexts.get? g.ctx with | some x => x.sabase | none => 0
          let kept := s.keptStreams g.core gid
          let bars := (List.range g.members.length).filter fun k => match (g.members[k]?).bind s.strand? with | some t => t.barWait | none => false
          let s := g.members.foldl (fun (s : State) sid => s.flushDeferred sid) r.2
          let s := if op.scalarOnly then s.fatal gid g.core 4 0 else s
          let s := { s with ao := { s.ao with nsaved := if op.by_ = 3 ∨ s.pkg.emergency then s.ao.nsaved + 1 else s.ao.nsaved, vlost := s.ao.vlost || op.scalarOnly } }
          some (((s.holdNotes gid area.toNat g).clearGang gid g).leaveSaved gid g op.by_ area kept bars)
        | _ => none

/-- CONTEXT_SAVE_COMPLETE. -/
def execContextSaveComplete (gang : Nat) (s : State) : Out := s.act (contextSaveComplete gang s)

/-- SAVE_BROKEN (R311, R346): a write of the engine fails; the area keeps COMPLETE = 0, the gang stays in hardware, stopped, the context is
marked, and a fatal record with SUB 0x03 is written. -/
def saveBroken (gid : Nat) (s : State) : Option State :=
  match s.gangs.get? gid with
  | none => none
  | some g =>
    match g.save with
    | none => none
    | some op =>
      if !s.saveReady gid g then none
      else
        let r := (s.evenGrants g).saveArea gid g op.scalarOnly
        match r.1 with
        | .failed pa =>
          let s := ((r.2.ownGrants s g).fatal gid g.core 3 pa).updGang gid fun g => { g with save := none }
          let s := s.updCtx g.ctx fun x => { x with broken := true }
          let s := { s with ao := { s.ao with refused := s.ao.refused || op.by_ == 3 || s.pkg.emergency } }
          some (if g.killed then s.killNow gid g else s)
        | _ => none

/-- SAVE_BROKEN. -/
def execSaveBroken (gang : Nat) (s : State) : Out := s.act (saveBroken gang s)

/-- Dwords of a save area as one number, through the tables at `root`; none where one cannot be read. -/
def State.areaNat (s : State) (root : Nat) (va : Nat) : Nat → Option Nat
  | 0 => some 0
  | k + 1 =>
    let xl : NMap XRes := [(pageOf va, s.walk root (pageOf va))]
    match partBad s 1 0 true xl ((onePart va 8).headD default), physOf 0 xl va with
    | none, some pa =>
      if inScratch va ∨ s.poisoned pa ∨ (placeOf pa = .host ∧ s.hostDown) then none
      else (s.areaNat root ((va + 8) % 2 ^ 64) k).map fun y => Memory.readLe s.mem pa 8 + 2 ^ 64 * y
    | _, _ => none

/-- The event index registers from the control registers of a scalar block. -/
def eixOf (ctl : Nat → Nat) : NMap (Nat × Nat) :=
  (List.range 6).filterMap fun k => let x := ctl (0x11 + k); if x = 0 then none else some (k, (getBits x 32 7, getBits x 0 32))

/-- A strand from its scalar block (R309, R313). `tcause`, `taddr` and `tinfo`, which the block does not hold, are 0 (log 143, DESIGN CHOICE). -/
def restoreStrand (b gang cid : Nat) (asid : BitVec 16) (ctx slabs : Nat) (bar : Bool) : Strand :=
  let ctl (k : Nat) : Nat := getBits b (8 * 0x240 + 64 * k) 64
  let t := Strand.start (BitVec.ofNat 64 b) 0 gang cid asid ctx (b.testBit 64) (BitVec.ofNat 22 (ctl 2)) slabs
  { t with
    g := Vector.ofFn fun (k : Fin 64) => BitVec.ofNat 64 (getBits b (8 * 0x40 + 64 * k.val) 64), vl := BitVec.ofNat 22 (ctl 0), fstat := BitVec.ofNat 6 (ctl 0x10),
    eix := eixOf ctl, srseed := BitVec.ofNat 32 (ctl 0x18), mstat := BitVec.ofNat 6 (ctl 0x19), qdl := BitVec.ofNat 64 (ctl 0x30), wstat := BitVec.ofNat 64 (ctl 0x31),
    btmo := BitVec.ofNat 64 (getBits b (8 * 0x3D0) 64), sr := (List.range 256).map fun l => (l, BitVec.ofNat 32 (getBits b (8 * 0x400 + 32 * l) 32)),
    run := if b.testBit 66 then .halted else .active, barWait := bar, redo := b.testBit 65, parkKind := if b.testBit 65 then getBits b 72 8 else 0,
    parkInfo := if b.testBit 65 then BitVec.ofNat 64 (getBits b 128 64) else 0 }

/-- The registers of a strand from its vector block (R309). -/
def Strand.withVector (t : Strand) (vb x : Nat) : Strand :=
  { t with
    v := (List.range 32).map fun r => (r, getBits x (8 * vb * r) (8 * vb)), m := (List.range 7).map fun r => (r + 1, getBits x (8 * (32 * vb + r * (8 * vb))) (64 * vb)),
    scl := (List.range 8).map fun r => (r, getBits x (8 * (88 * vb + r * (2 * vb))) (16 * vb)) }

/-- The current strip of a stream whose counter is `cnt` at position `pos` (R227, R233), where nothing else tells it: the strip in which the two
agree; the strip before where the current one is whole and the next has begun. -/
def stripOf (strip pos cnt : Nat) : Nat :=
  if cnt = 0 then (pos + strip - 1) / strip else if (pos - cnt) % strip = 0 then (pos - cnt) / strip else pos / strip - 1

/-- A stream from its block (R227, R233, R309, R313): its strip buffer is empty; its current strip, the elements written above its position and its snapshot are
those kept beside the save area, where the counter agrees with that strip, and the partial sums before it and the final writes of RED = 2 too (R232). -/
def restoreStream (x gid issuer cid : Nat) (kept : Option KeptStream) (snap : Sedge) (item : Nat) : Stream :=
  let d := streamRecOf (x % 2 ^ 512)
  let pos := getBits x (8 * 0x48) 64
  let cnt := getBits x (8 * 0x50) 64
  let state := getBits x (8 * 0x40) 8
  let p : NMap (BitVec 32) := if d.red = 2 ∧ 2 ≤ state then (List.range (min d.strip pos)).map fun k => (k, BitVec.ofNat 32 (getBits x (8 * 0x80 + 32 * k) 32)) else []
  let at_ (cur : Nat) (saved : NMap (BitVec 32)) (written finals : NMap Bool) : Stream :=
    { Stream.reset with
      finals := finals,
      gang := some gid, desc := d, state := state, cur := cur, done_ := pos, written := written, events := BitVec.ofNat 6 (getBits x (8 * 0x58) 6), part := p, saved := saved,
      issuer := issuer, cid := cid, snap := (kept.map (·.snap)).getD snap, item := item, failAt := pos }
  match kept with
  | some k => if (at_ k.cur k.saved k.written k.finals).avail = cnt then at_ k.cur k.saved k.written k.finals else at_ (stripOf d.strip pos cnt) p [] []
  | none => at_ (stripOf d.strip pos cnt) p [] []

/-- One strand of a restored gang (R140, R313): its registers under the saved length, then under its new grant (`State.setGrant`); parked again with its record
rewritten when it was saved so, under INDEX 0xFF (log 142, DESIGN CHOICE). -/
def State.placeRestored (s : State) (sid : Nat) (t : Strand) (vec : Option (Nat × Nat)) : State :=
  let slabs := t.grant
  let s := match vec with
    | some (old, x) => ({ s with strands := s.strands.put sid { t.withVector (vlenb old) x with grant := old } }).setGrant sid slabs
    | none => { s with strands := s.strands.put sid t }
  if t.run = .halted then s.updStrand sid (·.release)
  else if t.parkKind ≠ 0 then
    s.takeTrap sid { key := s.now, cls := 0, kind := t.parkKind, sub := 0, index := 0xFF, vaddr := 0, info := t.parkInfo.toNat, info2 := 0 } t.pc false
  else s

/-- The place of a restored stream in the program order of its strand, from `first` on (R231, R262): that of those kept of it, else by its number. -/
def Gang.streamItem (g : Gang) (first k : Nat) : Nat :=
  match g.kept.find? fun y => y.stream == k with
  | some y => first + (g.kept.filter fun z => z.item < y.item).length
  | none => first + 8 + k

/-- The entries of a stream in its strand's interlock table, which stand in program order (R231). -/
def Strand.putLock (t : Strand) (item : Nat) (es : List Interlock) : Strand :=
  { t with lock := t.lock.filter (·.item < item) ++ es ++ t.lock.filter fun e => !(e.item < item) }

/-- The streams of a restored gang, each at its offset in the area (R313). -/
def State.restoreStreams (s : State) (root area gid : Nat) (g : Gang) (lost : Bool) (first : Nat) : List Nat → Nat → Option State
  | [], _ => some s
  | k :: ks, off =>
    if lost then (s.updStream g.core k fun _ => { Stream.reset with gang := some gid, state := 5 }).restoreStreams root area gid g lost first ks off
    else
      match s.areaNat root (area + off) 16 with
      | none => none
      | some h =>
        let d := streamRecOf (h % 2 ^ 512)
        let state := getBits h (8 * 0x40) 8
        let size := (128 + (if d.red = 2 then 4 * d.strip else 0) + 255) / 256 * 256
        match s.areaNat root (area + off) (size / 8) with
        | none => none
        | some x =>
          let cid := getBits h (8 * 0x60) 64
          let sid := g.members[cid]?.getD 0
          let kept := g.kept.find? fun y => y.stream == k
          let st := restoreStream x gid sid cid kept (s.sedge g.core g.ctx d.scope) (g.streamItem first k)
          let s := s.updStream g.core k fun _ => st
          let src : Interlock := { stream := some k, item := st.item, lo := d.srcHull.1.toNat, hi := d.srcHull.2.toNat, write := false }
          let dst : Interlock := { stream := some k, item := st.item, lo := d.dstHull.1.toNat, hi := d.dstHull.2.toNat, write := true }
          let s := if state = 2 then s.updStrand sid (·.putLock st.item [src, dst]) else s
          s.restoreStreams root area gid g lost first ks (off + size)

/-- The strands of a restored gang. -/
def State.restoreStrands (s : State) (root area gid : Nat) (g : Gang) (asid : BitVec 16) (slabs : Nat) (lost : Bool) : List Nat → Option State
  | [] => some s
  | cid :: cs =>
    let sid := g.members[cid]?.getD 0
    let old := match s.strand? sid with | some t => t | none => Strand.start 0 0 gid cid asid g.ctx false 0 0
    match s.areaNat root (area + 256 + 2048 * cid) 256 with
    | none => none
    | some b =>
      let t := restoreStrand b gid cid asid g.ctx old.grant old.barWait
      if lost then (s.placeRestored sid t none).restoreStrands root area gid g asid slabs lost cs
      else
        match s.areaNat root (area + 256 + 2048 * g.members.length + cid * (104 * vlenb slabs)) (13 * vlenb slabs) with
        | none => none
        | some x => (s.placeRestored sid t (some (slabs, x))).restoreStrands root area gid g asid slabs lost cs

/-- The tiles of a restored gang. -/
def State.restoreTiles (s : State) (root area gid core : Nat) (h : Nat) : List Nat → Nat → Option State
  | [], _ => some s
  | k :: ks, off =>
    match s.areaNat root (area + off) 65536 with
    | none => none
    | some x =>
      let sh := getBits h (8 * 0xC0 + 64 * k) 16
      let shape : Option Shape := if sh.testBit 15 then some (Shape.ofImm (sh % 2 ^ 15)) else none
      let cells : NMap (BitVec 32) := (List.range 131072).filterMap fun c => let y := getBits x (32 * c) 32; if y = 0 then none else some (c, BitVec.ofNat 32 y)
      (s.updTile core k fun _ => { gang := some gid, shape := shape, committed := shape, cells := cells }).restoreTiles root area gid core h ks (off + 524288)

/-- The window of a restored gang (R253, R313). -/
def State.restoreWindow (s : State) (root area gid core : Nat) (base desc : Dword) (off : Nat) : Option State :=
  let l := roundUp256 (winLen desc)
  (s.areaNat root (area + off) (8 * l)).map fun x =>
    let copies : NMap Nat := (List.range 64).flatMap fun g => (List.range (winCount desc)).filterMap fun i =>
      let y := getBits x (8 * (g * l + i * winCb desc)) (winFmt desc).width
      if y = winIdentity desc then none else some (32768 * g + i, y)
    let q := s.fresh
    (q.2.openWindow core gid q.1 base desc).updCore core fun c => { c with accWin := c.accWin.map fun x => { x with copies := copies } }

/-- The Sedge table of a save area (R309): entries 1 to 14. -/
def tableOf (h : Nat) : NMap Sedge := (List.range 14).map fun e => (e + 1, Sedge.ofWord (getBits h (512 + 64 * (e + 1)) 64))

/-- The notices that a save has held for a gang are written from its new core (R298, R314), each with the context of the strand
that it names. -/
def State.releaseNotes (s : State) (gid area : Nat) (g : Gang) : State :=
  let mine (x : Nat × Nat × TrapRec) : Bool := x.1 == gid && x.2.1 == area
  let notes := s.disp.notes.filter mine
  notes.foldl (fun (s : State) x =>
    s.notice g.core { x.2.2 with core := BitVec.ofNat 5 g.core, ctxn := BitVec.ofNat 3 (ctxnOf (g.members.getD x.2.2.ctxn.toNat 0)) })
    (s.updDisp fun d => { d with notes := d.notes.filter fun x => !mine x })

/-- The strands of a save area that are saved as parked (R309), each of which needs a slot for its record. -/
def State.savedParked (s : State) (root area n : Nat) : Nat :=
  ((List.range n).filter fun k => match s.areaNat root (area + 256 + 2048 * k + 8) 1 with | some x => x.testBit 1 | none => false).length

/-- CONTEXT_RESTORE (R313, R340): a placed resumption reads its save area and re-creates the gang, once its core runs, its core's tiles, streams and window
that it needs are free and its parked strands' records have room. The core keeps no L1 line from before, so that the gang reads nothing older than what it
read elsewhere, or than an acquire that it has made (R263, R266, R268). -/
def contextRestore (gid : Nat) (s : State) : Option State :=
  match s.gangs.get? gid with
  | none => none
  | some g =>
    match g.restore with
    | none => none
    | some (area, via) =>
      let root := (Memory.dword s.mem via).toNat
      match s.areaNat root area 32 with
      | none => none
      | some h =>
        let lost := h.testBit 1
        let asid := BitVec.ofNat 16 (getBits h 112 16)
        let sup := h.testBit 108
        let slabs := getBits h 76 6
        let tiles := if lost then [] else bitsSet 8 (getBits h 88 8)
        let streams := bitsSet 8 (getBits h 96 8)
        let win := h.testBit 104 && !lost
        let c := s.core g.core
        if tiles.any (fun k => (c.tile k).gang.isSome) ∨ streams.any (fun k => (c.stream k).gang.isSome) ∨ (win ∧ c.accWin.isSome) ∨
           32 < c.queue.length + s.savedParked root area g.members.length ∨ (s.cluster (clusterOf g.core)).state ≠ 0 ∨ s.linkWait (· < 8) then none
        else
          let s := (s.updGang gid fun g => { g with resident := false }).openCtx g.ctx (tableOf h)
          let s := (s.ownCore g.core asid).updCore g.core (·.dropL1 fun _ => true)
          let done := BitVec.ofNat 64 (getBits h 256 64)
          let s := s.updGang gid fun g =>
            { g with resident := true, restore := none, asid := asid, super := sup, done := done, doneScope := getBits h 320 4,
                     donePa := s.doneAt (Memory.dword s.mem g.ctx).toNat done.toNat sup }
          let t0 := 256 + 2048 * g.members.length + g.members.length * (104 * vlenb slabs)
          let soff := t0 + tiles.length * 524288
          let woff := (streams.foldl (fun (o : Option Nat) _ =>
            o.bind fun o => (s.areaNat root (area + o) 16).map fun x =>
              let d := streamRecOf (x % 2 ^ 512)
              o + (128 + (if d.red = 2 then 4 * d.strip else 0) + 255) / 256 * 256) (some soff)).getD 0
          ((s.restoreStrands root area gid g asid slabs lost (List.range g.members.length)).bind fun s =>
            (s.restoreTiles root area gid g.core h tiles t0).bind fun s =>
              ({ s with seq := s.seq + 16 }.restoreStreams root area gid g lost s.seq streams soff).bind fun s =>
                if win then s.restoreWindow root area gid g.core (BitVec.ofNat 64 (getBits h 448 64)) (BitVec.ofNat 64 (getBits h 384 64)) woff else some s).map fun s =>
            let s := (s.releaseNotes gid area g).latchDone gid
            let s := if lost then s.updGang gid fun g => { g with stopped := g.stopped.or (some 4) } else s
            if lost ∨ g.stopped.isSome then s.stopGang gid true else s

/-- CONTEXT_RESTORE. -/
def execContextRestore (gang : Nat) (s : State) : Out := s.act (contextRestore gang s)

end Sys2Proof.Machine
end

