-- ==== Sys2Proof/Machine/Resume.lean ====
section
/-! DEFINITION. Traps after they are taken (R296 to R303, R362), and TLB invalidation (R293). -/

namespace Sys2Proof.Machine

/-- A gang stopped by a fatal record runs on (R301): its strands stand as they did. -/
def State.runOn (s : State) (gid : Nat) : State := (s.updGang gid fun g => { g with stopped := none }).stopGang gid false

/-- GO on a stopped gang (R301). -/
def State.goStopped (s : State) (gid : Nat) : State :=
  match s.gangs.get? gid with
  | none => s
  | some g =>
    match g.stopped with
    | some 3 => (s.runOn gid).updCtx g.ctx fun x => { x with broken := false }
    | some 4 => s.runOn gid
    | _ => s

/-- What a write to RESUME does (R303), with the RESUMEPC of the write: it acts on a parked strand or a stopped gang, and is ignored otherwise. -/
def State.resumeNow (s : State) (core ctxn action : Nat) (pc : Dword) : State :=
  let sid := 8 * core + ctxn
  match s.strand? sid with
  | none => s
  | some t =>
    if t.stopped then (match action with | 0 => s.goStopped t.gang | 2 => s.kill t.gang | _ => s)
    else if t.run ≠ .parked then s
    else
      match action with
      | 0 => s.resumeAt sid t.pc
      | 1 => s.resumeAt sid (pc &&& ~~~31)
      | 2 => s.kill t.gang
      | _ => s

/-- Whether a write to RESUME names a strand that it acts on. -/
def State.resumable (s : State) (sid : Nat) : Bool := match s.strand? sid with | some t => t.stopped || t.run == .parked | none => false

/-- A write to RESUME (R302, R303): while the core's cluster is in a power state it waits, wakes the cluster, and acts at the exit (R334, R340). -/
def State.resume (s : State) (core ctxn action : Nat) : State :=
  let pc := (s.core core).resumePc
  if (s.cluster (clusterOf core)).state = 0 then s.resumeNow core ctxn action pc
  else if s.resumable (8 * core + ctxn) then s.updCore core fun c => { c with resumes := c.resumes ++ [(ctxn, action, pc)] }
  else s

/-- The writes to RESUME that a core has waiting act, in their order. -/
def State.applyResumes (s : State) (core : Nat) : State :=
  (s.core core).resumes.foldl (fun (s : State) r => s.resumeNow core r.1 r.2.1 r.2.2) (s.updCore core fun c => { c with resumes := [] })

/-- RESUME_GO (R303). -/
def resumeGo (core ctxn : Nat) (s : State) : Option State := if core < 32 ∧ ctxn < 8 then some (s.resume core ctxn 0) else none
def execResumeGo (core ctxn : Nat) (s : State) : Out := s.act (resumeGo core ctxn s)

/-- RESUME_REDIRECT (R303). -/
def resumeRedirect (core ctxn : Nat) (s : State) : Option State := if core < 32 ∧ ctxn < 8 then some (s.resume core ctxn 1) else none
def execResumeRedirect (core ctxn : Nat) (s : State) : Out := s.act (resumeRedirect core ctxn s)

/-- RESUME_KILL (R303). -/
def resumeKill (core ctxn : Nat) (s : State) : Option State := if core < 32 ∧ ctxn < 8 then some (s.resume core ctxn 2) else none
def execResumeKill (core ctxn : Nat) (s : State) : Out := s.act (resumeKill core ctxn s)

/-- Fences at the head of a strand's items have nothing left to order. -/
def trimItems : List PItem → List PItem
  | [] => []
  | i :: is => match i.kind with | .fence _ _ => trimItems is | _ => i :: is

/-- An item leaves, or changes. -/
def Strand.dropItem (t : Strand) (q : Nat) : Strand := { t with items := trimItems (t.items.filter (·.q != q)) }
def Strand.setItem (t : Strand) (q : Nat) (k : PKind) : Strand := { t with items := t.items.map fun i => if i.q = q then { i with kind := k } else i }

/-- The value of the register that waits on an item is on its way back (R106, R246, R280). -/
def Strand.answer (t : Strand) (now : Nat) (reg : Option Nat) (q : Nat) (x : Dword) (place : Nat) : Strand :=
  match reg with
  | some g => { t with pend := t.pend.adjust g fun p => if p.item = q then { p with value := some x, sent := now, place := place } else p }
  | none => t

/-- A committed atomic that can no longer be done (R349, R355, R357): the gang stops, and the register takes a free value. -/
def State.atomicLost (s : State) (sid q gang pa : Nat) (reg : Option Nat) : State :=
  let u := s.undef 64
  (u.2.fatal gang (coreOf sid) 2 pa).updStrand sid fun t => (t.dropItem q).answer s.now reg q (BitVec.ofNat 64 u.1) pa

/-- The committed host-window atomic of a strand on an address, with its register. -/
def Strand.hostAtomic (t : Strand) (pa : Nat) : Option (PItem × Option Nat) :=
  t.items.findSome? fun i => match i.kind with
    | .atomic _ _ a _ _ _ reg _ _ => if a = pa ∧ placeOf a = .host then some (i, reg) else none
    | _ => none

/-- FATAL_RECORD (R203, R301, R349, R355): an uncorrectable error in the accumulator store (SUB 1) or on a path after commit (SUB 2), or an
AtomicOp that the host completes with an error, which ends that atomic. -/
def fatalRecord (gid sub pa : Nat) (s : State) : Option State :=
  match s.gangs.get? gid with
  | none => none
  | some g =>
    if !g.resident ∨ (sub ≠ 1 ∧ sub ≠ 2) then none
    else
      match (if sub = 2 then g.members.findSome? fun sid => (s.strand? sid).bind fun t => (t.hostAtomic pa).map fun x => (sid, x) else none) with
      | some (sid, i, reg) => some (s.atomicLost sid i.q gid pa reg)
      | none => some ((if sub = 2 ∧ placeOf pa = .hbm then s.meetError pa else s).fatal gid g.core sub pa)

/-- FATAL_RECORD. -/
def execFatalRecord (gang sub pa : Nat) (s : State) : Out := s.act (fatalRecord gang sub pa s)

/-- The 64 bytes of a trap record (R297). -/
def TrapRec.bytes (r : TrapRec) : Nat := packNat 64 (r.dwords.map (·.toNat))

/-- A freed slot takes a notice that waits (R300). -/
def Core.admitNotice (c : Core) : Core :=
  match c.notices with
  | n :: ns => if c.queueFull then c else { c.enqueue n with notices := ns }
  | [] => c

/-- A ring is full (R302). -/
def Ring.full (g : Ring) : Bool := (g.rhead - g.rtail).toNat == 2 ^ g.rsize.toNat

/-- The address of the record that a ring takes next (R302). -/
def Ring.slot (g : Ring) : Nat := g.rbase.toNat + 64 * (g.rhead.toNat % 2 ^ g.rsize.toNat)

/-- The record of a core that the router takes next, and whether it stands in the fatal slot (R302). -/
def Core.nextRecord (c : Core) : Option (TrapRec × Bool) :=
  match c.fatal with
  | some r => some (r, true)
  | none => c.queue.head?.map fun r => (r, false)

/-- The ring that a record's ASID selects, and whether the router can write the next record of a core there. -/
def State.ringOf (s : State) (r : TrapRec) : Nat := (Memory.read s.mem (s.trtbase.toNat + r.asid.toNat)).toNat
def State.routable (s : State) (core : Nat) : Bool := match (s.core core).nextRecord with | some r => !(s.ring (s.ringOf r.1)).full | none => false

/-- The core that the router serves next (R302): in turn after the last, of those that have a record whose ring has room. -/
def State.routerTurn (s : State) : Option Nat := ((List.range 32).map fun k => (s.board.rrRouter + 1 + k) % 32).find? s.routable

/-- ROUTER_RECORD_WRITE (R302, R334, R353, R357): the record in the fatal slot, or the oldest ordinary one, goes to the ring that its ASID selects. A notice
that waits for the slot takes it, in a power state only after the wake that it causes. -/
def routerRecordWrite (core : Nat) (s : State) : Option State :=
  match (s.core core).nextRecord with
  | none => none
  | some (r, fat) =>
    let k := s.ringOf r
    let g := s.ring k
    let at_ := g.slot
    if s.hostDown ∨ s.routerTurn ≠ some core ∨ !s.linkOpen [s.trtbase.toNat + r.asid.toNat, at_] ∨ !s.lastNow 64 (bytesOf at_ 64 0) then none
    else
      let s := s.performBytes 64 none (bytesOf at_ 64 r.bytes)
      let s := { s with rings := s.rings.put k { g with rhead := g.rhead + 1 } }.updBoard fun b => { b with rrRouter := core }
      let on := (s.cluster (clusterOf core)).state == 0
      let s := s.updCore core fun c =>
        if fat then { c with fatal := none } else (if on then Core.admitNotice else id) { c with queue := c.queue.drop 1 }
      some (if g.en then s.msix g.vec.toNat else s)

/-- ROUTER_RECORD_WRITE. -/
def execRouterRecordWrite (core : Nat) (s : State) : Out := s.act (routerRecordWrite core s)

/-- The strands of a core that replay for a slot that has freed. -/
def State.replaying (s : State) (core : Nat) : Nat := (s.strands.filter fun kv => coreOf kv.1 == core && kv.2.again).length

/-- REPLAY_PENDING_REPLAY (R300, log 118): with a slot free, and no other strand replaying for it, the replay-pending strand of the lowest context runs
its block again. -/
def replayPendingReplay (core : Nat) (s : State) : Option State :=
  if 32 ≤ (s.core core).queue.length + s.replaying core then none
  else ((List.range 8).find? fun k => match s.strand? (8 * core + k) with | some t => t.run == .pend && !t.stopped | none => false).map fun k =>
    s.updStrand (8 * core + k) fun t => { t with run := .active, again := true }

/-- REPLAY_PENDING_REPLAY. -/
def execReplayPendingReplay (core : Nat) (s : State) : Out := s.act (replayPendingReplay core s)

/-- Whether an invalidation names a TLB entry (R293). -/
def Inval.names (i : Inval) (e : TlbEntry) : Bool :=
  match i.kind with
  | 0 => (e.leaf.glob || e.asid == i.asid.toNat) && e.leaf.covers (pageOf i.va.toNat)
  | 1 => !e.leaf.glob && e.asid == i.asid.toNat
  | _ => true

/-- Whether an invalidation names the page of a pin of a strand of an ASID. -/
def Inval.namesPin (i : Inval) (asid : BitVec 16) (pin : Nat) : Bool :=
  let l : Leaf := { page := pin / 8, level := pin / 2 % 4, pa := 0, w := false, sup := false, x := false, glob := pin % 2 == 1 }
  i.names { asid := asid.toNat, leaf := l }

/-- TLB_INVALIDATE_PERFORM (R293): once every earlier walk has finished and no committed store pins a named page, the named entries leave
every TLB, the running blocks that pin a named page abort and replay, but for one that commits at this boundary, which commits first (R80), and the strand that waits goes on. -/
def tlbInvalidatePerform (k : Nat) (s : State) : Option State :=
  match s.invals.find? (·.id == k) with
  | none => none
  | some i =>
    let hit := s.strands.filter fun kv => match kv.2.win with | some w => w.pins.any (i.namesPin kv.2.asid) | none => false
    if (s.walks.any fun kv => kv.1 < i.walks) ∨ (s.strands.any fun kv => (kv.2.items.flatMap PItem.pins).any (i.namesPin kv.2.asid)) ∨
       hit.any (fun kv => s.commitDue kv.1) then none
    else
      let s := hit.foldl (fun (s : State) kv => s.abortBlock kv.1) s
      let s := { s with
        cores := s.cores.mapVals fun _ c => { c with tlb := c.tlb.filter fun e => !i.names e },
        dies := s.dies.mapVals fun _ d => { d with tlb := d.tlb.filter fun e => !i.names e },
        invals := s.invals.filter (·.id != k) }
      some (match i.sid with
        | some sid => if s.invals.any fun j => j.sid == some sid then s else s.updStrand sid fun t => { t with tlbWait := none }
        | none => s)

/-- TLB_INVALIDATE_PERFORM. -/
def execTlbInvalidatePerform (inv : Nat) (s : State) : Out := s.act (tlbInvalidatePerform inv s)

/-- A write of 1 to START (R364): the host's `tlb.inv`; ignored while BUSY or when KIND = 3. -/
def State.startInv (s : State) : State :=
  if s.tlbBusy ∨ s.board.tkind = 3 then s
  else
    let q := s.fresh
    let i : Inval := { id := q.1, kind := s.board.tkind.toNat, asid := s.board.tasid, va := s.board.taddr, sid := none, walks := q.1 }
    { q.2 with invals := q.2.invals ++ [i] }

/-- TLB_INV_START (R364). -/
def tlbInvStart (s : State) : Option State := some s.startInv
def execTlbInvStart (s : State) : Out := s.act (tlbInvStart s)

/-- The fabric atomic of a strand that comes first (R362). -/
def Strand.fabricAtomic (t : Strand) : Option (PItem × Nat × Nat × Option Nat) :=
  t.items.findSome? fun i => match i.kind with
    | .atomic _ _ pa va _ _ reg _ _ => if placeOf pa = .fabric then some (i, pa, va, reg) else none
    | _ => none

/-- A port that is lost, of those that could have carried an access that no route is left for. -/
def State.lostPort (s : State) : Nat := ((List.range 18).find? fun p => (s.port p).state == 5).getD 0

/-- REMOTE_LOST_DEFERRED (R362): a committed fabric atomic is lost with the port that carries it (SUB 2) or refused by the remote (SUB 3); its
register takes all ones, and the strand is stopped before its next block, or, when it has halted, its record is written at once. -/
def remoteLostDeferred (sid : Nat) (s : State) : Option State :=
  match s.strand? sid with
  | none => none
  | some t =>
    match t.fabricAtomic with
    | none => none
    | some (i, pa, va, reg) =>
      let own := fabDev pa = s.board.devnum.toNat
      let lost := !decide own && (match i.port with | some p => (s.port p).state == 5 | none => true)
      if own ∧ (s.target pa).isSome ∨ (!lost ∧ !fencesAllow false [] t.items i.q) then none
      else
        let port := if own then 0 else i.port.getD s.lostPort
        let f : FaultRec := { key := s.now, cls := classOf kRemote, kind := kRemote, sub := if lost then 2 else 3, index := 0xFF, vaddr := va, info := port, info2 := fabDev pa }
        let s := s.updStrand sid fun t => (t.dropItem i.q).answer s.now reg i.q (BitVec.allOnes 64) pa
        some (if t.run = .halted then s.notice (coreOf sid) (s.trapRec sid t f t.pc false true) else s.updStrand sid fun t => { t with deferred := t.deferred ++ [f] })

/-- REMOTE_LOST_DEFERRED. -/
def execRemoteLostDeferred (sid : Nat) (s : State) : Out := s.act (remoteLostDeferred sid s)

end Sys2Proof.Machine
end

