-- ==== Sys2Proof/Machine/Power.lean ====
section
/-! DEFINITION. Power states, quiesce, the period floor, the cap and the thermal response (R333 to R347). -/

namespace Sys2Proof.Machine

/-- The strands of a cluster (R13). -/
def State.clusterStrands (s : State) (k : Nat) : List (Nat × Strand) := s.strands.filter fun kv => clusterOf (coreOf kv.1) == k

/-- A strand that could begin or run a block (R334): not halted, parked, stopped, held, asleep or at a barrier. -/
def State.runnable (s : State) (sid : Nat) (t : Strand) : Bool :=
  (t.run == .active || t.run == .pend) && !t.stopped && !t.barWait && t.sleepTo.isNone && (match t.vsleep with | some w => w.hit | none => true) &&
  !(s.cluster (clusterOf (coreOf sid))).holds

/-- The context-save engine has work on a cluster: a restore, or a save (R308, R313); while a quiesce stands only a thermal one (R347). -/
def State.engineWork (s : State) (k : Nat) (thermal : Bool) : Bool :=
  s.gangs.any fun kv => clusterOf kv.2.core == k && kv.2.resident &&
    ((match kv.2.save with | some o => !thermal || o.by_ == 3 | none => false) || (!thermal && kv.2.restore.isSome))

/-- No committed store, atomic or `vamerge` of a strand is still to perform, nor other posted work of it (R334), and no stamp or old value is still to come
(R308, R339). -/
def Strand.quietItems (t : Strand) : Bool := t.pend.isEmpty && t.mq.isEmpty && t.items.all fun i => match i.kind with | .fence _ _ => true | _ => false

/-- A cluster is idle (R334), a strand that has been stopped within its block (R301) like another, the records in its spawn buffers apart where `spawns` is false. -/
def State.clusterIdle (s : State) (k : Nat) (spawns : Bool := true) : Bool :=
  ((s.clusterStrands k).all fun kv => !s.runnable kv.1 kv.2 && (kv.2.win.isNone || kv.2.stopped) && kv.2.quietItems) &&
  ((List.range 4).all fun j =>
    let c := s.core (4 * k + j)
    c.streams.all (fun kv => kv.2.state != 2) && (!spawns || c.spawn.isEmpty) && c.standing s.now && c.banks.isEmpty) &&
  !s.engineWork k false

/-- The earliest deadline of some strands (R334, R335): of `sleep`, or of a `vwait`, whose `qdl` is compared with `qtime` modulo 2^64 (R275). -/
def Strand.deadline (now : Nat) (t : Strand) : Option Nat :=
  match t.sleepTo with
  | some q => some q
  | none => if t.vsleep.isSome ∧ t.qdl ≠ 0 then some (now + (t.qdl.toNat - now % 2 ^ 64)) else none
def earliest (now : Nat) (l : List (Nat × Strand)) : Option Nat :=
  (l.filterMap fun kv => kv.2.deadline now).foldl (fun a d => match a with | none => some d | some x => some (min x d)) none

/-- The exit times and the break-even times in quanta (R333, R335). -/
def exitTime : Nat → Nat | 1 => 400 | 2 => 16000 | 3 => 160000 | 4 => 4000000 | _ => 0
def breakEven : Nat → Nat | 2 => 64000 | 3 => 1600000 | 4 => 40000000 | _ => 0

/-- The predicted idle time repays a state (R335): the time to the earliest deadline, and the mean of the last idle periods, reach its
break-even time. -/
def repays (now : Nat) (deadline : Option Nat) (idles : List Nat) (d : Nat) : Bool :=
  (match deadline with | some q => now + breakEven d ≤ q | none => true) &&
  (idles.isEmpty || breakEven d * idles.length ≤ idles.foldl (· + ·) 0)

/-- The deepest state at or below `d` that the prediction repays; C1 needs none. -/
def deepestRepaid (now : Nat) (deadline : Option Nat) (idles : List Nat) : Nat → Nat
  | 0 => 0
  | 1 => 1
  | d + 2 => if repays now deadline idles (d + 2) then d + 2 else deepestRepaid now deadline idles (d + 1)

/-- A core takes every change that its context's other copies hold (R240). -/
def Context.catchUp (x : Context) (core : Nat) : Context :=
  { x with copies := if x.copies.has core then x.copies.put core x.table else x.copies, unacked := x.unacked.filter (·.1 != core) }

/-- The spill of a cluster takes the oldest lines of each L2 slice (R336), which go to the Slough. -/
def Die.spill (d : Die) (room : Nat) : Die := { d with l2 := d.l2.take room, slough := (d.l2.drop room ++ d.slough).take sloughLines }
def State.spillL2 (s : State) : State :=
  let room := s.l2Room
  { s with dies := s.dies.mapVals fun _ d => d.spill room }

/-- A cluster enters a power state (R333, R334, R336): the L1 TLBs empty from C2 on, L1 data is written back in C3, where the spill takes its lines of L2,
its cores count as acknowledging. -/
def State.enterPower (s : State) (k d : Nat) (refused under : Bool) : State :=
  let cs := (List.range 4).map (4 * k + ·)
  let s := if d = 0 then s else cs.foldl (fun (s : State) c =>
    ({ s with contexts := s.contexts.mapVals fun _ x => x.catchUp c }).updCore c fun c =>
      { c with tlb := if 2 ≤ d then [] else c.tlb, l1 := if d = 3 then [] else c.l1, gl1 := if d = 3 then [] else c.gl1 }) s
  let s := s.updCluster k fun x =>
    { x with state := d, predRef := refused, spilled := d == 3, underReq := x.underReq || (under && d != 0),
             idleSince := if d = 0 then none else some (x.idleSince.getD s.now) }
  if d = 3 then s.spillL2 else s

/-- A thermal emergency forces the clusters whose gangs are saved, or stay stopped since they could not be, to C3 (R345). -/
def State.forced (s : State) (k : Nat) : Bool :=
  s.pkg.emergency && s.gangs.all fun kv => clusterOf kv.2.core != k || !kv.2.resident || (kv.2.stopped.isSome && kv.2.save.isNone)

/-- CLUSTER_IDLE_ENTRY (R334, R335, R345): an idle cluster enters the deepest state that its tolerance and its predictor allow, from a
shallower one too unless a quiesce keeps it where it is, with PREDREF where the predictor refuses it one; in an emergency C3, whatever its spawn buffers
hold. -/
def clusterIdleEntry (k : Nat) (s : State) : Option State :=
  let x := s.cluster k
  if 8 ≤ k ∨ x.waking ∨ x.stopAt.isSome ∨ (s.board.reduced ∧ k ≠ 0) ∨ !s.clusterIdle k !(s.forced k) then none
  else if s.forced k then (if x.state < 3 then some (s.enterPower k 3 false x.qreq) else none)
  else
    let deep := deepOf x.cltr.toNat
    let d := deepestRepaid s.now (earliest s.now (s.clusterStrands k)) x.idles deep
    if x.state ≠ 0 ∧ x.qreq then none
    else if d ≤ x.state then (if x.state < deep ∧ !x.predRef then some (s.updCluster k fun x => { x with predRef := true }) else none)
    else some (s.enterPower k d (d != deep) x.qreq)

/-- CLUSTER_IDLE_ENTRY. -/
def execClusterIdleEntry (cluster : Nat) (s : State) : Out := s.act (clusterIdleEntry cluster s)

/-- Whether a wake event of R334 has come to a cluster in a power state; QREQ = 1 holds them (R340), but for a thermal save (R347). -/
def State.wakeDue (s : State) (k : Nat) : Bool :=
  let x := s.cluster k
  if x.qreq then s.engineWork k true
  else
    ((s.clusterStrands k).any fun kv => s.runnable kv.1 kv.2) || s.engineWork k false ||
    ((List.range 4).any fun j => let c := s.core (4 * k + j); (!c.notices.isEmpty && !c.queueFull) || !c.resumes.isEmpty) ||
    (match earliest s.now (s.clusterStrands k) with | some q => q ≤ s.now + exitTime x.state + (if s.pkg.c4 then exitTime 4 else 0) | none => false)

/-- A cluster begins its exit (R334, R335): an idle period ends. -/
def Cluster.beginExit (x : Cluster) (now : Nat) : Cluster :=
  if x.state = 0 ∨ x.waking then x
  else { x with waking := true, idles := (match x.idleSince with | some q => (now - q) :: x.idles.take 3 | none => x.idles), idleSince := none }

/-- CLUSTER_WAKE (R334, R340). -/
def clusterWake (k : Nat) (s : State) : Option State :=
  let x := s.cluster k
  if x.state = 0 ∨ x.waking ∨ s.pkg.c4 ∨ !s.wakeDue k then none else some (s.updCluster k (·.beginExit s.now))

/-- CLUSTER_WAKE. -/
def execClusterWake (cluster : Nat) (s : State) : Out := s.act (clusterWake cluster s)

/-- The voltage level of a floor (R341), and the floor that a cluster should have. -/
def levelOf (q : Nat) : Nat := if q ≤ 2 then 0 else if q ≤ 4 then 1 else 2
def State.floorFor (s : State) (k : Nat) : Nat := max s.pkg.floor (s.cluster k).floor

/-- A cluster's floor changes (R341), and with it the level. -/
def Cluster.setEff (x : Cluster) (now q : Nat) : Cluster := { x with eff := q, level := levelOf q, effAt := now / 65536 + 1 }

/-- EFF may take a new value now (R341): it has not changed in this control interval, or the fast limiter acts. -/
def State.effOpen (s : State) (k : Nat) : Bool := s.pkg.limf == 8 || (s.cluster k).effAt != s.now / 65536 + 1

/-- The floor with which a cluster leaves a power state (R333, R341, R354): the one it should have, with its level; while a link retrains a rise leaves
the level as it is, with the relock to follow, and a fall waits. -/
def State.exitFloor (s : State) (k : Nat) (x : Cluster) : Cluster :=
  let q := s.floorFor k
  if x.eff = q ∨ !s.effOpen k then x
  else if s.retraining then (if x.eff < q then { x.setEff s.now q with level := x.level } else x)
  else x.setEff s.now q

/-- CLUSTER_EXIT_DONE (R333, R334, R336, R340): the state is left, with the spill restored and any relock made; the writes to RESUME that waited
for it act, and a notice that waited is written. -/
def clusterExitDone (k : Nat) (s : State) : Option State :=
  let x := s.cluster k
  if !x.waking ∨ s.pkg.c4 then none
  else
    let s' := s.updCluster k fun x =>
      { s.exitFloor k x with
        state := 0, waking := false, spilled := false, quiesced := false, underReq := false, wakes := if x.underReq then x.wakes + 1 else x.wakes }
    some ((List.range 4).foldl (fun (s : State) j => (s.applyResumes (4 * k + j)).updCore (4 * k + j) (·.admitNotice)) s')

/-- CLUSTER_EXIT_DONE. -/
def execClusterExitDone (cluster : Nat) (s : State) : Out := s.act (clusterExitDone cluster s)

/-- A host queue has a pending record (R315, R335), whether it is enabled or not. -/
def State.queuePending (s : State) : Bool := (List.range 64).any fun q => let x := s.queue q; x.qrd != x.qwr

/-- The package may enter C4 (R335): every cluster is in C3, no host queue has a record, no port carries traffic, no lane is lent. -/
def State.c4Ready (s : State) : Bool :=
  !s.pkg.c4 && 500000 ≤ s.pkg.pltr.toNat && ((List.range 8).all fun k => (s.cluster k).state == 3 && !(s.cluster k).waking) && !s.queuePending &&
  ((List.range 18).all fun p => (s.port p).unacked.isEmpty) && (List.range 8).all fun d => (s.die d).lent == 0 && (s.die d).handshake.isEmpty

/-- PACKAGE_C4_ENTRY (R335): C4 is entered, unless the predictor refuses it. -/
def packageC4Entry (s : State) : Option State :=
  if !s.c4Ready then none
  else if repays s.now (earliest s.now s.strands) s.pkg.idles 4 then some (s.updPkg fun p => { p with c4 := true, predRef := false, c4Since := some s.now })
  else some (s.updPkg fun p => { p with predRef := true })

/-- PACKAGE_C4_ENTRY. -/
def execPackageC4Entry (s : State) : Out := s.act (packageC4Entry s)

/-- PACKAGE_C4_EXIT (R334, R347): a wake, or an access of the host, brings the package out of C4. -/
def packageC4Exit (s : State) : Option State :=
  if !s.pkg.c4 then none
  else some (s.updPkg fun p => { p with c4 := false, c4Since := none, idles := (match p.c4Since with | some q => (s.now - q) :: p.idles.take 3 | none => p.idles) })

/-- PACKAGE_C4_EXIT. -/
def execPackageC4Exit (s : State) : Out := s.act (packageC4Exit s)

/-- The saves that an evict has asked for and that have not begun are dropped (R339, R340). -/
def State.dropEvicts (s : State) (k : Nat) : State :=
  { s with gangs := s.gangs.mapVals fun _ g => if clusterOf g.core = k then { g with save := g.save.filter fun o => o.by_ != 2 || o.started } else g }

/-- A quiesce request is written with a MODE (R339): an evict asks for the saves, which another MODE drops again, a hold stops the strands at block
boundaries; QUIESCED is 1 only while its conditions hold under the MODE in force. -/
def State.quiesce (s : State) (k mode : Nat) : State :=
  let fresh := !(s.cluster k).qreq || (s.cluster k).mode.toNat != mode
  let leaves : Bool := (s.cluster k).qreq && (s.cluster k).mode == 1
  let s := s.updCluster k fun x => { x with qreq := true, mode := BitVec.ofNat 2 mode, quiesced := x.quiesced && !fresh }
  if !fresh then s
  else if mode = 1 then
    { s with gangs := s.gangs.mapVals fun _ g =>
        if clusterOf g.core = k ∧ g.resident ∧ g.save.isNone then { g with save := some { by_ := 2, scalarOnly := false, started := false } } else g }
  else
    let s := if leaves then s.dropEvicts k else s
    if mode = 2 then (s.clusterStrands k).foldl (fun (s : State) kv => s.endBlock kv.1) s else s

/-- QUIESCE_DRAIN, QUIESCE_EVICT and QUIESCE_HOLD (R339). -/
def quiesceDrain (k : Nat) (s : State) : Option State := if k < 8 then some (s.quiesce k 0) else none
def execQuiesceDrain (cluster : Nat) (s : State) : Out := s.act (quiesceDrain cluster s)
/-- QUIESCE_EVICT (R339). -/
def quiesceEvict (k : Nat) (s : State) : Option State := if k < 8 then some (s.quiesce k 1) else none
def execQuiesceEvict (cluster : Nat) (s : State) : Out := s.act (quiesceEvict cluster s)
/-- QUIESCE_HOLD (R339). -/
def quiesceHold (k : Nat) (s : State) : Option State := if k < 8 then some (s.quiesce k 2) else none
def execQuiesceHold (cluster : Nat) (s : State) : Out := s.act (quiesceHold cluster s)

/-- A quiesce ends (R340): QREQ clears, held gangs run on, an evict's saves that have not begun are dropped, and the state is left. -/
def State.unquiesce (s : State) (k : Nat) : State :=
  if !(s.cluster k).qreq then s
  else
    (s.updCluster k fun x => { x.beginExit s.now with qreq := false, quiesced := false }).dropEvicts k

/-- QUIESCE_RELEASE (R340): a write of QREQ = 0. -/
def quiesceRelease (k : Nat) (s : State) : Option State := if k < 8 then some (s.unquiesce k) else none
def execQuiesceRelease (cluster : Nat) (s : State) : Out := s.act (quiesceRelease cluster s)

/-- CLUSTER_WAKE_WRITE (R340): writing 1 to WAKE; without QREQ it does nothing. -/
def clusterWakeWrite (k value : Nat) (s : State) : Option State := if k < 8 ∧ value % 2 = 1 then some (s.unquiesce k) else none
def execClusterWakeWrite (cluster value : Nat) (s : State) : Out := s.act (clusterWakeWrite cluster value s)

/-- The conditions of QUIESCED (R339). -/
def State.quiesceDone (s : State) (k : Nat) : Bool :=
  let x := s.cluster k
  x.qreq && !x.waking && x.stopAt.isNone && s.clusterIdle k && (x.mode == 2 || s.gangs.all fun kv => clusterOf kv.2.core != k || !kv.2.resident)

/-- CLUSTER_QUIESCED (R339): QUIESCED is set, and the cluster enters TARGET, or the state of R335; PREDREF is set where the predictor
refuses it a deeper one. -/
def clusterQuiesced (k : Nat) (s : State) : Option State :=
  let x := s.cluster k
  if 8 ≤ k ∨ x.quiesced ∨ !s.quiesceDone k then none
  else
    let want := if x.target = 0 then deepOf x.cltr.toNat else x.target.toNat
    let d := if x.force then want else deepestRepaid s.now (earliest s.now (s.clusterStrands k)) x.idles want
    let s := if x.state < d then s.enterPower k d (d != want) true else if x.state < want then s.updCluster k fun x => { x with predRef := true } else s
    some (s.updCluster k fun x => { x with quiesced := true })

/-- CLUSTER_QUIESCED. -/
def execClusterQuiesced (cluster : Nat) (s : State) : Out := s.act (clusterQuiesced cluster s)

/-- The regions of a cluster's cores, changed alike. -/
def State.updRegions (s : State) (k : Nat) (f : Region → Region) : State :=
  (List.range 4).foldl (fun (s : State) j => s.updCore (4 * k + j) fun c => { c with fe := f c.fe, lanes := f c.lanes, plane := f c.plane }) s

/-- The relocks that began in this quantum give way to a link's width reduction (R354): they begin again once the link has retrained. -/
def State.undoRelocks (s : State) : State :=
  (List.range 8).foldl (fun (s : State) k =>
    if (s.cluster k).stopAt = some s.now then (s.updCluster k fun x => { x with stopAt := none }).updRegions k fun r => { r with frozen := none } else s) s

/-- A change of the package floor reaches a cluster (R341, R354): at once at an unchanged level, and a rise at once while a link retrains, with the
relock to follow; else by a relock. -/
def State.settleFloors (s : State) : State :=
  (List.range 8).foldl (fun (s : State) k =>
    let x := s.cluster k
    let q := s.floorFor k
    if x.eff = q ∨ x.stopAt.isSome ∨ !s.effOpen k then s
    else if levelOf q = x.level ∨ (s.retraining ∧ x.eff < q) then s.updCluster k fun x => { x.setEff s.now q with level := x.level }
    else s) s

/-- The average of the last n interval averages, in whole watts (R342, R343). -/
def meanOf (l : List Nat) (n : Nat) : Nat :=
  let l := l.take n
  if l.isEmpty then 0 else l.foldl (· + ·) 0 / l.length

/-- One step of a cap floor (R343). -/
def capStep (capf avg limit : Nat) : Nat :=
  if limit < avg then min 8 (capf + 1) else if avg * 100 < limit * 97 then max 2 (capf - 1) else capf

/-- The limit in force, and the window (R342, R343). -/
def Pkg.capLimit (p : Pkg) : Nat := if p.capEn then min p.cap.toNat 1800 else 1800
def Pkg.window (p : Pkg) : Nat := if p.win = 0 then 1 else p.win.toNat

/-- The package controller at the end of a control interval whose average draw was `watts` (R342, R343). -/
def Pkg.interval (p : Pkg) (watts : Nat) : Pkg :=
  let ws := (watts :: p.watts).take 65535
  let avg := meanOf ws p.window
  let capf := capStep p.capf avg p.capLimit
  let above := if p.capLimit < avg ∧ p.capFloor = 8 then p.overFor + 1 else 0
  { p with
    watts := ws, avg := BitVec.ofNat 16 avg, peak := if p.peak.toNat < watts then BitVec.ofNat 16 watts else p.peak, capf := capf,
    capf10 := capStep p.capf10 (meanOf ws 1221) 1800, limf := if p.limf = 8 ∧ watts < 1800 then 2 else p.limf, overFor := above,
    unmet := p.unmet || decide (p.window ≤ above) }

/-- The most that the package draws (R17, R343). -/
def drawMax : Nat := 1950

/-- A draw above 1,800 W can go on (R17, log 116): an excursion lasts at most 10 ms, which are 1,220 control intervals. -/
def Pkg.mayDraw (p : Pkg) (watts : Nat) : Bool := watts ≤ drawMax && (watts ≤ 1800 || (p.watts.takeWhile fun w => decide (1800 < w)).length < 1220)

/-- CONTROL_INTERVAL (R17, R342, R343): the end of a control interval of 65,536 q, with its average draw. -/
def controlInterval (watts : Nat) (s : State) : Option State :=
  if s.pkg.mayDraw watts ∧ s.pkg.ctlAt < s.now / 65536 then some ((s.updPkg fun p => { p.interval watts with ctlAt := s.now / 65536 }).settleFloors) else none
def execControlInterval (watts : Nat) (s : State) : Out := s.act (controlInterval watts s)

/-- FAST_LIMITER_SAMPLE (R343): a draw above 1,900 W sets LIMF to 8. -/
def fastLimiterSample (watts : Nat) (s : State) : Option State :=
  if drawMax < watts then none
  else some (if 1900 < watts then (s.updPkg fun p => { p with limf := 8, limit := true }).settleFloors else s)
def execFastLimiterSample (watts : Nat) (s : State) : Out := s.act (fastLimiterSample watts s)

/-- The thermal floor follows TMAX (R345). -/
def Pkg.thermal (p : Pkg) (tmax slope : Nat) : Pkg :=
  let w := p.warn.toNat
  { p with
    tmax := BitVec.ofNat 8 tmax, slope := BitVec.ofNat 8 slope,
    thmf := if w ≤ tmax then min 8 (p.thmf + 1) else if tmax < w - 5 then max 2 (p.thmf - 1) else p.thmf,
    emergency := p.emergency && decide (w ≤ tmax) }

/-- THERMAL_CONTROL_INTERVAL (R344, R345): at the end of a control interval the sensors are read, THMF moves, the saves under way are judged again, and below WARN an
emergency ends. -/
def thermalControlInterval (tmax slope : Nat) (s : State) : Option State :=
  if tmax < 256 ∧ slope < 256 ∧ s.pkg.thmAt < s.now / 65536 then
    some ((s.updPkg fun p => { p.thermal tmax slope with thmAt := s.now / 65536 }).settleFloors).hurrySaves
  else none
def execThermalControlInterval (tmax slope : Nat) (s : State) : Out := s.act (thermalControlInterval tmax slope s)

/-- THERMAL_EMERGENCY (R345, R346, R347): dispatch stops, and every resident gang is to be saved by the thermal response, but for one whose save
has begun, which continues. -/
def thermalEmergency (s : State) : Option State :=
  if s.pkg.tmax.toNat < emergLevel ∨ s.pkg.emergency then none
  else
    let s := (s.updPkg fun p => { p with thmf := 8, emergency := true, tsaved := true }).settleFloors
    let s := { s with
      ao := { s.ao with nsaved := 0 },
      gangs := s.gangs.mapVals fun _ g =>
        if g.resident && g.save.all (fun (o : SaveOp) => !o.started) then { g with save := some { by_ := 3, scalarOnly := false, started := false } } else g }
    some s.hurrySaves

/-- THERMAL_EMERGENCY. -/
def execThermalEmergency (s : State) : Out := s.act (thermalEmergency s)

/-- HARD_TRIP (R345, R346): the main rails go, and with them everything but AOSTAT and what lies outside the package; power that returns
begins a package reset. -/
def hardTrip (s : State) : Option State :=
  if s.pkg.tmax.toNat < tripLevel then none
  else
    let ao := { s.ao with trip := true, qtrip := BitVec.ofNat 32 s.now }
    some { State.reset with
      plan := s.plan, free := s.free, mem := s.mem.filter fun c => outsideByte c.1, ao := ao, out := s.out,
      board := { Board.reset with railsOn := false } }

/-- HARD_TRIP. -/
def execHardTrip (s : State) : Out := s.act (hardTrip s)

/-- PEAK_CLEAR (R342). -/
def peakClear (s : State) : Option State := some (s.updPkg fun p => { p with peak := 0 })
def execPeakClear (s : State) : Out := s.act (peakClear s)

/-- AOSTAT_LOG_CLEAR (R346). -/
def aostatLogClear (s : State) : Option State := some { s with ao := { s.ao with qtrip := 0, nsaved := 0 } }
def execAostatLogClear (s : State) : Out := s.act (aostatLogClear s)

end Sys2Proof.Machine
end

