-- ==== Sys2Proof/Machine/Atomics.lean ====
section
/-! DEFINITION. What an atomic does at its place (R246 to R248), for the atomics of strands, of the host and of the fabric. -/

namespace Sys2Proof.Machine

/-- The value that an atomic of form `xop` writes over `old` on `w` bits (R247, R248); none where a conditional form fails. -/
def amoNew (xop w old r t : Nat) : Option Nat :=
  let o : BitVec w := BitVec.ofNat w old
  let x : BitVec w := BitVec.ofNat w r
  let y : BitVec w := BitVec.ofNat w t
  match xop with
  | 0 => some (o + x).toNat
  | 1 => some (o &&& x).toNat
  | 2 => some (o ||| x).toNat
  | 3 => some (o ^^^ x).toNat
  | 4 => some (if x.slt o then x else o).toNat
  | 5 => some (if o.slt x then x else o).toNat
  | 6 => some (if x < o then x else o).toNat
  | 7 => some (if o < x then x else o).toNat
  | 8 => some x.toNat
  | 9 => if o = y then some x.toNat else none
  | 10 => some (if x ≤ o then 0 else o + 1).toNat
  | 11 => if o.toNat + x.toNat ≤ y.toNat then some (o.toNat + x.toNat) else none
  | 12 => some (o + x).toNat
  | 13 => if o = y then some x.toNat else none
  | 14 => some (if x ≤ o then 0 else o + 1).toNat
  | _ => none

/-- One indivisible read-modify-write of `size` bytes (R246): the old value, and the state; a form that writes is stamped from its port. -/
def State.rmw (s : State) (port : Nat) (writer : Option Nat) (pa size xop r t : Nat) : Nat × State :=
  let old := s.homeLe pa size
  (old, match amoNew xop (8 * size) old r t with
    | some x => s.performBytes port writer (bytesOf pa size x)
    | none => s)

/-- A write from outside a strand can take its place (R245, R252, R269): each of its lines is reserved, so that it is held there, or has an
uncorrectable error, or it is the last write of its bytes there. -/
def State.arriveOpen (s : State) (port : Nat) (bytes : NMap BByte) : Bool :=
  (linesOf bytes).all fun l => s.resv.has l || s.poisoned (l * 64) || s.lastNow port (bytes.filter fun kv => lineOf kv.1 == l)

/-- A write that arrives at its home from outside a strand: a line that a `vsc` has reserved holds it back (R252). -/
def State.arrive (s : State) (port : Nat) (bytes : NMap BByte) : State :=
  (linesOf bytes).foldl (fun (s : State) l =>
    let here := bytes.filter fun kv => lineOf kv.1 == l
    if s.poisoned (l * 64) then s.meetError (l * 64)
    else if s.resv.has l then { s with held := s.held.put l (s.held.getD l [] ++ [{ port := port, bytes := here, item := none }]) }
    else s.performBytes port none here) s

end Sys2Proof.Machine
end

