-- ==== Sys2Proof/Machine/Outside.lean ====
section
/-! DEFINITION. Memory channels, die links, the host port, the scale-up ports, management and bring-up (R348 to R367): what each
happening outside the cores does to the package. -/

namespace Sys2Proof.Machine

/-- HBM_CORRECTED_ERROR (R349): CECNT counts it. -/
def hbmCorrectedError (stack : Nat) (s : State) : Option State :=
  if stack < 8 then some (s.updDie stack fun d => { d with cecnt := satInc d.cecnt }) else none
def execHbmCorrectedError (stack : Nat) (s : State) : Out := s.act (hbmCorrectedError stack s)

/-- HBM_UNCORRECTABLE_ERROR (R349): a line of a stack goes bad; each path that meets it counts it, sets HBMUE, and faults or stops. -/
def hbmUncorrectableError (stack pa : Nat) (s : State) : Option State :=
  if hbmTop ≤ pa ∨ homeDie pa ≠ stack then none
  else
    let l := lineOf pa
    let s := s.updDie stack fun d => { d with poison := if d.poison.contains l then d.poison else l :: d.poison, l2 := d.l2.filter (· != l), slough := d.slough.filter (· != l) }
    some { s with cores := s.cores.mapVals fun _ c => c.dropL1 (· == l) }
def execHbmUncorrectableError (stack pa : Nat) (s : State) : Out := s.act (hbmUncorrectableError stack pa s)

/-- PATROL_SCRUB (R349): what it writes back is what the line holds. -/
def patrolScrub (stack : Nat) (s : State) : Option State := if stack < 8 then some s else none
def execPatrolScrub (stack : Nat) (s : State) : Out := s.act (patrolScrub stack s)

/-- A channel is idle (R350): no request has come to it for 4,096 q. -/
def Die.chanIdle (d : Die) (now c : Nat) : Bool := match d.lastUse.get? c with | some q => q + 4096 ≤ now | none => true
def partner (c : Nat) : Nat := c ^^^ 1

/-- CHANNEL_IDLE_LEND (R350): an idle channel with a busy partner begins to lend. -/
def channelIdleLend (stack c : Nat) (s : State) : Option State :=
  let d := s.die stack
  if 8 ≤ stack ∨ 32 ≤ c ∨ !d.lend ∨ d.lent.getLsbD c ∨ d.lent.getLsbD (partner c) ∨ d.handshake.has c ∨ d.handshake.has (partner c) ∨
     !d.chanIdle s.now c ∨ d.chanIdle s.now (partner c) then none
  else some (s.updDie stack fun d => { d with handshake := d.handshake.put c 1 })
def execChannelIdleLend (stack chan : Nat) (s : State) : Out := s.act (channelIdleLend stack chan s)

/-- The lowest element of a running stream with an access still to make at bytes of some kind (R227, R228): of the strips in its buffer, or of the final writes of
RED = 2. -/
def State.elemTo (s : State) (core : Nat) (st : Stream) (t : Strand) (hit : Nat → Bool) : Option Nat :=
  let d := st.desc
  let by_ (acc va : Nat) : Bool := match (s.streamCheck core st t acc va).1 with | .ok pa => hit pa | .error _ => false
  let src (i : Nat) : Bool := (st.source i).isNone && by_ 0 (d.srcAt i)
  let dst (i : Nat) : Bool := !(d.red == 2 && st.part.has (i % d.strip)) && by_ 1 (d.dstAt i)
  if d.red = 2 ∧ st.done_ = d.n then
    ((List.range (min d.strip d.n)).find? fun e => !st.finals.has e && by_ 1 (d.dstAt e)).map fun _ => d.n
  else (st.strips.flatMap fun x => (List.range d.strip).map (x.t * d.strip + ·)).find? fun i => i < d.n && !st.isWritten i && (src i || dst i)

/-- Accesses of strands and streams that wait for a request to a channel (R350): their bytes are neither in L2 nor in the Slough. -/
def State.asks (s : State) (stack c : Nat) : Bool :=
  let hit (pa : Nat) : Bool := pa < hbmTop && homeDie pa == stack && homeChan pa == c && !(s.die stack).cached (lineOf pa)
  (s.strands.any fun kv =>
    kv.2.items.any (·.writes.any hit) ||
    (kv.2.mq.any fun o => o.op == 5 && o.parts.any fun p => p.bytes.any fun b => (physOf (coreOf kv.1) o.xl b).any hit) ||
    (match kv.2.win with | some w => w.accs.any fun a => a.2.phase == .reading && a.2.segs.any fun g => hit (g * a.2.unit) || hit (g * a.2.unit + a.2.unit - 64) | none => false)) ||
  s.cores.any fun kc => kc.2.streams.any fun ks => ks.2.state == 2 && (s.strand? ks.2.issuer).any fun t => (s.elemTo kc.1 ks.2 t hit).isSome

/-- LEND_HANDSHAKE_DONE (R350): the lanes are lent, unless the pair is idle by then or a request has come; or they have returned. -/
def lendHandshakeDone (stack c : Nat) (s : State) : Option State :=
  let d := s.die stack
  match d.handshake.get? c with
  | none => none
  | some k =>
    let lends : Bool := k == 1 && d.chanIdle s.now c && !d.chanIdle s.now (partner c) && !s.asks stack c
    some (s.updDie stack fun d =>
      { d with handshake := d.handshake.erase c, lent := if lends then d.lent ||| BitVec.ofNat 32 (2 ^ c) else d.lent &&& ~~~BitVec.ofNat 32 (2 ^ c) })
def execLendHandshakeDone (stack chan : Nat) (s : State) : Out := s.act (lendHandshakeDone stack chan s)

/-- LEND_REVERSE (R350, R367): a request for the lending channel, a partner that is idle too, or C4 that waits, takes the lanes back. -/
def lendReverse (stack c : Nat) (s : State) : Option State :=
  let d := s.die stack
  if !d.lent.getLsbD c ∨ d.handshake.has c ∨
     !(!d.chanIdle s.now c || d.chanIdle s.now (partner c) || s.asks stack c || (List.range 8).all fun k => (s.cluster k).state == 3) then none
  else some (s.updDie stack fun d => { d with handshake := d.handshake.put c 2 })
def execLendReverse (stack chan : Nat) (s : State) : Out := s.act (lendReverse stack chan s)

/-- LEND_DISABLE (R350): LEND = 0 forbids lending, and lent lanes begin to return. -/
def lendDisable (stack : Nat) (s : State) : Option State :=
  if 8 ≤ stack then none
  else some (s.updDie stack fun d =>
    { d with lend := false, handshake := (bitsSet 32 d.lent.toNat).foldl (fun m c => NMap.put m c 2) (d.handshake.filter fun kv => kv.2 != 1) })
def execLendDisable (stack : Nat) (s : State) : Out := s.act (lendDisable stack s)

/-- The number that, added to the link which DIE_LINK_LANE_ERROR names, says that lane repair takes the lane's errors (R351, R353, log 114). -/
def repairMark : Nat := 16

/-- DIE_LINK_LANE_ERROR (R353, R354): the errors of a lane persist after lane repair: the link halves its width and retrains, before a relock that begins in the same step, so that a rise of EFF that waits takes effect at once; at one module it is lost, and every strand stops.
With `repairMark`, lane repair replaces a lane. -/
def dieLinkLaneError (l : Nat) (s : State) : Option State :=
  let k := s.link (l % repairMark)
  if 2 * repairMark ≤ l ∨ k.lost ∨ k.retraining then none
  else if repairMark ≤ l then some (s.updLink (l % repairMark) fun k => { k with repaired := true })
  else if k.mods = 1 then
    let s := s.updLink l fun k => { k with lost := true }
    some (s.gangs.foldl (fun (s : State) kv => if kv.2.resident then s.fatal kv.1 kv.2.core 2 0 else s) s)
  else some (((s.updLink l fun k => { k with mods := k.mods >>> 1, repaired := true, retraining := true }).undoRelocks).notify 6).settleFloors
def execDieLinkLaneError (link : Nat) (s : State) : Out := s.act (dieLinkLaneError link s)

/-- LINK_RETRAIN_DONE (R353, R354): the link carries data again; what waited for it follows. -/
def linkRetrainDone (l : Nat) (s : State) : Option State :=
  if (s.link l).retraining then some (s.updLink l fun k => { k with retraining := false }).settleFloors else none
def execLinkRetrainDone (link : Nat) (s : State) : Out := s.act (linkRetrainDone link s)

/-- Whether the host port takes a request: the link is up, bring-up has reached the host phase, and the package is not in C4 (R347, R365). -/
def State.hostOpen (s : State) : Bool := s.out.linkUp && 5 ≤ s.board.phase.toNat && s.board.phase != 0xE && !s.pkg.c4

/-- HOST_ATOMICOP (R278, R355): FetchAdd (0), Swap (1) or CAS (2) on 4 or 8 bytes of BAR2, with its old value returned; its home takes 4 q. -/
def hostAtomicop (op size pa value cmp : Nat) (s : State) : Option State :=
  if 3 ≤ op ∨ (size ≠ 4 ∧ size ≠ 8) ∨ pa % size ≠ 0 ∨ hbmTop ≤ pa ∨ !s.hostOpen ∨ s.resv.has (lineOf pa) ∨ (s.board.reduced ∧ 2 ^ 30 ≤ pa) ∨
     !s.lastNow 64 (bytesOf pa size 0) ∨ !s.linkOpen [pa] then none
  else if s.poisoned pa then some (s.meetError pa)
  else
    let r := (s.l2Work pa 4).rmw 64 none pa size (if op = 0 then 0 else if op = 1 then 8 else 9) value cmp
    some { r.2 with out := { r.2.out with replies := r.1 :: r.2.out.replies } }
def execHostAtomicop (op size addr value cmp : Nat) (s : State) : Out := s.act (hostAtomicop op size addr value cmp s)

/-- HOST_POSTED_WRITE (R245, R269, R347, R353, R366): a write through BAR2 performs at its homes, from port 64, in a quantum in which it is the last write of
its bytes; what lies above 1 GiB is dropped in reduced service. -/
def hostPostedWrite (pa size value : Nat) (s : State) : Option State :=
  let bytes := (bytesOf pa size value).filter fun kv => !(s.board.reduced && 2 ^ 30 ≤ kv.1)
  if hbmTop < pa + size ∨ 4096 < size ∨ !s.hostOpen ∨ !s.linkOpen ((List.range size).map (pa + ·)) ∨ !s.arriveOpen 64 bytes then none
  else some (s.arrive 64 bytes)
def execHostPostedWrite (addr size value : Nat) (s : State) : Out := s.act (hostPostedWrite addr size value s)

/-- HOST_LINK_DOWN (R357). -/
def hostLinkDown (s : State) : Option State :=
  if s.out.linkUp then some ({ s with out := { s.out with linkUp := false } }.notify 3) else none
def execHostLinkDown (s : State) : Out := s.act (hostLinkDown s)

/-- The driver has set AtomicOp Requester Enable or not (R355): the spec gives the choice to the host system, and the model a free value. -/
def State.askAtomicEn (s : State) : State :=
  let u := s.undef 1
  { u.2 with out := { u.2.out with atomicEn := u.1 == 1 } }

/-- HOST_LINK_UP (R357): the package keeps its state. -/
def hostLinkUp (s : State) : Option State := if s.out.linkUp then none else some { s with out := { s.out with linkUp := true } }.askAtomicEn
def execHostLinkUp (s : State) : Out := s.act (hostLinkUp s)

/-- HOSTDN_CLEAR (R357, R364). -/
def hostdnClear (s : State) : Option State := some (s.updBoard fun b => { b with notif := b.notif &&& ~~~8 })
def execHostdnClear (s : State) : Out := s.act (hostdnClear s)

/-- A package reset (R346, R357, R365): everything but AOSTAT, what lies outside, and the model's own fields; bring-up begins. -/
def State.packageResetOf (s : State) : State :=
  let r := { State.reset with plan := s.plan, free := s.free, mem := s.mem.filter fun c => outsideByte c.1, ao := s.ao, out := s.out }
  if s.ao.trip then r.notify 2 else r

/-- PACKAGE_RESET (R365). -/
def packageReset (s : State) : Option State := some s.packageResetOf
def execPackageReset (s : State) : Out := s.act (packageReset s)

/-- HOT_RESET (R357): a hot reset or a Function Level Reset. -/
def hotReset (s : State) : Option State := some s.packageResetOf
def execHotReset (s : State) : Out := s.act (hotReset s)

/-- FIRMWARE_VERIFY_DONE (R365): phase 3, or phase 0xE when the signature fails. -/
def firmwareVerifyDone (ok : Nat) (s : State) : Option State :=
  if s.board.phase ≠ 2 then none
  else some (s.updBoard fun b => if ok = 1 then { b with phase := 3 } else { b with phase := 0xE, failInfo := 2, romOnly := true })
def execFirmwareVerifyDone (ok : Nat) (s : State) : Out := s.act (firmwareVerifyDone ok s)

/-- DIE_LINKS_TRAINED (R365): phase 4, or phase 0xE with the link that failed. -/
def dieLinksTrained (failed : Nat) (s : State) : Option State :=
  if s.board.phase ≠ 3 then none
  else some (s.updBoard fun b => if failed < 16 then { b with phase := 0xE, failInfo := BitVec.ofNat 8 failed } else { b with phase := 4 })
def execDieLinksTrained (failed : Nat) (s : State) : Out := s.act (dieLinksTrained failed s)

/-- HOST_PORT_TRAINED (R365, R366): reduced service begins: cluster 0 at 8 q and the others off (`State.clocked`), the scale-up ports in
training. -/
def hostPortTrained (s : State) : Option State :=
  if s.board.phase ≠ 4 then none
  else
    let s := (s.updBoard fun b => { b with phase := 5, reduced := true }).askAtomicEn
    let s := s.updCluster 0 fun k => { k.setEff s.now (max 8 s.pkg.floor) with floor := 8 }
    some ((List.range 18).foldl (fun (s : State) p =>
      s.updPort p fun x => if x.en ∧ x.state = 0 then { x with state := 1, pending := 2, retraining := true, since := s.now } else x) s)
def execHostPortTrained (s : State) : Out := s.act (hostPortTrained s)

/-- HBM_TRAINED (R365, R366): full service, with cluster 0 stopped at block boundaries for the copy; or phase 0xF with the stack that
failed. -/
def hbmTrained (failed : Nat) (s : State) : Option State :=
  if s.board.phase ≠ 5 then none
  else if failed < 8 then some (s.updBoard fun b => { b with phase := 0xF, failInfo := BitVec.ofNat 8 failed })
  else
    let s := (s.clusterStrands 0).foldl (fun (s : State) kv => s.endBlock kv.1) s
    let s := (List.range 8).foldl (fun (s : State) d => s.updDie d fun x => { x with trained := true, slough := [] }) s
    let s := (s.updBoard fun b => { b with phase := 6, reduced := false }).updCluster 0 fun k => { k with floor := 2 }
    some (s.settleFloors.notify 7)
def execHbmTrained (failed : Nat) (s : State) : Out := s.act (hbmTrained failed s)

/-- CRC-32C (R358), over bytes given as one number, least significant first. -/
def crcBit (c : Nat) : Nat → Nat
  | 0 => c
  | n + 1 => crcBit (if c % 2 = 1 then c / 2 ^^^ 0x82F63B78 else c / 2) n
def crcBytes (x : Nat) : Nat → Nat → Nat
  | 0, c => c
  | n + 1, c => crcBytes (x / 256) n (crcBit (c ^^^ x % 256) 8)
def crc32c (x n : Nat) : Nat := crcBytes x n 0xFFFFFFFF ^^^ 0xFFFFFFFF

/-- The lowest element of a running stream whose access goes by a port, and is not made (R228, R361). -/
def State.portElem (s : State) (core : Nat) (st : Stream) (t : Strand) (p : Nat) : Option Nat := s.elemTo core st t fun pa => s.remotePort pa == some p

/-- The streams with an access under way by a port that is lost stop there with the code remote-lost (R228, R362). -/
def State.loseStreams (s : State) (p : Nat) : State :=
  { s with cores := s.cores.mapVals fun c k => { k with streams := k.streams.mapVals fun _ st =>
      match (if st.state = 2 ∧ st.snap.fabric then (s.strand? st.issuer).bind fun t => s.portElem c st t p else none) with
      | some e => if st.failKind ≠ 0 ∧ st.failAt ≤ e then st else { st with failKind := kRemote, failAt := e }
      | none => st } }

/-- A port is lost (R360): the streams under it stop, its bit leaves every route mask, and PORTLOST is set. -/
def State.losePort (s : State) (p : Nat) : State :=
  if (s.port p).state = 5 then s
  else
    let s := (s.loseStreams p).updPort p fun x => { x with state := 5, pending := 0, retraining := false, unacked := [] }
    (s.updBoard fun b => { b with route := b.route.mapVals fun _ m => m &&& ~~~BitVec.ofNat 18 (2 ^ p) }).notify 4

/-- The flits up to an acknowledged SEQ leave the replay buffer (R359). -/
def dropAcked (l : List (Nat × Nat)) (seq : Nat) : List (Nat × Nat) := if l.any (·.1 == seq) then (l.dropWhile (·.1 != seq)).drop 1 else l
def Port.acked (p : Port) (now seq : Nat) : Port :=
  let l := dropAcked p.unacked seq
  if l.length = p.unacked.length then p else { p with unacked := l, sentAt := now }

/-- The most replays in a row of a flit that the replay buffer holds (R360): a flit counts its own until it is acknowledged. -/
def Port.inRow (p : Port) : Nat := p.unacked.foldl (fun m u => max m u.2) 0

/-- FLIT_RECEIVE (R358, R359): a flit whose CRC fails is discarded and answered with a NAK of the last good SEQ; the expected one is accepted;
any other is discarded. -/
def flitReceive (p flit : Nat) (s : State) : Option State :=
  let x := s.port p
  if 18 ≤ p ∨ !x.up ∨ 2 ^ 2048 ≤ flit then none
  else if crc32c flit 252 ≠ flit / 2 ^ 2016 then some (s.updPort p fun x => { x with naks := (x.expect + 4095) % 4096 :: x.naks })
  else
    let seq := flit % 4096
    some (s.updPort p fun x =>
      let x := x.acked s.now (flit / 4096 % 4096)
      if seq = x.expect then { x with expect := (seq + 1) % 4096, received := flit :: x.received } else x)
def execFlitReceive (port flit : Nat) (s : State) : Out := s.act (flitReceive port flit s)

/-- The sender replays what its buffer holds (R359, R360): REPLAYS counts the flits; a port of which one flit is replayed the 64th time in a
row is lost. -/
def State.replay (s : State) (p : Nat) : State :=
  let x := s.port p
  if x.unacked.isEmpty then s
  else if 63 ≤ x.inRow then s.losePort p
  else s.updPort p fun x =>
    { x with unacked := x.unacked.map fun u => (u.1, u.2 + 1), sentAt := s.now,
             replays := BitVec.ofNat 32 (min (2 ^ 32 - 1) (x.replays.toNat + x.unacked.length)) }

/-- FLIT_NAK_REPLAY (R359): a NAK that carries the last good SEQ. -/
def flitNakReplay (p good : Nat) (s : State) : Option State :=
  if 18 ≤ p ∨ !(s.port p).up then none else some ((s.updPort p (·.acked s.now good)).replay p)
def execFlitNakReplay (port good : Nat) (s : State) : Out := s.act (flitNakReplay port good s)

/-- FLIT_REPLAY_TIMEOUT (R359): 8,192 q without an acknowledgement. -/
def flitReplayTimeout (p : Nat) (s : State) : Option State :=
  let x := s.port p
  if !x.up ∨ x.unacked.isEmpty ∨ s.now < x.sentAt + 8192 then none else some (s.replay p)
def execFlitReplayTimeout (port : Nat) (s : State) : Out := s.act (flitReplayTimeout port s)

/-- LANE_ERROR_INTERVAL (R360): the first failing lane is replaced by the spare, a second reduces the port to four lanes, a third loses it. -/
def laneErrorInterval (p lane : Nat) (s : State) : Option State :=
  let x := s.port p
  if 18 ≤ p ∨ 9 ≤ lane ∨ !x.up then none
  else if x.state = 4 then some (s.losePort p)
  else if x.state = 3 then some (s.updPort p fun x => { x with state := 1, pending := 4, retraining := true, since := s.now })
  else some (s.updPort p fun x => { x with state := 1, pending := 3, retraining := true, since := s.now, badLane := BitVec.ofNat 4 lane })
def execLaneErrorInterval (port lane : Nat) (s : State) : Out := s.act (laneErrorInterval port lane s)

/-- PORT_RETRAIN_DONE (R360, R365): a port enters the state it trained for; a first training learns the peer's number, which the spec gives
no value (log 3). -/
def portRetrainDone (p : Nat) (s : State) : Option State :=
  let x := s.port p
  if !x.retraining then none
  else
    let u := s.undef 8
    if x.pending = 2 then some (u.2.updPort p fun x => { x with state := 2, pending := 0, retraining := false, peer := BitVec.ofNat 8 u.1 })
    else some (s.updPort p fun x => { x with state := x.pending, pending := 0, retraining := false })
def execPortRetrainDone (port : Nat) (s : State) : Out := s.act (portRetrainDone port s)

/-- PORT_TRAINING_TIMEOUT (R360): training has failed for 100 ms. -/
def portTrainingTimeout (p : Nat) (s : State) : Option State := if (s.port p).retraining ∧ (s.port p).since + 800000000 ≤ s.now then some (s.losePort p) else none
def execPortTrainingTimeout (port : Nat) (s : State) : Out := s.act (portTrainingTimeout port s)

/-- PORT_DISABLE (R364): a write of EN = 0 makes the port lost. -/
def portDisable (p : Nat) (s : State) : Option State :=
  if p < 18 then some ((s.updPort p fun x => { x with en := false }).losePort p) else none
def execPortDisable (port : Nat) (s : State) : Out := s.act (portDisable port s)

/-- FABRIC_ACCESS_ARRIVAL (R361): an access of another device, a read (kind 0), a write (1) or an atomic (2 + XOP, with r and t in `value`),
performs at FXBASE + o from port 65 + p, a write when it is the last of its bytes (R269), an atomic in a step of 4 q of its home (R278), and is refused at or above FXSIZE. -/
def fabricAccessArrival (p kind size o value : Nat) (s : State) : Option State :=
  let pa := s.board.fxbase.toNat + o
  let reply (s : State) (x : Nat) : Option State := some { s with out := { s.out with replies := x :: s.out.replies } }
  if 18 ≤ p ∨ !(s.port p).up ∨ !s.linkOpen [pa] ∨ s.board.phase ≠ 6 ∨ s.pkg.c4 ∨ 17 ≤ kind ∨ size = 0 ∨ 64 < size ∨ (2 ≤ kind ∧ size ≠ (if 14 ≤ kind then 4 else 8)) ∨ o % 64 + size > 64 then none
  else if s.board.fxsize.toNat ≤ o ∨ hbmTop < pa + size then reply s (2 ^ 512)
  else if kind = 1 then (if s.arriveOpen (65 + p) (bytesOf pa size value) then some (s.arrive (65 + p) (bytesOf pa size value)) else none)
  else if s.poisoned pa then reply (s.meetError pa) (2 ^ 512)
  else if kind = 0 then reply s (s.homeLe pa size)
  else if s.resv.has (lineOf pa) || !s.lastNow (65 + p) (bytesOf pa size 0) then none
  else
    let r := (s.l2Work pa 4).rmw (65 + p) none pa size (kind - 2) (value % 2 ^ 64) (value / 2 ^ 64)
    reply r.2 r.1
def execFabricAccessArrival (port kind size offset value : Nat) (s : State) : Out := s.act (fabricAccessArrival port kind size offset value s)

/-- MCTP_MESSAGE (R363, R365): the Carr cluster answers, with an answer the spec does not give (log 3); in ROM after a failed verification it
takes a new image, whose signature is then checked. -/
def mctpMessage (message : Nat) (s : State) : Option State :=
  if s.board.romOnly ∧ message ≠ 0 then some (s.updBoard fun b => { b with phase := 2, failInfo := 0, romOnly := false })
  else
    let u := s.undef 64
    some { u.2 with out := { u.2.out with replies := u.1 :: u.2.out.replies } }
def execMctpMessage (message : Nat) (s : State) : Out := s.act (mctpMessage message s)

/-- REFERENCE_CLOCK_LOSS and REFERENCE_CLOCK_RETURN (R283): `qtime` runs on; the loss is a clock event. -/
def referenceClockLoss (s : State) : Option State := if s.board.refClock then some ((s.updBoard fun b => { b with refClock := false }).notify 0) else none
def execReferenceClockLoss (s : State) : Out := s.act (referenceClockLoss s)
def referenceClockReturn (s : State) : Option State := if s.board.refClock then none else some (s.updBoard fun b => { b with refClock := true })
def execReferenceClockReturn (s : State) : Out := s.act (referenceClockReturn s)

/-- MARGIN_WARNING (R283). -/
def marginWarning (s : State) : Option State := some (s.notify 1)
def execMarginWarning (s : State) : Out := s.act (marginWarning s)

end Sys2Proof.Machine
end

