-- ==== Sys2Proof/Machine/RegWrite.lean ====
section
/-! DEFINITION. Writes to device control space (R368): which bytes of a register's dword they change, and what the registers do when they
are written (R302, R303, R315, R338 to R346, R364). -/

namespace Sys2Proof.Machine

/-- A write to one dword: the first byte covered, how many, and the value in place, zero elsewhere. -/
structure RegW where
  lo : Nat
  n : Nat
  v : Nat
  deriving DecidableEq, Repr, Inhabited

/-- The write covers a byte of the field at bits [hi:lo] (R368). -/
def RegW.covers (w : RegW) (lo hi : Nat) : Bool := w.lo ≤ hi / 8 && lo / 8 < w.lo + w.n

/-- The dword after the write: the covered bytes change (R368). -/
def RegW.over (w : RegW) (old : Nat) : Nat := setBits old (8 * w.lo) (8 * w.n) (w.v >>> (8 * w.lo))

/-- A bit written as 1 (R7, R368). -/
def RegW.bit (w : RegW) (k : Nat) : Bool := w.v.testBit k

/-- A value put within bounds (R302, R315, R342, R344). -/
def clampTo (lo hi x : Nat) : Nat := max lo (min hi x)

/-- A core's block (R302). -/
def State.coreWrite (s : State) (core off : Nat) (w : RegW) : State :=
  match off with
  | 0x08 => if w.covers 8 9 then s.resume core (w.v % 8) (getBits w.v 8 2) else s
  | 0x10 => s.updCore core fun c => { c with resumePc := BitVec.ofNat 64 (w.over c.resumePc.toNat) }
  | _ => s

/-- A ring's registers (R302). -/
def State.ringWrite (s : State) (k off : Nat) (w : RegW) : State :=
  let x := w.over (s.ringDword k off)
  let put (r : Ring) : State := { s with rings := s.rings.put k r }
  let r := s.ring k
  match off with
  | 0x00 => put { r with rbase := BitVec.ofNat 64 x }
  | 0x08 => put { r with vec := BitVec.ofNat 11 (getBits x 16 11), en := x.testBit 8, rsize := if w.covers 0 4 then BitVec.ofNat 5 (clampTo 4 16 (x % 32)) else r.rsize }
  | 0x18 => put { r with rtail := BitVec.ofNat 32 x }
  | _ => s

/-- A host queue's registers (R315, R316): a change of EN or of the ring has the dispatcher read the head anew. -/
def State.queueWrite (s : State) (q off : Nat) (w : RegW) : State :=
  let x := w.over (s.queueDword q off)
  match off with
  | 0x00 => if (s.queue q).qbase = BitVec.ofNat 64 x then s else (s.updQueue q fun h => { h with qbase := BitVec.ofNat 64 x }).dropHead q
  | 0x08 =>
    let h := s.queue q
    let size := if w.covers 0 4 then BitVec.ofNat 5 (clampTo 4 16 (x % 32)) else h.qsize
    let s' := s.updQueue q fun h => { h with vec := BitVec.ofNat 11 (getBits x 16 11), cie := x.testBit 9, en := x.testBit 8, qsize := size }
    if h.en = x.testBit 8 ∧ h.qsize = size then s' else s'.dropHead q
  | 0x10 => if w.covers 0 31 then s.writeQwr q (BitVec.ofNat 32 x) else s
  | 0x20 => s.updQueue q fun h => { h with ovr := h.ovr && !w.bit 1, bad := h.bad && !w.bit 0 }
  | _ => s

/-- The package registers (R342, R344, R346). -/
def State.pkgWrite (s : State) (off : Nat) (w : RegW) : State :=
  let x := w.over (s.pkgDword off)
  match off with
  | 0x00 => s.updPkg fun p => { p with pltr := BitVec.ofNat 32 x }
  | 0x10 => s.updPkg fun p => { p with capEn := x.testBit 16, cap := if w.covers 0 15 then BitVec.ofNat 16 (clampTo 700 1800 (x % 2 ^ 16)) else p.cap }
  | 0x18 => s.updPkg fun p => { p with win := BitVec.ofNat 16 x }
  | 0x20 => if w.bit 32 then s.updPkg fun p => { p with peak := 0 } else s
  | 0x30 => s.updPkg fun p => { p with tsaved := p.tsaved && !w.bit 5, limit := p.limit && !w.bit 2, unmet := p.unmet && !w.bit 1 }
  | 0x40 => s.updPkg fun p => { p with warn := if w.covers 0 7 then BitVec.ofNat 8 (clampTo 70 100 (x % 2 ^ 8)) else p.warn }
  | 0x80 =>
    let a := s.ao
    let a := { a with refused := a.refused && !w.bit 3, vlost := a.vlost && !w.bit 2, esave := a.esave && !w.bit 1, trip := a.trip && !w.bit 0 }
    { s with ao := if w.bit 4 then { a with qtrip := 0, nsaved := 0 } else a }
  | _ => s

/-- A cluster's registers (R338 to R340). -/
def State.clusterWrite (s : State) (k off : Nat) (w : RegW) : State :=
  match off with
  | 0x00 => s.updCluster k fun c => { c with cltr := BitVec.ofNat 32 (w.over c.cltr.toNat) }
  | 0x10 =>
    let x := w.over (s.clusterDword k 0x10)
    let mode := if getBits x 1 2 = 3 then (s.cluster k).mode.toNat else getBits x 1 2
    let s := s.updCluster k fun c => { c with force := x.testBit 8, target := BitVec.ofNat 2 (x / 16) }
    if x.testBit 0 then s.quiesce k mode else (s.unquiesce k).updCluster k fun c => { c with mode := BitVec.ofNat 2 mode }
  | 0x18 => if w.bit 0 then s.unquiesce k else s
  | _ => s

/-- The registers of R364. -/
def State.edgeWrite (s : State) (off : Nat) (w : RegW) : State :=
  let x := w.over (s.edgeDword off)
  if off < 0x200 then
    if off % 0x40 = 0x08 then
      if x.testBit 32 then s.updDie (off / 0x40) fun d => { d with lend := true } else (lendDisable (off / 0x40) s).getD s
    else s
  else if off = 0x1000 then s.updBoard fun b => { b with taddr := BitVec.ofNat 64 x }
  else if off = 0x1008 then
    let s := s.updBoard fun b => { b with tasid := BitVec.ofNat 16 (x / 2 ^ 16), tkind := BitVec.ofNat 2 x }
    if w.bit 2 then s.startInv else s
  else if off = 0x1100 then s.updBoard fun b => { b with notif := b.notif &&& ~~~BitVec.ofNat 8 w.v }
  else if off = 0x1108 then s.updBoard fun b => { b with msiEn := x.testBit 16, nvec := BitVec.ofNat 11 x }
  else if 0x2000 ≤ off ∧ off < 0x2480 then
    let p := (off - 0x2000) / 0x40
    if off % 0x40 = 0x08 then (if x.testBit 0 then s.updPort p fun y => { y with en := true } else (portDisable p s).getD s) else s
  else if off = 0x3000 then s.updBoard fun b => { b with devnum := BitVec.ofNat 8 x }
  else if off = 0x3008 then s.updBoard fun b => { b with fxbase := BitVec.ofNat 64 x }
  else if off = 0x3010 then s.updBoard fun b => { b with fxsize := BitVec.ofNat 39 x }
  else if 0x3800 ≤ off ∧ off < 0x4000 then s.updBoard fun b => { b with route := b.route.put ((off - 0x3800) / 8) (BitVec.ofNat 18 x) }
  else s

/-- A write to the dword at an offset of device control space; one in no listed register is ignored (R368). -/
def State.devWrite (s : State) (off : Nat) (w : RegW) : State :=
  if 0x100000 ≤ off ∧ off < 0x120000 then s.coreWrite ((off - 0x100000) / 0x1000) (off % 0x1000) w
  else if off = 0x200000 then { s with trtbase := BitVec.ofNat 64 (w.over s.trtbase.toNat) }
  else if 0x201000 ≤ off ∧ off < 0x203000 then s.ringWrite ((off - 0x201000) / 0x20) (off % 0x20) w
  else if 0x300000 ≤ off ∧ off < 0x301000 then s.queueWrite ((off - 0x300000) / 0x40) (off % 0x40) w
  else if off = 0x301000 then
    let x := w.over (s.disp.rcltmo.toNat * 2 ^ 32 + s.disp.pwait.toNat)
    s.updDisp fun d => { d with rcltmo := BitVec.ofNat 32 (x / 2 ^ 32), pwait := BitVec.ofNat 32 x }
  else if 0x400000 ≤ off ∧ off < 0x401000 then s.pkgWrite (off - 0x400000) w
  else if 0x401000 ≤ off ∧ off < 0x401800 then s.clusterWrite ((off - 0x401000) / 0x100) (off % 0x100) w
  else if 0x500000 ≤ off ∧ off < 0x600000 then s.edgeWrite (off - 0x500000) w
  else if 0x2000000 ≤ off ∧ off < 0x2008000 then
    let k := (off - 0x2000000) / 8
    s.updBoard fun b => { b with msixTable := b.msixTable.put k (BitVec.ofNat 64 (w.over (b.msixTable.getD k 0).toNat)) }
  else s

/-- An accepted write to device control space (R368): 1, 2, 4 or 8 bytes, naturally aligned. -/
def State.regWrite (s : State) (pa size value : Nat) : State :=
  let off := pa - devBase
  let lo := off % 8
  s.devWrite (off - lo) { lo := lo, n := size, v := (value % 2 ^ (8 * size)) <<< (8 * lo) }

/-- REGISTER_WRITE (R368). -/
def registerWrite (pa size value : Nat) (s : State) : Option State :=
  if placeOf pa ≠ .device ∨ (size ≠ 1 ∧ size ≠ 2 ∧ size ≠ 4 ∧ size ≠ 8) ∨ pa % size ≠ 0 then none else some (s.regWrite pa size value)

/-- REGISTER_WRITE. -/
def execRegisterWrite (addr size value : Nat) (s : State) : Out := s.act (registerWrite addr size value s)

end Sys2Proof.Machine
end

