-- ==== Sys2Proof/Machine/Perform.lean ====
section
/-! DEFINITION. The committed memory operations perform (R104, R106, R192, R242, R245, R246, R252, R254, R255): at their place, in the order that
the strand's fences and its interlock leave, each stamped there. -/

namespace Sys2Proof.Machine

/-- A write that the slices of a core send, and not its front end. -/
def PKind.vec : PKind → Bool
  | .store segs _ _ _ => match segs with | [g] => 8 < g.bytes.length | _ => true
  | .atomic _ _ _ _ _ _ _ _ _ => false
  | _ => true

/-- What R193 says of the dies of a unit-stride store. -/
def PKind.route : PKind → Option Nat
  | .store segs _ _ _ => segs.head?.bind (·.route)
  | _ => none

/-- An item of a strand that has crossed to its place, and whose bytes nothing of the strand that comes first still holds (R231, R242, R263,
R280, R350). -/
def State.itemOpen (s : State) (core : Nat) (t : Strand) (q : Nat) (vas pas : List Nat) : Bool :=
  (t.items.find? (·.q == q)).all (fun i => s.crossedTo i.kind.vec i.sent pas i.kind.route) && fencesAllow false [] t.items q && !itemsHold t q true vas pas &&
  !lockHolds (s.core core) t q true vas && pas.all s.chanOpen && s.spotFree (pas.headD 0)

/-- Whether another strand's `vsc` has reserved a line of some bytes (R252). -/
def State.heldLine (s : State) (sid : Nat) (bytes : NMap BByte) : Option Nat :=
  (linesOf bytes).find? fun l => match s.resv.get? l with | some o => o != sid | none => false

/-- A write to scratchpad offsets of an open window makes its copies undefined (R253): a free value stands for them. -/
def State.smearCopies (s : State) (core : Nat) (bytes : NMap BByte) : State :=
  match (s.core core).accWin with
  | some x =>
    let lo := spPhys core 0
    if bytes.any fun kv => lo ≤ kv.1 && kv.1 < lo + 64 * roundUp256 (winLen x.desc) then
      { (s.updCore core fun c => { c with accWin := some { x with copies := [], undef := some s.free } }) with free := s.free + 1 }
    else s
  | none => s

/-- A `vsc` element has performed (R252, R278), in a step of 4 q: the reservation of its line ends, unless another element of the strand still has it. -/
def State.releaseLine (s : State) (sid : Nat) (bytes : NMap BByte) : State :=
  match s.strand? sid with
  | none => s
  | some t =>
    let still := (t.items.flatMap fun i => match i.kind with | .store segs _ _ true => segs.flatMap fun g => linesOf g.bytes | _ => []) ++
      (match t.win with | some w => w.resv | none => [])
    let s := s.l2Work (bytes.headD (0, default)).1 4
    { s with resv := s.resv.filter fun kv => kv.2 != sid || !(linesOf bytes).contains kv.1 || still.contains kv.1 }

/-- The bytes of a scalar write as a number. -/
def numOf (bytes : NMap BByte) : Nat := (bytes.map fun kv => kv.2.val.toNat).foldr (fun b x => b + 256 * x) 0

/-- The effect of a segment of a store at its place, and its stamp (R104 to R106, R245, R349, R357): at a register block, at the host port,
where a link that is down discards it, at its home or its scratchpad bank. -/
def State.placeBytes (s : State) (sid gang : Nat) (bytes : NMap BByte) : Nat × State :=
  let core := coreOf sid
  let pa := (bytes.headD (0, default)).1
  match placeOf pa with
  | .device => (s.now, s.regWrite pa bytes.length (numOf bytes))
  | .host => (s.now, if s.hostDown then s else s.performBytes core (some sid) bytes)
  | _ =>
    match bytes.find? fun kv => s.poisoned kv.1 with
    | some kv => (s.stampAt pa, (s.meetError kv.1).fatal gang core 2 kv.1)
    | none => (s.stampAt pa, ((s.useSpot pa).performBytes core (some sid) bytes).smearCopies core bytes)

/-- A segment of a store has performed: it leaves its item, a stamp is on its way back, a `vsc` line is released. -/
def State.segDone (s : State) (sid q k stamp : Nat) : State :=
  match s.strand? sid with
  | none => s
  | some t =>
    match t.items.find? (·.q == q) with
    | some ⟨_, .store segs ordered reg sc, _, _⟩ =>
      let rest := segs.eraseIdx k
      let t' := if rest.isEmpty then t.dropItem q else t.setItem q (.store rest ordered reg sc)
      let s' := s.updStrand sid fun _ => t'.answer s.now reg q (BitVec.ofNat 64 stamp) (match segs[k]? with | some g => (g.bytes.headD (0, default)).1 | none => 0)
      match segs[k]? with
      | some g => if sc then s'.releaseLine sid g.bytes else s'
      | none => s'
    | _ => s

/-- The virtual bytes of a segment of a store. -/
def SegW.vas (g : SegW) : List Nat := g.bytes.map fun kv => (g.va + (kv.1 - (g.bytes.headD (0, default)).1)) % 2 ^ 64

/-- STORE_PERFORM (R104, R192, R245, R252, R263): the k-th segment still to perform of a committed store, in a quantum in which it is the last write of
its bytes; one whose line another strand has reserved is
held at its home. -/
def storePerform (sid q k : Nat) (s : State) : Option State :=
  match s.strand? sid with
  | none => none
  | some t =>
    match t.items.find? (·.q == q) with
    | some ⟨_, .store segs ordered _ _, _, _⟩ =>
      match segs[k]? with
      | none => none
      | some g =>
        if g.held ∨ (ordered ∧ k ≠ 0) ∨ !s.itemOpen (coreOf sid) t q g.vas g.bytes.keys ∨ !s.lastNow (coreOf sid) g.bytes then none
        else
          match s.heldLine sid g.bytes with
          | some l =>
            let s' := s.updStrand sid fun t => t.setItem q (.store (segs.set k { g with held := true }) ordered
              (match t.items.find? (·.q == q) with | some ⟨_, .store _ _ r _, _, _⟩ => r | _ => none)
              (match t.items.find? (·.q == q) with | some ⟨_, .store _ _ _ c, _, _⟩ => c | _ => false))
            some { s' with held := s'.held.put l (s'.held.getD l [] ++ [{ port := coreOf sid, bytes := g.bytes, item := some (sid, q, 0) }]) }
          | none =>
            let r := s.placeBytes sid t.gang g.bytes
            some (r.2.segDone sid q k r.1)
    | _ => none

/-- STORE_PERFORM. -/
def execStorePerform (sid item seg : Nat) (s : State) : Out := s.act (storePerform sid item seg s)

/-- The place of a held segment in its item. -/
def Strand.heldSeg (t : Strand) (q : Nat) (bytes : NMap BByte) : Option Nat :=
  match t.items.find? (·.q == q) with
  | some ⟨_, .store segs _ _ _, _, _⟩ => (List.range segs.length).find? fun k => match segs[k]? with | some g => g.held && g.bytes == bytes | none => false
  | _ => none

/-- Every write on the lines of some bytes has an earlier stamp: what a write that a `vsc` element has held needs (R245). Their place can accept it, with
its clock running (R280, R282). -/
def State.laterNow (s : State) (bytes : NMap BByte) : Bool :=
  match bytes with
  | [] => true
  | (pa, _) :: _ => s.homeFree pa && s.spotFree pa && s.marks.all fun kv => !(bytes.any fun b => lineOf b.1 == lineOf kv.1) || kv.2.stamp < s.stampAt pa

/-- HELD_WRITE_RELEASE (R245, R252, R329): the first write held at a line performs once nothing holds the line, with a stamp later than that of the
element that held it; one that touches another reserved line goes on waiting there. The MSI-X of a completion record follows it. -/
def heldWriteRelease (line : Nat) (s : State) : Option State :=
  match s.held.get? line with
  | none => none
  | some [] => some { s with held := s.held.erase line }
  | some (h :: rest) =>
    let owner := match h.item with | some (sid, _, _) => sid | none => 256
    let s' := { s with held := if rest.isEmpty then s.held.erase line else s.held.put line rest }
    match s.heldLine owner h.bytes with
    | some l => if l = line then none else some { s' with held := s'.held.put l (s'.held.getD l [] ++ [h]) }
    | none =>
      if !s.laterNow h.bytes then none
      else
        match h.item with
        | none =>
          let lost : Bool := s.hostDown && h.bytes.any fun kv => placeOf kv.1 == .host
          some ((if lost then s' else s'.arrive h.port h.bytes).doneMsix h.src)
        | some (sid, q, _) =>
          match s.strand? sid with
          | none => some s'
          | some t =>
            match t.heldSeg q h.bytes with
            | none => some s'
            | some k => let r := s'.placeBytes sid t.gang h.bytes; some (r.2.segDone sid q k r.1)

/-- HELD_WRITE_RELEASE. -/
def execHeldWriteRelease (line : Nat) (s : State) : Out := s.act (heldWriteRelease line s)

/-- A value that has come back is accepted by the front end and written to its register (R106, R246, R276, R280). -/
def State.valueBack (s : State) (sid reg : Nat) (old : Bool) : Option State :=
  match s.strand? sid with
  | none => none
  | some t =>
    match t.pend.get? reg with
    | some ⟨_, o, some x, sent, place⟩ =>
      if o = old ∧ s.crossedTo false sent [place] ∧ s.feOpen (coreOf sid) then
        some ((s.updStrand sid fun t => { t.setReg reg x with pend := t.pend.erase reg }).wakeFe (coreOf sid))
      else none
    | _ => none

/-- STAMP_RETURN (R106). -/
def stampReturn (sid reg : Nat) (s : State) : Option State := s.valueBack sid reg false
def execStampReturn (sid reg : Nat) (s : State) : Out := s.act (stampReturn sid reg s)

/-- ATOMIC_OLD_VALUE_RETURN (R246). -/
def atomicOldValueReturn (sid reg : Nat) (s : State) : Option State := s.valueBack sid reg true
def execAtomicOldValueReturn (sid reg : Nat) (s : State) : Out := s.act (atomicOldValueReturn sid reg s)

/-- An operation to another device goes out by its port (R359, R361): whether it can leave, and the state when it has. -/
def State.portReady (s : State) (port : Option Nat) (pa : Nat) : Bool :=
  match port with
  | some p => (s.port p).up && (s.port p).unacked.length < 64
  | none => placeOf pa != .fabric
def State.sendBy (s : State) (port : Option Nat) : State := match port with | some p => s.updPort p (·.send s.now) | none => s

/-- The line of an atomic in its core's L1 (R246, R264): at MEET 0 the core takes it exclusively, with the bytes that its home holds; an atomic that
performs elsewhere leaves no older bytes there. The update takes its home 4 q (R278). -/
def State.takeLine (s : State) (core : Nat) (meet : BitVec 2) (pa : Nat) : State :=
  let l := lineOf pa
  let s := s.l2Work pa 4
  if meet = 0 then { s with cores := s.cores.mapVals fun c k => if c = core then k else k.dropL1 (· == l) }.fillL1 core [l]
  else s.updCore core (·.dropL1 (· == l))

/-- ATOMIC_PERFORM (R246 to R249, R253, R269, R361): one indivisible read-modify-write at its place, whose write follows just the one that it reads; one
that stores nothing leaves a window's copies alone. What the strand has kept of the bytes follows (R263, R264). -/
def atomicPerform (sid q : Nat) (s : State) : Option State :=
  let core := coreOf sid
  match s.strand? sid with
  | none => none
  | some t =>
    match t.items.find? (·.q == q) with
    | some ⟨_, .atomic xop size pa va r x reg sn _, _, port⟩ =>
      if !s.itemOpen core t q ((List.range size).map (va + ·)) ((List.range size).map (pa + ·)) then none
      else
        match s.target pa with
        | none => none
        | some tgt =>
          if (s.heldLine sid (bytesOf tgt size 0)).isSome ∨ !s.portReady port tgt ∨ !s.lastNow core (bytesOf tgt size 0) then none
          else if placeOf tgt = .host ∧ s.hostDown then some (s.atomicLost sid q t.gang tgt reg)
          else if s.poisoned tgt then some ((s.meetError tgt).atomicLost sid q t.gang tgt reg)
          else
            let a := (s.sendBy port).rmw core (some sid) tgt size xop r.toNat x.toNat
            let writes := (amoNew xop (8 * size) a.1 r.toNat x.toNat).isSome
            let u := if writes then a.2.smearCopies core (bytesOf tgt size 0) else a.2
            some ((((u.useSpot tgt).takeLine core sn.meet tgt).updStrand sid fun t => (t.dropItem q).answer s.now reg q (BitVec.ofNat 64 a.1) tgt).saw sid q
              ((List.range size).map (tgt + ·)))
    | _ => none

/-- ATOMIC_PERFORM. -/
def execAtomicPerform (sid item : Nat) (s : State) : Out := s.act (atomicPerform sid item s)

/-- `copy OP x` on exact values, put to the window's format (R128, R153, R254): the bits and the events. A float value goes to an integer window as R128
converts it: a sum, or, under min and max, one of the two. -/
def winPut (d : Dword) (mode : Mode) (sat : Bool) (draw old : Nat) (src : Fmt) (x : Nat) : Nat × Nat :=
  let f := winFmt d
  let a := elemValue f old 0
  let b := elemValue src x 0
  let one (y : XV) : Nat × Nat := let r := convert src f mode sat draw y; (r.1, r.2 ||| sigInv [a, b])
  match winOp d with
  | 3 =>
    let c : Nat × Nat := if src.isFlt then convert src f mode sat draw b else (x, 0)
    let n : Int := match (if src.isFlt then elemValue f c.1 0 else b).exactInt with | some n => n | none => 0
    let o : Int := match a.exactInt with | some n => n | none => 0
    let r := putInt f.signed f.width sat (sintOf 128 (bitsOfInt 128 o ||| bitsOfInt 128 n))
    (r.1, r.2 ||| c.2)
  | 1 => one (a.minNum b)
  | 2 => one (a.maxNum b)
  | _ => let r := one (a.add (mode == 2) b); (r.1, r.2 ||| (if a.addInvalid b then fINV else 0))

/-- An element of a copy written: what equals the identity is not listed. -/
def AccWin.setCopy (x : AccWin) (g i v : Nat) : AccWin := { x with copies := x.copies.put (32768 * g + i) v }

/-- A window that has closed goes once no operation works on it (R255). -/
def State.settleWindow (s : State) (core gang : Nat) : State :=
  if s.windowBusy gang then s
  else s.updCore core fun c => match c.accWin with | some x => if x.closed && x.gang == gang then { c with accWin := none } else c | none => c

/-- A `vacc`, and a `vamerge`, that a strand of the gang committed before (R255). -/
def State.vaccBefore (s : State) (gang q : Nat) : Bool :=
  s.strands.any fun kv => kv.2.gang == gang && kv.2.items.any fun i => i.q < q && (match i.kind with | .vacc _ => true | _ => false)
def State.mergeBefore (s : State) (gang q : Nat) : Bool :=
  s.strands.any fun kv => kv.2.gang == gang && kv.2.items.any fun i => i.q < q && (match i.kind with | .vamerge _ _ _ _ => true | _ => false)

/-- VACC_UPDATE_PERFORM (R254, R255): the update of one element, after those of the strand that came before it on the same element of the same copy,
and after the folds of every `vamerge` that a strand of the gang committed before, when the copy's bank can accept it (R195, R280); its events go to `mstat`. -/
def vaccUpdatePerform (sid q elem : Nat) (s : State) : Option State :=
  let core := coreOf sid
  match s.strand? sid with
  | none => none
  | some t =>
    match t.items.find? (·.q == q) with
    | some ⟨_, .vacc ups, sent, _⟩ =>
      match ups.find? (·.elem == elem), (s.core core).accWin with
      | some u, some x =>
        if !s.bankFree core u.group then none else
        let same (v : VUpdate) : Bool := v.group == u.group && v.index == u.index
        let waits := (ups.any fun v => v.elem < elem && same v) ||
          t.items.any fun i => i.q < q && (match i.kind with | .vacc l => l.any same | _ => false)
        if x.gang ≠ t.gang ∨ waits ∨ s.mergeBefore t.gang q ∨ !s.crossed sent ∨ !fencesAllow false [] t.items q then none
        else
          let r := winPut x.desc (fwFrnd u.fw) (fwSat u.fw) u.draw (x.copy u.group u.index) (fmtOf (fwSrc1 u.fw)) u.bits
          let rest := ups.filter (·.elem != elem)
          let s' := ((s.useBank core u.group).updCore core fun c => { c with accWin := some (x.setCopy u.group u.index r.1) }).updStrand sid fun t =>
            { (if rest.isEmpty then t.dropItem q else t.setItem q (.vacc rest)) with mstat := t.mstat ||| BitVec.ofNat 6 r.2 }
          some (s'.settleWindow core t.gang)
      | _, _ => if ups.isEmpty then some ((s.updStrand sid fun t => t.dropItem q).settleWindow core t.gang) else none
    | _ => none

/-- VACC_UPDATE_PERFORM. -/
def execVaccUpdatePerform (sid item elem : Nat) (s : State) : Out := s.act (vaccUpdatePerform sid item elem s)

/-- M OP copy (R255): floats round under RNE, integer sums wrap. -/
def foldPut (d : Dword) (old v : Nat) : Nat := (winPut d 0 false 0 old (winFmt d) v).1

/-- The banks of a core send the 64 copies of the element that a `vamerge` folds next (R195, R255, R280). -/
def State.sendCopies (s : State) (core sid q next : Nat) (x : AccWin) : State :=
  (((List.range 64).foldl (fun (s : State) g => s.useBank core g) s).updCore core fun c =>
    { c with accWin := some { x with out := x.out.put q ((List.range 64).map fun g => x.copy g (next / 64)) } }).updStrand sid fun t =>
      { t with items := t.items.map fun i => if i.q = q then { i with sent := s.now } else i }

/-- VAMERGE_FOLD (R255, R278, R280), after every `vacc` and `vamerge` that a strand of the gang committed before: the banks send the copies of an element, when
each can; then, once they have crossed to the element's home, one fold of
one copy into it, in ascending element and lane group, which takes the home 4 q; after the last the copies return to the identity. -/
def vamergeFold (sid q : Nat) (s : State) : Option State :=
  let core := coreOf sid
  match s.strand? sid with
  | none => none
  | some t =>
    match t.items.find? (·.q == q), (s.core core).accWin with
    | some ⟨_, .vamerge base desc xl next, sent, _⟩, some x =>
      let d : Dword := BitVec.ofNat 64 desc
      let cb := winCb d
      let va := base + next / 64 * cb
      let vas := (List.range cb).map (va + ·)
      let pas := vas.filterMap (physOf core xl)
      let pa := pas.headD 0
      let gone (s : State) : State :=
        ((s.updCore core fun c => { c with accWin := some { x with copies := [], undef := none, out := x.out.erase q } }).updStrand sid fun t => t.dropItem q).settleWindow core t.gang
      if s.vaccBefore t.gang q ∨ s.mergeBefore t.gang q ∨ !((t.lock.take 16).any fun e => e.item == q) then none
      else
        match x.out.get? q with
        | none => if s.crossed sent ∧ (List.range 64).all (s.bankFree core) then some (s.sendCopies core sid q next x) else none
        | some vals =>
          if pas.length ≠ cb ∨ !s.itemOpen core t q vas pas ∨ (s.heldLine sid (bytesOf pa cb 0)).isSome ∨ !s.lastNow core (bytesOf pa cb 0) then none
          else if s.poisoned pa then some ((gone (s.meetError pa)).fatal t.gang core 2 pa)
          else
            let v := foldPut d (s.homeLe pa cb % 2 ^ (winFmt d).width) (vals.getD (next % 64) 0)
            let s := (s.useSpot pa).l2Work pa 4
            let s' := if placeOf pa = .host ∧ s.hostDown then s else s.performBytes core (some sid) (bytesOf pa cb v)
            let s' := s'.saw sid q pas
            let x' := if (next + 1) % 64 = 0 then { x with out := x.out.erase q } else x
            some (if next + 1 < 64 * winCount d then (s'.updCore core fun c => { c with accWin := some x' }).updStrand sid fun t => t.setItem q (.vamerge base desc xl (next + 1))
              else gone s')
    | _, _ => none

/-- VAMERGE_FOLD. -/
def execVamergeFold (sid item : Nat) (s : State) : Out := s.act (vamergeFold sid item s)

end Sys2Proof.Machine
end

