-- ==== Sys2Proof/Machine/Sync.lean ====
section
/-! DEFINITION. Happenings between strands (R240, R256, R258, R259, R268, R286) and in the caches (R194). -/

namespace Sys2Proof.Machine

/-- SCOPE_ACKNOWLEDGE (R240, R276, R280, R282): a resident core takes the new definition of an entry, once it has crossed to its front end, at a boundary of
that, which then steps. -/
def scopeAcknowledge (core ctx e : Nat) (s : State) : Option State :=
  match s.contexts.get? ctx with
  | none => none
  | some x =>
    if !x.unacked.contains (core, e) ∨ s.now < x.sentAt.getD e 0 + 3 ∨ !s.feOpen core then none
    else some ((s.updCtx ctx fun x =>
      { x with unacked := x.unacked.filter (· != (core, e)),
               copies := x.copies.adjust core fun m => match x.table.get? e with | some d => NMap.put m e d | none => NMap.erase m e }).wakeFe core)
def execScopeAcknowledge (core ctx entry : Nat) (s : State) : Out := s.act (scopeAcknowledge core ctx entry s)

/-- BARRIER_ARRIVAL (R258): a strand whose committed writes have performed arrives; with the last live strand the barrier releases. -/
def barrierArrival (sid : Nat) (s : State) : Option State :=
  match s.strand? sid with
  | none => none
  | some t =>
    match s.gangs.get? t.gang with
    | none => none
    | some g =>
      if !t.barWait ∨ t.run = .halted ∨ g.arrived.contains t.cid ∨ !t.mq.isEmpty ∨ t.items.any (fun i => match i.kind with | .fence _ _ => false | _ => true) then none
      else some ((s.updGang t.gang fun g => { g with arrived := g.arrived ++ [t.cid] }).settleBarrier t.gang)
def execBarrierArrival (sid : Nat) (s : State) : Out := s.act (barrierArrival sid s)

/-- SLEEP_EXPIRY (R259): `qtime` reaches q_C + l. -/
def sleepExpiry (sid : Nat) (s : State) : Option State :=
  match (s.strand? sid).bind (·.sleepTo) with
  | some q => if q ≤ s.now then some (s.updStrand sid fun t => { t with sleepTo := none }) else none
  | none => none
def execSleepExpiry (sid : Nat) (s : State) : Out := s.act (sleepExpiry sid s)

/-- A `vwait` sleep ends (R256): the watches are released, and REASON says why. -/
def State.wakeStrand (s : State) (sid reason : Nat) : State :=
  (s.updStrand sid fun t => { t with vsleep := none, wstat := BitVec.ofNat 64 (reason * 2 ^ 62 + t.wstat.toNat % 2 ^ 22) }).updCore (coreOf sid) fun c =>
    { c with watches := c.watches.filter (·.1 != sid) }

/-- QDL_DEADLINE_PASS (R256, R286). -/
def qdlDeadlinePass (sid : Nat) (s : State) : Option State :=
  match s.strand? sid with
  | some t => if t.vsleep.isSome ∧ t.late s.qtime then some (s.wakeStrand sid 1) else none
  | none => none
def execQdlDeadlinePass (sid : Nat) (s : State) : Out := s.act (qdlDeadlinePass sid s)

/-- WATCHED_LINE_WRITE (R256, R286, R336): a watched write wakes the strands that sleep on the line, with REASON 1 where their deadline has passed; one that
came during a power state, or while a relock stops the cluster's clocks (R282), takes effect after it. -/
def watchedLineWrite (core line : Nat) (s : State) : Option State :=
  let due := (s.strands.filter fun kv => coreOf kv.1 == core && (match kv.2.vsleep with | some w => w.hit && w.lines.contains line | none => false)).map (·.1)
  if due.isEmpty ∨ !s.clocked core then none
  else some (due.foldl (fun (s : State) sid => s.wakeStrand sid (if (s.strand? sid).any (·.late s.qtime) then 1 else 0)) s)
def execWatchedLineWrite (core line : Nat) (s : State) : Out := s.act (watchedLineWrite core line s)

/-- L1_LINE_INVALIDATE (R194, R268): the lines that hold a byte of a 64-byte line leave, gathered ones whole. -/
def l1LineInvalidate (core line : Nat) (s : State) : Option State :=
  let k := s.core core
  if k.l1.has line || k.gl1.any (fun g => g.bytes.any fun b => lineOf b.1 == line) then some (s.updCore core (·.dropL1 (· == line))) else none
def execL1LineInvalidate (core line : Nat) (s : State) : Out := s.act (l1LineInvalidate core line s)

/-- L2_EVICTION (R194): a line leaves the L2 slice for the Slough slice of its die, whose oldest line leaves where it is full. -/
def l2Eviction (die line : Nat) (s : State) : Option State :=
  if (s.die die).l2.contains line then some (s.updDie die fun d => { d with l2 := d.l2.filter (· != line), slough := (line :: d.slough).take sloughLines }) else none
def execL2Eviction (die line : Nat) (s : State) : Out := s.act (l2Eviction die line s)

end Sys2Proof.Machine
end

