-- ==== Sys2Proof/Machine/Clock.lean ====
section
/-! DEFINITION. The clock regions (R275 to R283): when their steps begin and end, what the end of a step does, and how time passes between
them. -/

namespace Sys2Proof.Machine

/-- The cores that hold anything. -/
def State.coreList (s : State) : List Nat := (s.cores.keys ++ s.strands.map fun kv => coreOf kv.1).eraseDups

/-- Whether an access has a part in its core's scratchpad. -/
def Access.inBanks (a : Access) (core : Nat) : Bool := (a.places core).any fun p => placeOf p == .scratch

/-- A load that its core must take on now (R280): its value has come, or a bank of the scratchpad can accept a segment of it. -/
def State.loadDue (s : State) (sid idx : Nat) (a : Access) : Bool :=
  if a.segs.isEmpty then (loadDataReturn sid idx 0 s).isSome
  else a.inBanks (coreOf sid) && (List.range a.segs.length).any fun k =>
    (match a.segs[k]? with | some g => ((a.bytesIn (coreOf sid) g).head?.any fun b => placeOf b.2 == .scratch) | none => false) && (loadDataReturn sid idx k s).isSome

/-- A posted item that a bank of the scratchpad can accept now (R195, R254, R255, R280). -/
def State.itemDue (s : State) (sid : Nat) (i : PItem) : Bool :=
  match i.kind with
  | .store segs _ _ _ => (List.range segs.length).any fun k =>
      (match segs[k]? with | some g => (g.bytes.head?.any fun b => placeOf b.1 == .scratch) | none => false) && (storePerform sid i.q k s).isSome
  | .atomic _ _ pa _ _ _ _ _ _ => placeOf pa == .scratch && (atomicPerform sid i.q s).isSome
  | .vacc ups => ups.any fun u => (vaccUpdatePerform sid i.q u.elem s).isSome
  | .vamerge _ _ _ _ => (vamergeFold sid i.q s).isSome
  | _ => false

/-- Something that a boundary must do before a step begins or time passes (R96, R206, R276, R279, R280): a datum to accept, be it a token, a report, a
load's value, a stamp, an old value, a changed entry or a tile form, a block's code, an access that a bank of the scratchpad can accept, a division to start or to complete, a lane
instruction to move on or to execute. -/
def State.due (s : State) (core : Nat) : Bool :=
  let k := s.core core
  (fifoAccept core 0 s).isSome || (fifoAccept core 1 s).isSome || (divideStart core s).isSome || (divideComplete core 0 s).isSome ||
  (divideComplete core 1 s).isSome || (fpDivideStart core s).isSome || (fpDivideComplete core s).isSome || (vectorExecuteStart core s).isSome ||
  (vectorExecuteDone core s).isSome || k.ex.any (fun e => !e.ran) || (matrixIssue core s).isSome || (matrixPerformDone core s).isSome ||
  (s.contexts.any fun kv => kv.2.unacked.any fun a => a.1 == core && (scopeAcknowledge core kv.1 a.2 s).isSome) ||
  s.strands.any fun kv => coreOf kv.1 == core &&
    ((match kv.2.win with | some w => w.accs.any fun a => s.loadDue kv.1 a.1 a.2 | none => false) || (!k.lanes.stepping s.now && kv.2.items.any (s.itemDue kv.1)) || (blockStart kv.1 s).isSome ||
     kv.2.pend.any fun p => (stampReturn kv.1 p.1 s).isSome || (atomicOldValueReturn kv.1 p.1 s).isSome)

/-- The front end has work in a step that begins now, and the longest class of it (R276, R278): what is ready, what the dividers do, and a datum
that it has just accepted, whatever that makes ready. -/
def State.feWork (s : State) (core : Nat) : Option Nat :=
  let k := s.core core
  let ready := s.readySet core s.now
  let ints := !k.idiv.isEmpty || !k.idivWait.isEmpty
  let flts := k.fdiv.isSome || !k.fdivWait.isEmpty
  if ready.isEmpty && !ints && !flts && !k.wake then none
  else
    let cls := ready.foldl (fun m x => max m (match s.win? x.1 with | some w => if (w.op x.2.1).anyNull x.2.2 then 2 else feClass x.2.2 | none => 2)) 2
    some (max cls (max (if ints then 4 else 2) (if flts then 6 else 2)))


/-- The plane array has work (R206): an entry's steps, or data that it has accepted (R276). -/
def Core.planeWork (k : Core) : Option Nat :=
  if k.planeCur.isNone && !(k.planeFill.any fun e => e.left != 0) && !k.planeWake then none else some 3

/-- A region begins a step (R276): its period is the floor, or the longest class in it; `qper` reads that floor (R285). -/
def Region.begin_ (r : Region) (now floor cls : Nat) : Region := { r with start := now, stop := now + max floor cls, floor := floor }

/-- The lane instructions of a running block that have fired, with their tokens in and a grant held, wait from the step that begins now (R324). -/
def Window.markWaits (w : Window) (now steps : Nat) : Window :=
  { w with waits := w.blk.views.foldl (fun m kv =>
      if kv.2.isVec && !NMap.has m kv.1 && !(w.op kv.1).fired && (w.op kv.1).tokensBy kv.2 now && !(w.op kv.1).anyNull kv.2 then NMap.put m kv.1 steps else m) w.waits }
def State.markWaits (s : State) : State :=
  { s with strands := s.strands.mapVals fun sid t => if t.grant ≠ 0 then t.updWin (·.markWaits s.now (s.core (coreOf sid)).lanes.steps) else t }

/-- What a place gives at a boundary leaves it at the end of the step that begins there, which `stopOf` gives (R280): stamps, old values, the value of a load
that has read its last segment, the bytes of an `mld`, the copies for a `vamerge`. -/
def Strand.leave (t : Strand) (core now : Nat) (out : NMap (List Nat)) (stopOf : Nat → Option Nat) : Strand :=
  let last (pas : List Nat) : Nat := (pas.filterMap stopOf).foldl max now
  { t with
    pend := t.pend.mapVals fun _ p => if p.value.isSome ∧ p.sent = now then { p with sent := last [p.place] } else p,
    win := t.win.map fun w => { w with accs := w.accs.mapVals fun _ a =>
      if a.phase = .reading ∧ a.segs.isEmpty ∧ a.sent = now then { a with sent := last (a.places core) } else a },
    mq := t.mq.map fun o => if o.read ∧ o.sent = now then { o with sent := last (o.parts.filterMap fun p => physOf core o.xl p.va) } else o,
    items := t.items.map fun i => match i.kind with
      | .vamerge _ _ _ _ => if i.sent = now ∧ out.has i.q then { i with sent := last ((List.range 8).map fun d => spPhys core (256 * d)) } else i
      | _ => i }

/-- The lane slices of a core that begin a step of their own: those with banks that have accepted an access while the pipe is empty (R195, R276). -/
def Core.ownDies (k : Core) (now : Nat) : List Nat :=
  if k.pipeWork.isSome || k.lanes.stepping now then [] else (k.banks.map (· / 8)).eraseDups.filter fun d => !k.ownStep now d

/-- The pipe begins a step, in every slice, with the accesses of their banks; slices begin steps of their own, at 2 q. -/
def Core.beginPipe (k : Core) (now floor cls : Nat) : Core := { k with lanes := k.lanes.begin_ now floor cls, banks := [], served := k.banks }
def Core.beginOwn (k : Core) (now floor : Nat) (ds : List Nat) : Core :=
  let mine (b : Nat) : Bool := ds.contains (b / 8)
  { k with banks := k.banks.filter fun b => !mine b, served := k.banks.filter mine ++ k.served.filter fun b => !mine b,
           slices := ds.foldl (fun m d => m.put d { m.getD d .reset with stop := now + max floor 2 }) k.slices }

/-- The regions of a core that have work and stand at a boundary begin their steps. -/
def State.beginCore (s : State) (core : Nat) : State :=
  if !s.clocked core then s
  else
    let floor := s.floorOf core
    let fe := if (s.core core).fe.stepping s.now then none else s.feWork core
    let lanes := if (s.core core).lanesStand s.now then (s.core core).pipeWork else none
    let own := (s.core core).ownDies s.now
    let out := match (s.core core).accWin with | some x => x.out | none => []
    let stopOf (pa : Nat) : Option Nat :=
      if placeOf pa ≠ .scratch ∨ spCore pa ≠ core then none
      else match lanes with
        | some cls => some (s.now + max floor cls)
        | none => if own.contains (spBank pa / 8) then some (s.now + max floor 2) else none
    let s : State := if (s.core core).banks.isEmpty then s
      else { s with strands := s.strands.mapVals fun sid t => if coreOf sid = core then t.leave core s.now out stopOf else t }
    s.updCore core fun k =>
      let k := match fe with | some cls => { k with fe := k.fe.begin_ s.now floor cls, wake := false, issue := none } | none => k
      let k := match lanes with | some cls => k.beginPipe s.now floor cls | none => if own.isEmpty then k else k.beginOwn s.now floor own
      match (if k.plane.stepping s.now then none else k.planeWork) with | some cls => { k with plane := k.plane.begin_ s.now floor cls, planeWake := false } | none => k

/-- Whether a region of a core would begin a step now. -/
def State.mayBegin (s : State) (core : Nat) : Bool :=
  let k := s.core core
  s.clocked core && ((!k.fe.stepping s.now && (s.feWork core).isSome) || (k.lanesStand s.now && k.pipeWork.isSome) || !(k.ownDies s.now).isEmpty ||
    (!k.plane.stepping s.now && k.planeWork.isSome))

/-- The end of a front-end step: every division in progress has made one more step, and the division of an aborted block leaves its divider
(R111). -/
def Core.feEnd (k : Core) : Core :=
  let less (d : DivOp) : DivOp := { d with left := d.left - 1 }
  { k with fe := k.fe.end_, idiv := NMap.mapVals (k.idiv.filter fun d => !d.2.dead) fun _ d => less d, fdiv := (k.fdiv.filter fun d => !d.dead).map less }

/-- The slices of a core, lanes or plane, end a step (R281). -/
def Core.slicesEnd (k : Core) (lanes : Bool) : Core := { k with slices := k.slices.mapVals fun i x => if decide (i < 8) == lanes then x.end_ else x }

/-- The end of a lane step (R279): the execute stage has made one step, and the write stage sends its report, as do the loads whose data have come. -/
def Core.laneEnd (k : Core) : Core :=
  let sent := k.lanes.stop
  { k.slicesEnd true with
    lanes := k.lanes.end_, rd := k.rd.map fun e => { e with aged := true }, ex := k.ex.map fun e => { e with left := e.left - 1 }, wr := none, fills := [],
    toFe := k.toFe ++ (match k.wr with | some e => [{ sid := e.sid, idx := e.idx, sent := sent, tok := none }] | none => []) ++ k.fills.map fun d => { d with sent := sent } }

/-- The end of a plane step (R206): an entry that has made its last step fills for four more. -/
def Core.planeEnd (k : Core) : Core :=
  let k := k.slicesEnd false
  let fill := k.planeFill.map fun e => { e with left := e.left - 1 }
  match k.planeCur with
  | some e =>
    if e.left ≤ 1 then { k with plane := k.plane.end_, planeCur := none, planeFill := fill ++ [{ e with left := 4 }] }
    else { k with plane := k.plane.end_, planeCur := some { e with left := e.left - 1 }, planeFill := fill }
  | none => { k with plane := k.plane.end_, planeFill := fill }

/-- The steps of a core that end at `t`. -/
def Core.endSteps (k : Core) (now t : Nat) : Core :=
  let ends (r : Region) : Bool := r.stepping now && r.stop == t
  let k := if ends k.fe then k.feEnd else k
  let k := if ends k.lanes then k.laneEnd else k
  let k := { k with slices := k.slices.mapVals fun _ x => if now < x.stop ∧ x.stop ≤ t then x.end_ else x }
  if ends k.plane then k.planeEnd else k

/-- The quanta at which a core next has something to do: the ends of its steps, and the times at which its FIFOs let a datum through. -/
def Core.moments (k : Core) (now : Nat) : List Nat :=
  let stop (r : Region) : List Nat := if r.stepping now then [r.stop] else []
  stop k.fe ++ stop k.lanes ++ stop k.plane ++ (k.slices.filterMap fun x => if now < x.2.stop then some x.2.stop else none) ++ (k.inbox.head?.toList.map (·.sent + 3)) ++ (k.toFe.head?.toList.map (·.sent + 3)) ++
  k.streams.flatMap fun kv => (kv.2.sent + 3) :: kv.2.strips.flatMap fun p => p.came.map (·.2.1 + 3)

/-- The times at which what a strand has sent, or waits for, has crossed (R280), and the deadline of its `vwait` sleep (R286). -/
def Strand.moments (t : Strand) : List Nat :=
  (if t.vsleep.isSome then [t.qdl.toNat] else []) ++ (match t.win with | some w => w.accs.map (·.2.sent + 3) | none => []) ++ (t.fetched.toList.map (·.at_ + 3)) ++ t.items.map (·.sent + 3) ++ t.pend.map (·.2.sent + 3) ++ t.mq.map (·.sent + 3)

/-- The next quantum that time may not pass by: something has a time then, the step of an L2 region ends, a changed entry has crossed to the cores (R240,
R280), a relock has lasted its 2 µs (R282), or the regions compare their counts (R281). -/
def State.moments (s : State) : List Nat :=
  (s.coreList.flatMap fun c => (s.core c).moments s.now) ++ (s.strands.flatMap fun kv => kv.2.moments) ++
  (s.dies.filterMap fun kv => if kv.2.clock.stepping s.now then some kv.2.clock.stop else none) ++
  (s.contexts.flatMap fun kv => kv.2.unacked.map fun a => kv.2.sentAt.getD a.2 0 + 3) ++
  (s.clusters.filterMap fun kv => kv.2.stopAt.map (· + 16000)) ++ [(s.now / 65536 + 1) * 65536]

/-- Time that a running block does not count (R75). -/
def State.excludeTime (s : State) (d : Nat) : State :=
  { s with strands := s.strands.mapVals fun sid t =>
      match t.win with
      | some w => if s.waitsExcluded sid t w then { t with win := some { w with excluded := w.excluded + d } } else t
      | none => t }

/-- The comparison of a region's count, or a slice's, with `qtime` (R281): it will make up the difference. -/
def Region.check (r : Region) : Region := { r with slew := r.lag }
def SliceCount.check (x : SliceCount) : SliceCount := { x with slew := x.lag }

/-- Every region compares its count (R281). -/
def State.checkCounts (s : State) : State :=
  { s with cores := s.cores.mapVals fun _ k => { k with fe := k.fe.check, lanes := k.lanes.check, plane := k.plane.check, slices := k.slices.mapVals fun _ x => x.check },
           dies := s.dies.mapVals fun _ d => { d with clock := d.clock.check } }

/-- An L2 region ends a step that has lasted (R276, R281). -/
def Region.endBy (r : Region) (now t : Nat) : Region := if r.stepping now ∧ r.stop ≤ t then r.end_ else r

/-- What an L2 region has given at the boundary of now leaves it at the end of its step (R280). -/
def State.leaveHomes (s : State) : State :=
  let stopOf (pa : Nat) : Option Nat :=
    if pa < hbmTop then (let r := (s.die (homeDie pa)).clock; if r.start = s.now ∧ r.stepping s.now then some r.stop else none) else none
  if s.dies.any fun kv => kv.2.clock.start == s.now && kv.2.clock.stepping s.now then
    { s with strands := s.strands.mapVals fun sid t => t.leave (coreOf sid) s.now [] stopOf }
  else s

/-- Time passes to `t`, with nothing to do in between; every 65,536 q the regions compare their counts (R281), and a change of a floor that the
control interval before could not take is taken (R341). -/
def State.passTo (s : State) (t : Nat) : State :=
  let s' := (s.leaveHomes.markWaits).excludeTime (t - s.now)
  let s' := { s' with now := t, cores := s'.cores.mapVals fun _ k => k.endSteps s.now t,
                      dies := s'.dies.mapVals fun _ d => { d with clock := d.clock.endBy s.now t },
                      board := { s'.board with phase := if s'.board.phase = 1 then 2 else s'.board.phase } }
  if t % 65536 = 0 then s'.checkCounts.settleFloors else s'

/-- One passage of time towards `q`: the regions at a boundary that have work begin their steps; else time passes to the first moment at
which a region has something to do. Nothing moves while a boundary still has something to do. -/
def State.tick (s : State) (q : Nat) : State :=
  let cs := s.coreList
  if cs.any s.due then s
  else if cs.any s.mayBegin then cs.foldl State.beginCore s.markWaits
  else
    let t := (s.moments.filter (s.now < ·)).foldl min q
    if t ≤ s.now then s else s.passTo t

/-- LOCAL_COUNT_CHECK (R22, R281): the front end of a core (kind 0), lane slice d of core c (1) or plane array slice d (2) at 8·c + d, or an L2
slice (3) compares its count with `qtime`, and will make up the difference. -/
def localCountCheck (kind region : Nat) (s : State) : Option State :=
  let slice (i : Nat) : State := s.updCore (region / 8) fun k => { k with slices := k.slices.put i (k.slices.getD i .reset).check }
  if s.now % 65536 ≠ 0 then none
  else
    match kind with
    | 0 => if region < 32 then some (s.updCore region fun k => { k with fe := k.fe.check }) else none
    | 1 => if region < 256 then some (slice (region % 8)) else none
    | 2 => if region < 256 then some (slice (8 + region % 8)) else none
    | 3 => if region < 8 then some (s.updDie region fun d => { d with clock := d.clock.check }) else none
    | _ => none
def execLocalCountCheck (kind region : Nat) (s : State) : Out := s.act (localCountCheck kind region s)

/-- PLL_RELOCK_STOP (R282, R341, R354): a change of level stops a cluster's clocks, each region at the end of its step; it waits while a link
retrains. The link clock of die d, at 8 + d, relocks too, and waits in the same way; a relock of it stops no region. -/
def pllRelockStop (k : Nat) (s : State) : Option State :=
  let x := s.cluster k
  if s.retraining ∨ 16 ≤ k then none
  else if 8 ≤ k then some s
  else if x.state ≠ 0 ∨ x.stopAt.isSome ∨ x.level = levelOf (s.floorFor k) ∨ (x.eff ≠ s.floorFor k ∧ !s.effOpen k) then none
  else
    let now := s.now
    some ((s.updCluster k fun x => { x with stopAt := some now }).updRegions k fun r => { r with frozen := some (max now r.stop) })
def execPllRelockStop (cluster : Nat) (s : State) : Out := s.act (pllRelockStop cluster s)

/-- PLL_RELOCK_END (R282, R341): the clocks restart at the floor now in force, and each count advances by the length of the stop. -/
def pllRelockEnd (k : Nat) (s : State) : Option State :=
  let x := s.cluster k
  let still := (List.range 4).any fun j => !(s.core (4 * k + j)).standing s.now
  if x.stopAt.isNone ∨ still then none
  else some ((s.updCluster k fun x => { (if x.eff = s.floorFor k then { x with level := levelOf x.eff } else x.setEff s.now (s.floorFor k)) with stopAt := none }).updRegions k fun r => { r with frozen := none })
def execPllRelockEnd (cluster : Nat) (s : State) : Out := s.act (pllRelockEnd cluster s)

end Sys2Proof.Machine
end

