-- ==== Sys2Proof/Machine/Scalar.lean ====
section
/-! DEFINITION. The scalar instructions of a core's front end that compute a token from tokens: moves, immediates, tests,
integer and float arithmetic and the compressed forms (R81 to R102). -/

namespace Sys2Proof.Machine

/-- The immediate of an IT form, sign-extended (R85, R95). -/
def immR (o : ITOp) : Dword := o.imm.signExtend 64

/-- Bits [127:64] of a product (R92). -/
def mulHigh (a b : Int) : Dword := BitVec.ofInt 64 (a * b / 2 ^ 64)

/-- The quotients and remainders of R92 and R93. -/
def divOf (l r : Dword) : Dword := if r = 0 then -1 else BitVec.ofInt 64 (l.toInt.tdiv r.toInt)
def divuOf (l r : Dword) : Dword := if r = 0 then -1 else BitVec.ofNat 64 (l.toNat / r.toNat)
def remOf (l r : Dword) : Dword := if r = 0 then l else BitVec.ofInt 64 (l.toInt.tmod r.toInt)
def remuOf (l r : Dword) : Dword := if r = 0 then l else BitVec.ofNat 64 (l.toNat % r.toNat)

/-- Counts of leading zeros, of trailing zeros and of one bits (R92). -/
def countLeading (l : Dword) : Dword := if l = 0 then 64 else BitVec.ofNat 64 (63 - Nat.log2 l.toNat)
def trailing : Nat → Nat → Nat
  | 0, _ => 0
  | n + 1, x => if x % 2 = 1 then 0 else 1 + trailing n (x / 2)
def countTrailing (l : Dword) : Dword := BitVec.ofNat 64 (trailing 64 l.toNat)
def onesOf : Nat → Nat → Nat
  | 0, _ => 0
  | n + 1, x => x % 2 + onesOf n (x / 2)
def countOnes (l : Dword) : Dword := BitVec.ofNat 64 (onesOf 64 l.toNat)

/-- A scalar float instruction (R97, R101): its result, and its events at element 0. -/
def State.float (s : State) (v : View) (f : Dword → Dword → Dword → Dword × Nat) : Out :=
  s.run v fun s c => (s.updWin c.sid (·.eventMask c.idx (f c.l c.r c.x).2 0)).give c v (.val (f c.l c.r c.x).1)

/-- Into the order of waiting divisions (R96): by the step of firing, then by the core-relative strand number; of two of one strand the one of the lower
instruction first, which is the model's choice (log 121). -/
def DivOp.insert (d : DivOp) : List DivOp → List DivOp
  | [] => [d]
  | e :: es =>
    if d.key < e.key ∨ (d.key = e.key ∧ (d.sid < e.sid ∨ (d.sid = e.sid ∧ d.idx < e.idx))) then d :: e :: es else e :: d.insert es

/-- The steps of a division or a root (R96, R102). -/
def divSteps : View → Nat
  | .g 0x17 _ _ => 6
  | .g 0x18 _ _ => 11
  | _ => 16

/-- An instruction that goes through a divider (R96) or the float divide unit (R102): it fires, and its division waits for
the unit; DIVIDE_START and FP_DIVIDE_START take it from there in the same step when a unit is free. -/
def State.divide (s : State) (v : View) (float : Bool) (f : Dword → Dword → Dword → Dword × Nat) : Out :=
  s.run v fun s c =>
    let d : DivOp := { key := c.at_, sid := c.sid, idx := c.idx, result := (f c.l c.r c.x).1, flags := (f c.l c.r c.x).2, left := divSteps v }
    s.updCore (coreOf c.sid) fun k =>
      if float then { k with fdivWait := d.insert k.fdivWait } else { k with idivWait := d.insert k.idivWait }

/-- `read` (R81): the block-entry value of the register. -/
def execRead (o : RDOp) (s : State) : Out := s.run (.rd o) fun s c => s.give c (.rd o) (.val (c.t.reg o.reg))

/-- `null` (R82): a null, whatever arrives. -/
def execNull (o : GOp) (s : State) : Out := s.run (.g 0x02 1 o) fun s c => s.give c (.g 0x02 1 o) .null

/-- `c.null` (R90): a null, whatever arrives. -/
def execCNull (o : COp) (s : State) : Out := s.run (.c 1 o) fun s c => s.give c (.c 1 o) .null

/-- `lpci` (R84). -/
def execLpci (o : IOp) (s : State) : Out :=
  s.run (.i 0x0B o) fun s c => s.give c (.i 0x0B o) (.val (c.w.blk.base + (o.imm.signExtend 64 <<< 5)))

/-- `mov` (R82): the left operand. -/
def execMov (o : GOp) (s : State) : Out := s.compute (.g 0x2 0 o) fun l _ _ => l

/-- `sel` (R82): left when the third operand is not zero, else right. -/
def execSel (o : G3Op) (s : State) : Out := s.compute (.g3 0x2 2 o) fun l r x => if x = 0 then r else l

/-- `movi` (R83). -/
def execMovi (o : IOp) (s : State) : Out := s.compute (.i 0x3 o) fun _ _ _ => o.imm.signExtend 64

/-- `orhi` (R83). -/
def execOrhi (o : IOp) (s : State) : Out := s.compute (.i 0x4 o) fun l _ _ => (l <<< 13) ||| o.imm.zeroExtend 64

/-- `teq` (R85): left = right. -/
def execTeq (o : GOp) (s : State) : Out := s.compute (.g 0x5 0 o) fun l r _ => boolWord (decide (l = r))

/-- `tne` (R85): left ≠ right. -/
def execTne (o : GOp) (s : State) : Out := s.compute (.g 0x5 1 o) fun l r _ => boolWord (decide (l ≠ r))

/-- `tlt` (R85): left < right, signed. -/
def execTlt (o : GOp) (s : State) : Out := s.compute (.g 0x5 2 o) fun l r _ => boolWord (decide (l.toInt < r.toInt))

/-- `tltu` (R85): left < right, unsigned. -/
def execTltu (o : GOp) (s : State) : Out := s.compute (.g 0x5 3 o) fun l r _ => boolWord (decide (l.toNat < r.toNat))

/-- `tle` (R85): left ≤ right, signed. -/
def execTle (o : GOp) (s : State) : Out := s.compute (.g 0x5 4 o) fun l r _ => boolWord (decide (l.toInt ≤ r.toInt))

/-- `tleu` (R85): left ≤ right, unsigned. -/
def execTleu (o : GOp) (s : State) : Out := s.compute (.g 0x5 5 o) fun l r _ => boolWord (decide (l.toNat ≤ r.toNat))

/-- `tgt` (R85): left > right, signed. -/
def execTgt (o : GOp) (s : State) : Out := s.compute (.g 0x5 6 o) fun l r _ => boolWord (decide (r.toInt < l.toInt))

/-- `tgtu` (R85): left > right, unsigned. -/
def execTgtu (o : GOp) (s : State) : Out := s.compute (.g 0x5 7 o) fun l r _ => boolWord (decide (r.toNat < l.toNat))

/-- `tge` (R85): left ≥ right, signed. -/
def execTge (o : GOp) (s : State) : Out := s.compute (.g 0x5 8 o) fun l r _ => boolWord (decide (r.toInt ≤ l.toInt))

/-- `tgeu` (R85): left ≥ right, unsigned. -/
def execTgeu (o : GOp) (s : State) : Out := s.compute (.g 0x5 9 o) fun l r _ => boolWord (decide (r.toNat ≤ l.toNat))

/-- `tbit` (R85): bit right[5:0] of left is 1. -/
def execTbit (o : GOp) (s : State) : Out := s.compute (.g 0x5 10 o) fun l r _ => boolWord (decide (l.getLsbD (r.toNat % 64) = true))

/-- `teqi` (R85): left = right, with right the sign-extended immediate. -/
def execTeqi (o : ITOp) (s : State) : Out := s.compute (.it 0x6 0 o) fun l _ _ => boolWord (decide (l = (immR o)))

/-- `tnei` (R85): left ≠ right, with right the sign-extended immediate. -/
def execTnei (o : ITOp) (s : State) : Out := s.compute (.it 0x6 1 o) fun l _ _ => boolWord (decide (l ≠ (immR o)))

/-- `tlti` (R85): left < right, signed, with right the sign-extended immediate. -/
def execTlti (o : ITOp) (s : State) : Out := s.compute (.it 0x6 2 o) fun l _ _ => boolWord (decide (l.toInt < (immR o).toInt))

/-- `tltui` (R85): left < right, unsigned, with right the sign-extended immediate. -/
def execTltui (o : ITOp) (s : State) : Out := s.compute (.it 0x6 3 o) fun l _ _ => boolWord (decide (l.toNat < (immR o).toNat))

/-- `tlei` (R85): left ≤ right, signed, with right the sign-extended immediate. -/
def execTlei (o : ITOp) (s : State) : Out := s.compute (.it 0x6 4 o) fun l _ _ => boolWord (decide (l.toInt ≤ (immR o).toInt))

/-- `tleui` (R85): left ≤ right, unsigned, with right the sign-extended immediate. -/
def execTleui (o : ITOp) (s : State) : Out := s.compute (.it 0x6 5 o) fun l _ _ => boolWord (decide (l.toNat ≤ (immR o).toNat))

/-- `tgti` (R85): left > right, signed, with right the sign-extended immediate. -/
def execTgti (o : ITOp) (s : State) : Out := s.compute (.it 0x6 6 o) fun l _ _ => boolWord (decide ((immR o).toInt < l.toInt))

/-- `tgtui` (R85): left > right, unsigned, with right the sign-extended immediate. -/
def execTgtui (o : ITOp) (s : State) : Out := s.compute (.it 0x6 7 o) fun l _ _ => boolWord (decide ((immR o).toNat < l.toNat))

/-- `tgei` (R85): left ≥ right, signed, with right the sign-extended immediate. -/
def execTgei (o : ITOp) (s : State) : Out := s.compute (.it 0x6 8 o) fun l _ _ => boolWord (decide ((immR o).toInt ≤ l.toInt))

/-- `tgeui` (R85): left ≥ right, unsigned, with right the sign-extended immediate. -/
def execTgeui (o : ITOp) (s : State) : Out := s.compute (.it 0x6 9 o) fun l _ _ => boolWord (decide ((immR o).toNat ≤ l.toNat))

/-- `tbiti` (R85): bit right[5:0] of left is 1, with right the sign-extended immediate. -/
def execTbiti (o : ITOp) (s : State) : Out := s.compute (.it 0x6 10 o) fun l _ _ => boolWord (decide (l.getLsbD ((immR o).toNat % 64) = true))

/-- `add` (R92). -/
def execAdd (o : GOp) (s : State) : Out := s.compute (.g 0x10 0 o) fun l r _ => l + r

/-- `sub` (R92). -/
def execSub (o : GOp) (s : State) : Out := s.compute (.g 0x10 1 o) fun l r _ => l - r

/-- `mul` (R92). -/
def execMul (o : GOp) (s : State) : Out := s.compute (.g 0x10 2 o) fun l r _ => l * r

/-- `mulh` (R92). -/
def execMulh (o : GOp) (s : State) : Out := s.compute (.g 0x10 3 o) fun l r _ => mulHigh l.toInt r.toInt

/-- `mulhu` (R92). -/
def execMulhu (o : GOp) (s : State) : Out := s.compute (.g 0x10 4 o) fun l r _ => mulHigh l.toNat r.toNat

/-- `div` (R92, R93): through an integer divider (R96). -/
def execDiv (o : GOp) (s : State) : Out := s.divide (.g 0x10 5 o) false fun l r _ => (divOf l r, 0)

/-- `divu` (R92, R93): through an integer divider (R96). -/
def execDivu (o : GOp) (s : State) : Out := s.divide (.g 0x10 6 o) false fun l r _ => (divuOf l r, 0)

/-- `rem` (R92, R93): through an integer divider (R96). -/
def execRem (o : GOp) (s : State) : Out := s.divide (.g 0x10 7 o) false fun l r _ => (remOf l r, 0)

/-- `remu` (R92, R93): through an integer divider (R96). -/
def execRemu (o : GOp) (s : State) : Out := s.divide (.g 0x10 8 o) false fun l r _ => (remuOf l r, 0)

/-- `and` (R92). -/
def execAnd (o : GOp) (s : State) : Out := s.compute (.g 0x10 9 o) fun l r _ => l &&& r

/-- `or` (R92). -/
def execOr (o : GOp) (s : State) : Out := s.compute (.g 0x10 10 o) fun l r _ => l ||| r

/-- `xor` (R92). -/
def execXor (o : GOp) (s : State) : Out := s.compute (.g 0x10 11 o) fun l r _ => l ^^^ r

/-- `andn` (R92). -/
def execAndn (o : GOp) (s : State) : Out := s.compute (.g 0x10 12 o) fun l r _ => l &&& ~~~r

/-- `shl` (R92). -/
def execShl (o : GOp) (s : State) : Out := s.compute (.g 0x10 13 o) fun l r _ => l <<< (r.toNat % 64)

/-- `shr` (R92). -/
def execShr (o : GOp) (s : State) : Out := s.compute (.g 0x10 14 o) fun l r _ => l >>> (r.toNat % 64)

/-- `sra` (R92). -/
def execSra (o : GOp) (s : State) : Out := s.compute (.g 0x10 15 o) fun l r _ => l.sshiftRight (r.toNat % 64)

/-- `rotl` (R92). -/
def execRotl (o : GOp) (s : State) : Out := s.compute (.g 0x11 0 o) fun l r _ => l.rotateLeft (r.toNat % 64)

/-- `rotr` (R92). -/
def execRotr (o : GOp) (s : State) : Out := s.compute (.g 0x11 1 o) fun l r _ => l.rotateRight (r.toNat % 64)

/-- `min` (R92). -/
def execMin (o : GOp) (s : State) : Out := s.compute (.g 0x11 2 o) fun l r _ => if l.toInt ≤ r.toInt then l else r

/-- `max` (R92). -/
def execMax (o : GOp) (s : State) : Out := s.compute (.g 0x11 3 o) fun l r _ => if l.toInt ≤ r.toInt then r else l

/-- `minu` (R92). -/
def execMinu (o : GOp) (s : State) : Out := s.compute (.g 0x11 4 o) fun l r _ => if l.toNat ≤ r.toNat then l else r

/-- `maxu` (R92). -/
def execMaxu (o : GOp) (s : State) : Out := s.compute (.g 0x11 5 o) fun l r _ => if l.toNat ≤ r.toNat then r else l

/-- `clz` (R92). -/
def execClz (o : GOp) (s : State) : Out := s.compute (.g 0x11 6 o) fun l _ _ => countLeading l

/-- `ctz` (R92). -/
def execCtz (o : GOp) (s : State) : Out := s.compute (.g 0x11 7 o) fun l _ _ => countTrailing l

/-- `popc` (R92). -/
def execPopc (o : GOp) (s : State) : Out := s.compute (.g 0x11 8 o) fun l _ _ => countOnes l

/-- `sextb` (R92). -/
def execSextb (o : GOp) (s : State) : Out := s.compute (.g 0x11 9 o) fun l _ _ => (l.truncate 8).signExtend 64

/-- `sexth` (R92). -/
def execSexth (o : GOp) (s : State) : Out := s.compute (.g 0x11 10 o) fun l _ _ => (l.truncate 16).signExtend 64

/-- `sextw` (R92). -/
def execSextw (o : GOp) (s : State) : Out := s.compute (.g 0x11 11 o) fun l _ _ => (l.truncate 32).signExtend 64

/-- `zextb` (R92). -/
def execZextb (o : GOp) (s : State) : Out := s.compute (.g 0x11 12 o) fun l _ _ => (l.truncate 8).zeroExtend 64

/-- `zexth` (R92). -/
def execZexth (o : GOp) (s : State) : Out := s.compute (.g 0x11 13 o) fun l _ _ => (l.truncate 16).zeroExtend 64

/-- `zextw` (R92). -/
def execZextw (o : GOp) (s : State) : Out := s.compute (.g 0x11 14 o) fun l _ _ => (l.truncate 32).zeroExtend 64

/-- `abs` (R92). -/
def execAbs (o : GOp) (s : State) : Out := s.compute (.g 0x11 15 o) fun l _ _ => if l.toInt < 0 then 0 - l else l

/-- `addi` (R94). -/
def execAddi (o : IOp) (s : State) : Out := s.compute (.i 0x12 o) fun l _ _ => l + o.imm.signExtend 64

/-- `andi` (R94). -/
def execAndi (o : IOp) (s : State) : Out := s.compute (.i 0x13 o) fun l _ _ => l &&& o.imm.signExtend 64

/-- `ori` (R94). -/
def execOri (o : IOp) (s : State) : Out := s.compute (.i 0x14 o) fun l _ _ => l ||| o.imm.signExtend 64

/-- `xori` (R94). -/
def execXori (o : IOp) (s : State) : Out := s.compute (.i 0x15 o) fun l _ _ => l ^^^ o.imm.signExtend 64

/-- `shli` (R95). -/
def execShli (o : ITOp) (s : State) : Out := s.compute (.it 0x16 0 o) fun l _ _ => l <<< o.imm.toNat

/-- `shri` (R95). -/
def execShri (o : ITOp) (s : State) : Out := s.compute (.it 0x16 1 o) fun l _ _ => l >>> o.imm.toNat

/-- `srai` (R95). -/
def execSrai (o : ITOp) (s : State) : Out := s.compute (.it 0x16 2 o) fun l _ _ => l.sshiftRight o.imm.toNat

/-- `rotli` (R95). -/
def execRotli (o : ITOp) (s : State) : Out := s.compute (.it 0x16 3 o) fun l _ _ => l.rotateLeft o.imm.toNat

/-- `muli` (R95). -/
def execMuli (o : ITOp) (s : State) : Out := s.compute (.it 0x16 4 o) fun l _ _ => l * immR o

/-- `leai` (R95). -/
def execLeai (o : ITOp) (s : State) : Out := s.compute (.it 0x16 5 o) fun l r _ => l + (r <<< o.imm.toNat)

/-- `fadd.s` (R98). -/
def execFaddS (o : GOp) (s : State) : Out := s.float (.g 0x17 0 o) fun l r _ => fpAdd false l r

/-- `fsub.s` (R98). -/
def execFsubS (o : GOp) (s : State) : Out := s.float (.g 0x17 1 o) fun l r _ => fpSub false l r

/-- `fmul.s` (R98). -/
def execFmulS (o : GOp) (s : State) : Out := s.float (.g 0x17 2 o) fun l r _ => fpMul false l r

/-- `fma.s` (R98). -/
def execFmaS (o : G3Op) (s : State) : Out := s.float (.g3 0x17 5 o) fun l r x => fpFma false l r x

/-- `fmin.s` (R98). -/
def execFminS (o : GOp) (s : State) : Out := s.float (.g 0x17 6 o) fun l r _ => fpMin false l r

/-- `fmax.s` (R98). -/
def execFmaxS (o : GOp) (s : State) : Out := s.float (.g 0x17 7 o) fun l r _ => fpMax false l r

/-- `fcvtfi.s` (R100). -/
def execFcvtfiS (o : GOp) (s : State) : Out := s.float (.g 0x17 9 o) fun l _ _ => fpToInt false l

/-- `fcvtif.s` (R100). -/
def execFcvtifS (o : GOp) (s : State) : Out := s.float (.g 0x17 10 o) fun l _ _ => fpOfInt false l

/-- `fcvtff.s` (R100). -/
def execFcvtffS (o : GOp) (s : State) : Out := s.float (.g 0x17 11 o) fun l _ _ => fpCvt false l

/-- `fteq.s` (R98). -/
def execFteqS (o : GOp) (s : State) : Out := s.float (.g 0x17 12 o) fun l r _ => fpEq false l r

/-- `ftlt.s` (R98). -/
def execFtltS (o : GOp) (s : State) : Out := s.float (.g 0x17 13 o) fun l r _ => fpLt false l r

/-- `ftle.s` (R98). -/
def execFtleS (o : GOp) (s : State) : Out := s.float (.g 0x17 14 o) fun l r _ => fpLe false l r

/-- `fclass.s` (R99). -/
def execFclassS (o : GOp) (s : State) : Out := s.float (.g 0x17 15 o) fun l _ _ => (fpClass false l, 0)

/-- `fdiv.s` (R98): through the float divide unit (R102). -/
def execFdivS (o : GOp) (s : State) : Out := s.divide (.g 0x17 3 o) true (fun l r _ => fpDiv false l r)

/-- `fsqrt.s` (R98): through the float divide unit (R102). -/
def execFsqrtS (o : GOp) (s : State) : Out := s.divide (.g 0x17 4 o) true (fun l _ _ => fpSqrt false l)

/-- `frsqrt.s` (R98): through the float divide unit (R102). -/
def execFrsqrtS (o : GOp) (s : State) : Out := s.divide (.g 0x17 8 o) true (fun l _ _ => fpRsqrt false l)

/-- `fadd.d` (R98). -/
def execFaddD (o : GOp) (s : State) : Out := s.float (.g 0x18 0 o) fun l r _ => fpAdd true l r

/-- `fsub.d` (R98). -/
def execFsubD (o : GOp) (s : State) : Out := s.float (.g 0x18 1 o) fun l r _ => fpSub true l r

/-- `fmul.d` (R98). -/
def execFmulD (o : GOp) (s : State) : Out := s.float (.g 0x18 2 o) fun l r _ => fpMul true l r

/-- `fma.d` (R98). -/
def execFmaD (o : G3Op) (s : State) : Out := s.float (.g3 0x18 5 o) fun l r x => fpFma true l r x

/-- `fmin.d` (R98). -/
def execFminD (o : GOp) (s : State) : Out := s.float (.g 0x18 6 o) fun l r _ => fpMin true l r

/-- `fmax.d` (R98). -/
def execFmaxD (o : GOp) (s : State) : Out := s.float (.g 0x18 7 o) fun l r _ => fpMax true l r

/-- `fcvtfi.d` (R100). -/
def execFcvtfiD (o : GOp) (s : State) : Out := s.float (.g 0x18 9 o) fun l _ _ => fpToInt true l

/-- `fcvtif.d` (R100). -/
def execFcvtifD (o : GOp) (s : State) : Out := s.float (.g 0x18 10 o) fun l _ _ => fpOfInt true l

/-- `fcvtff.d` (R100). -/
def execFcvtffD (o : GOp) (s : State) : Out := s.float (.g 0x18 11 o) fun l _ _ => fpCvt true l

/-- `fteq.d` (R98). -/
def execFteqD (o : GOp) (s : State) : Out := s.float (.g 0x18 12 o) fun l r _ => fpEq true l r

/-- `ftlt.d` (R98). -/
def execFtltD (o : GOp) (s : State) : Out := s.float (.g 0x18 13 o) fun l r _ => fpLt true l r

/-- `ftle.d` (R98). -/
def execFtleD (o : GOp) (s : State) : Out := s.float (.g 0x18 14 o) fun l r _ => fpLe true l r

/-- `fclass.d` (R99). -/
def execFclassD (o : GOp) (s : State) : Out := s.float (.g 0x18 15 o) fun l _ _ => (fpClass true l, 0)

/-- `fdiv.d` (R98): through the float divide unit (R102). -/
def execFdivD (o : GOp) (s : State) : Out := s.divide (.g 0x18 3 o) true (fun l r _ => fpDiv true l r)

/-- `fsqrt.d` (R98): through the float divide unit (R102). -/
def execFsqrtD (o : GOp) (s : State) : Out := s.divide (.g 0x18 4 o) true (fun l _ _ => fpSqrt true l)

/-- `frsqrt.d` (R98): through the float divide unit (R102). -/
def execFrsqrtD (o : GOp) (s : State) : Out := s.divide (.g 0x18 8 o) true (fun l _ _ => fpRsqrt true l)

/-- `c.mov` (R31, R90). -/
def execCMov (o : COp) (s : State) : Out := s.compute (.c 0 o) fun l _ _ => l

/-- `c.inc` (R31, R90). -/
def execCInc (o : COp) (s : State) : Out := s.compute (.c 2 o) fun l _ _ => l + 1

/-- `c.dec` (R31, R90). -/
def execCDec (o : COp) (s : State) : Out := s.compute (.c 3 o) fun l _ _ => l - 1

/-- `c.not` (R31, R90). -/
def execCNot (o : COp) (s : State) : Out := s.compute (.c 4 o) fun l _ _ => ~~~l

/-- `c.neg` (R31, R90). -/
def execCNeg (o : COp) (s : State) : Out := s.compute (.c 5 o) fun l _ _ => 0 - l

/-- `c.zextw` (R31, R90). -/
def execCZextw (o : COp) (s : State) : Out := s.compute (.c 6 o) fun l _ _ => (l.truncate 32).zeroExtend 64

/-- `c.sextw` (R31, R90). -/
def execCSextw (o : COp) (s : State) : Out := s.compute (.c 7 o) fun l _ _ => (l.truncate 32).signExtend 64

/-- `c.zero` (R31, R90). -/
def execCZero (o : COp) (s : State) : Out := s.compute (.c 8 o) fun _ _ _ => 0

/-- `c.one` (R31, R90). -/
def execCOne (o : COp) (s : State) : Out := s.compute (.c 9 o) fun _ _ _ => 1

end Sys2Proof.Machine
end

