-- ==== Sys2Proof/Machine/Dispatch.lean ====
section
/-! DEFINITION. The dispatch: one arm for each row of the opcode table, each a call of the meaning of that row. -/

namespace Sys2Proof.Machine

open Sys2Proof

/-- What an instruction or a machine event does. -/
def exec (i : Instr) (s : State) : Host.Outcome State Fault Refusal :=
  match i with
  | .blockFetch sid addr => Sys2Proof.Machine.execBlockFetch sid addr s
  | .blockStart sid => Sys2Proof.Machine.execBlockStart sid s
  | .blockQuiescent sid => Sys2Proof.Machine.execBlockQuiescent sid s
  | .blockTimeout sid => Sys2Proof.Machine.execBlockTimeout sid s
  | .scalarProbeComplete sid idx => Sys2Proof.Machine.execScalarProbeComplete sid idx s
  | .loadDataReturn sid idx seg => Sys2Proof.Machine.execLoadDataReturn sid idx seg s
  | .storePerform sid item seg => Sys2Proof.Machine.execStorePerform sid item seg s
  | .stampReturn sid reg => Sys2Proof.Machine.execStampReturn sid reg s
  | .divideStart core => Sys2Proof.Machine.execDivideStart core s
  | .divideComplete core unit => Sys2Proof.Machine.execDivideComplete core unit s
  | .fpDivideStart core => Sys2Proof.Machine.execFpDivideStart core s
  | .fpDivideComplete core => Sys2Proof.Machine.execFpDivideComplete core s
  | .vectorDispatch core => Sys2Proof.Machine.execVectorDispatch core s
  | .vectorExecuteStart core => Sys2Proof.Machine.execVectorExecuteStart core s
  | .vectorExecuteDone core => Sys2Proof.Machine.execVectorExecuteDone core s
  | .fifoAccept core side => Sys2Proof.Machine.execFifoAccept core side s
  | .laneSliceGate core die => Sys2Proof.Machine.execLaneSliceGate core die s
  | .localCountCheck kind region => Sys2Proof.Machine.execLocalCountCheck kind region s
  | .pllRelockStop cluster => Sys2Proof.Machine.execPllRelockStop cluster s
  | .pllRelockEnd cluster => Sys2Proof.Machine.execPllRelockEnd cluster s
  | .referenceClockLoss => Sys2Proof.Machine.execReferenceClockLoss s
  | .referenceClockReturn => Sys2Proof.Machine.execReferenceClockReturn s
  | .marginWarning => Sys2Proof.Machine.execMarginWarning s
  | .matrixIssue core => Sys2Proof.Machine.execMatrixIssue core s
  | .matrixPerformDone core => Sys2Proof.Machine.execMatrixPerformDone core s
  | .tileMemoryMoveDone core => Sys2Proof.Machine.execTileMemoryMoveDone core s
  | .streamStripFetch core stream => Sys2Proof.Machine.execStreamStripFetch core stream s
  | .streamElementArrival core stream elem => Sys2Proof.Machine.execStreamElementArrival core stream elem s
  | .streamRed2FinalWrite core stream elem => Sys2Proof.Machine.execStreamRed2FinalWrite core stream elem s
  | .streamDone core stream => Sys2Proof.Machine.execStreamDone core stream s
  | .streamAccessFault core stream elem => Sys2Proof.Machine.execStreamAccessFault core stream elem s
  | .interlockWaitEnd sid => Sys2Proof.Machine.execInterlockWaitEnd sid s
  | .scopeAcknowledge core ctx entry => Sys2Proof.Machine.execScopeAcknowledge core ctx entry s
  | .atomicPerform sid item => Sys2Proof.Machine.execAtomicPerform sid item s
  | .atomicOldValueReturn sid reg => Sys2Proof.Machine.execAtomicOldValueReturn sid reg s
  | .heldWriteRelease line => Sys2Proof.Machine.execHeldWriteRelease line s
  | .vaccUpdatePerform sid item elem => Sys2Proof.Machine.execVaccUpdatePerform sid item elem s
  | .vamergeFold sid item => Sys2Proof.Machine.execVamergeFold sid item s
  | .watchedLineWrite core line => Sys2Proof.Machine.execWatchedLineWrite core line s
  | .qdlDeadlinePass sid => Sys2Proof.Machine.execQdlDeadlinePass sid s
  | .sleepExpiry sid => Sys2Proof.Machine.execSleepExpiry sid s
  | .barrierArrival sid => Sys2Proof.Machine.execBarrierArrival sid s
  | .l1LineInvalidate core line => Sys2Proof.Machine.execL1LineInvalidate core line s
  | .l2Eviction die line => Sys2Proof.Machine.execL2Eviction die line s
  | .tlbWalkComplete walk => Sys2Proof.Machine.execTlbWalkComplete walk s
  | .tlbInvalidatePerform inv => Sys2Proof.Machine.execTlbInvalidatePerform inv s
  | .replayPendingReplay core => Sys2Proof.Machine.execReplayPendingReplay core s
  | .fatalRecord gang sub pa => Sys2Proof.Machine.execFatalRecord gang sub pa s
  | .routerRecordWrite core => Sys2Proof.Machine.execRouterRecordWrite core s
  | .resumeGo core ctxn => Sys2Proof.Machine.execResumeGo core ctxn s
  | .resumeRedirect core ctxn => Sys2Proof.Machine.execResumeRedirect core ctxn s
  | .resumeKill core ctxn => Sys2Proof.Machine.execResumeKill core ctxn s
  | .contextSaveStart gang => Sys2Proof.Machine.execContextSaveStart gang s
  | .contextSaveComplete gang => Sys2Proof.Machine.execContextSaveComplete gang s
  | .saveBroken gang => Sys2Proof.Machine.execSaveBroken gang s
  | .contextRestore gang => Sys2Proof.Machine.execContextRestore gang s
  | .qwrWrite queue value => Sys2Proof.Machine.execQwrWrite queue value s
  | .dispatcherTakeRecord src => Sys2Proof.Machine.execDispatcherTakeRecord src s
  | .dispatchPlace => Sys2Proof.Machine.execDispatchPlace s
  | .preemptWaitExpiry src => Sys2Proof.Machine.execPreemptWaitExpiry src s
  | .reclaimTimeout gang => Sys2Proof.Machine.execReclaimTimeout gang s
  | .laneGrant gang => Sys2Proof.Machine.execLaneGrant gang s
  | .gangComplete gang => Sys2Proof.Machine.execGangComplete gang s
  | .clusterIdleEntry cluster => Sys2Proof.Machine.execClusterIdleEntry cluster s
  | .clusterWake cluster => Sys2Proof.Machine.execClusterWake cluster s
  | .clusterExitDone cluster => Sys2Proof.Machine.execClusterExitDone cluster s
  | .packageC4Entry => Sys2Proof.Machine.execPackageC4Entry s
  | .packageC4Exit => Sys2Proof.Machine.execPackageC4Exit s
  | .quiesceDrain cluster => Sys2Proof.Machine.execQuiesceDrain cluster s
  | .quiesceEvict cluster => Sys2Proof.Machine.execQuiesceEvict cluster s
  | .quiesceHold cluster => Sys2Proof.Machine.execQuiesceHold cluster s
  | .quiesceRelease cluster => Sys2Proof.Machine.execQuiesceRelease cluster s
  | .clusterQuiesced cluster => Sys2Proof.Machine.execClusterQuiesced cluster s
  | .clusterWakeWrite cluster value => Sys2Proof.Machine.execClusterWakeWrite cluster value s
  | .controlInterval watts => Sys2Proof.Machine.execControlInterval watts s
  | .fastLimiterSample watts => Sys2Proof.Machine.execFastLimiterSample watts s
  | .thermalControlInterval tmax slope => Sys2Proof.Machine.execThermalControlInterval tmax slope s
  | .thermalEmergency => Sys2Proof.Machine.execThermalEmergency s
  | .hardTrip => Sys2Proof.Machine.execHardTrip s
  | .peakClear => Sys2Proof.Machine.execPeakClear s
  | .aostatLogClear => Sys2Proof.Machine.execAostatLogClear s
  | .hbmCorrectedError stack => Sys2Proof.Machine.execHbmCorrectedError stack s
  | .hbmUncorrectableError stack pa => Sys2Proof.Machine.execHbmUncorrectableError stack pa s
  | .patrolScrub stack => Sys2Proof.Machine.execPatrolScrub stack s
  | .channelIdleLend stack chan => Sys2Proof.Machine.execChannelIdleLend stack chan s
  | .lendHandshakeDone stack chan => Sys2Proof.Machine.execLendHandshakeDone stack chan s
  | .lendReverse stack chan => Sys2Proof.Machine.execLendReverse stack chan s
  | .dieLinkLaneError link => Sys2Proof.Machine.execDieLinkLaneError link s
  | .linkRetrainDone link => Sys2Proof.Machine.execLinkRetrainDone link s
  | .hostAtomicop op size addr value cmp => Sys2Proof.Machine.execHostAtomicop op size addr value cmp s
  | .hostLinkDown => Sys2Proof.Machine.execHostLinkDown s
  | .hostLinkUp => Sys2Proof.Machine.execHostLinkUp s
  | .hotReset => Sys2Proof.Machine.execHotReset s
  | .flitReceive port flit => Sys2Proof.Machine.execFlitReceive port flit s
  | .flitNakReplay port good => Sys2Proof.Machine.execFlitNakReplay port good s
  | .flitReplayTimeout port => Sys2Proof.Machine.execFlitReplayTimeout port s
  | .laneErrorInterval port lane => Sys2Proof.Machine.execLaneErrorInterval port lane s
  | .portRetrainDone port => Sys2Proof.Machine.execPortRetrainDone port s
  | .portTrainingTimeout port => Sys2Proof.Machine.execPortTrainingTimeout port s
  | .fabricAccessArrival port kind size offset value => Sys2Proof.Machine.execFabricAccessArrival port kind size offset value s
  | .remoteLostDeferred sid => Sys2Proof.Machine.execRemoteLostDeferred sid s
  | .mctpMessage message => Sys2Proof.Machine.execMctpMessage message s
  | .tlbInvStart => Sys2Proof.Machine.execTlbInvStart s
  | .portDisable port => Sys2Proof.Machine.execPortDisable port s
  | .registerWrite addr size value => Sys2Proof.Machine.execRegisterWrite addr size value s
  | .packageReset => Sys2Proof.Machine.execPackageReset s
  | .firmwareVerifyDone ok => Sys2Proof.Machine.execFirmwareVerifyDone ok s
  | .dieLinksTrained failed => Sys2Proof.Machine.execDieLinksTrained failed s
  | .hostPortTrained => Sys2Proof.Machine.execHostPortTrained s
  | .hbmTrained failed => Sys2Proof.Machine.execHbmTrained failed s
  | .hostdnClear => Sys2Proof.Machine.execHostdnClear s
  | .lendDisable stack => Sys2Proof.Machine.execLendDisable stack s
  | .hostPostedWrite addr size value => Sys2Proof.Machine.execHostPostedWrite addr size value s
  | .read o => Sys2Proof.Machine.execRead o s
  | .mov o => Sys2Proof.Machine.execMov o s
  | .null o => Sys2Proof.Machine.execNull o s
  | .sel o => Sys2Proof.Machine.execSel o s
  | .movi o => Sys2Proof.Machine.execMovi o s
  | .orhi o => Sys2Proof.Machine.execOrhi o s
  | .lpci o => Sys2Proof.Machine.execLpci o s
  | .teq o => Sys2Proof.Machine.execTeq o s
  | .tne o => Sys2Proof.Machine.execTne o s
  | .tlt o => Sys2Proof.Machine.execTlt o s
  | .tltu o => Sys2Proof.Machine.execTltu o s
  | .tle o => Sys2Proof.Machine.execTle o s
  | .tleu o => Sys2Proof.Machine.execTleu o s
  | .tgt o => Sys2Proof.Machine.execTgt o s
  | .tgtu o => Sys2Proof.Machine.execTgtu o s
  | .tge o => Sys2Proof.Machine.execTge o s
  | .tgeu o => Sys2Proof.Machine.execTgeu o s
  | .tbit o => Sys2Proof.Machine.execTbit o s
  | .teqi o => Sys2Proof.Machine.execTeqi o s
  | .tnei o => Sys2Proof.Machine.execTnei o s
  | .tlti o => Sys2Proof.Machine.execTlti o s
  | .tltui o => Sys2Proof.Machine.execTltui o s
  | .tlei o => Sys2Proof.Machine.execTlei o s
  | .tleui o => Sys2Proof.Machine.execTleui o s
  | .tgti o => Sys2Proof.Machine.execTgti o s
  | .tgtui o => Sys2Proof.Machine.execTgtui o s
  | .tgei o => Sys2Proof.Machine.execTgei o s
  | .tgeui o => Sys2Proof.Machine.execTgeui o s
  | .tbiti o => Sys2Proof.Machine.execTbiti o s
  | .br o => Sys2Proof.Machine.execBr o s
  | .call o => Sys2Proof.Machine.execCall o s
  | .bro o => Sys2Proof.Machine.execBro o s
  | .callo o => Sys2Proof.Machine.execCallo o s
  | .halt o => Sys2Proof.Machine.execHalt o s
  | .yld o => Sys2Proof.Machine.execYld o s
  | .sys o => Sys2Proof.Machine.execSys o s
  | .brk o => Sys2Proof.Machine.execBrk o s
  | .spawn o => Sys2Proof.Machine.execSpawn o s
  | .bar o => Sys2Proof.Machine.execBar o s
  | .gid o => Sys2Proof.Machine.execGid o s
  | .gsize o => Sys2Proof.Machine.execGsize o s
  | .cid o => Sys2Proof.Machine.execCid o s
  | .sleep o => Sys2Proof.Machine.execSleep o s
  | .add o => Sys2Proof.Machine.execAdd o s
  | .sub o => Sys2Proof.Machine.execSub o s
  | .mul o => Sys2Proof.Machine.execMul o s
  | .mulh o => Sys2Proof.Machine.execMulh o s
  | .mulhu o => Sys2Proof.Machine.execMulhu o s
  | .div o => Sys2Proof.Machine.execDiv o s
  | .divu o => Sys2Proof.Machine.execDivu o s
  | .rem o => Sys2Proof.Machine.execRem o s
  | .remu o => Sys2Proof.Machine.execRemu o s
  | .and o => Sys2Proof.Machine.execAnd o s
  | .or o => Sys2Proof.Machine.execOr o s
  | .xor o => Sys2Proof.Machine.execXor o s
  | .andn o => Sys2Proof.Machine.execAndn o s
  | .shl o => Sys2Proof.Machine.execShl o s
  | .shr o => Sys2Proof.Machine.execShr o s
  | .sra o => Sys2Proof.Machine.execSra o s
  | .rotl o => Sys2Proof.Machine.execRotl o s
  | .rotr o => Sys2Proof.Machine.execRotr o s
  | .min o => Sys2Proof.Machine.execMin o s
  | .max o => Sys2Proof.Machine.execMax o s
  | .minu o => Sys2Proof.Machine.execMinu o s
  | .maxu o => Sys2Proof.Machine.execMaxu o s
  | .clz o => Sys2Proof.Machine.execClz o s
  | .ctz o => Sys2Proof.Machine.execCtz o s
  | .popc o => Sys2Proof.Machine.execPopc o s
  | .sextb o => Sys2Proof.Machine.execSextb o s
  | .sexth o => Sys2Proof.Machine.execSexth o s
  | .sextw o => Sys2Proof.Machine.execSextw o s
  | .zextb o => Sys2Proof.Machine.execZextb o s
  | .zexth o => Sys2Proof.Machine.execZexth o s
  | .zextw o => Sys2Proof.Machine.execZextw o s
  | .abs o => Sys2Proof.Machine.execAbs o s
  | .addi o => Sys2Proof.Machine.execAddi o s
  | .andi o => Sys2Proof.Machine.execAndi o s
  | .ori o => Sys2Proof.Machine.execOri o s
  | .xori o => Sys2Proof.Machine.execXori o s
  | .shli o => Sys2Proof.Machine.execShli o s
  | .shri o => Sys2Proof.Machine.execShri o s
  | .srai o => Sys2Proof.Machine.execSrai o s
  | .rotli o => Sys2Proof.Machine.execRotli o s
  | .muli o => Sys2Proof.Machine.execMuli o s
  | .leai o => Sys2Proof.Machine.execLeai o s
  | .faddS o => Sys2Proof.Machine.execFaddS o s
  | .fsubS o => Sys2Proof.Machine.execFsubS o s
  | .fmulS o => Sys2Proof.Machine.execFmulS o s
  | .fdivS o => Sys2Proof.Machine.execFdivS o s
  | .fsqrtS o => Sys2Proof.Machine.execFsqrtS o s
  | .fmaS o => Sys2Proof.Machine.execFmaS o s
  | .fminS o => Sys2Proof.Machine.execFminS o s
  | .fmaxS o => Sys2Proof.Machine.execFmaxS o s
  | .frsqrtS o => Sys2Proof.Machine.execFrsqrtS o s
  | .fcvtfiS o => Sys2Proof.Machine.execFcvtfiS o s
  | .fcvtifS o => Sys2Proof.Machine.execFcvtifS o s
  | .fcvtffS o => Sys2Proof.Machine.execFcvtffS o s
  | .fteqS o => Sys2Proof.Machine.execFteqS o s
  | .ftltS o => Sys2Proof.Machine.execFtltS o s
  | .ftleS o => Sys2Proof.Machine.execFtleS o s
  | .fclassS o => Sys2Proof.Machine.execFclassS o s
  | .faddD o => Sys2Proof.Machine.execFaddD o s
  | .fsubD o => Sys2Proof.Machine.execFsubD o s
  | .fmulD o => Sys2Proof.Machine.execFmulD o s
  | .fdivD o => Sys2Proof.Machine.execFdivD o s
  | .fsqrtD o => Sys2Proof.Machine.execFsqrtD o s
  | .fmaD o => Sys2Proof.Machine.execFmaD o s
  | .fminD o => Sys2Proof.Machine.execFminD o s
  | .fmaxD o => Sys2Proof.Machine.execFmaxD o s
  | .frsqrtD o => Sys2Proof.Machine.execFrsqrtD o s
  | .fcvtfiD o => Sys2Proof.Machine.execFcvtfiD o s
  | .fcvtifD o => Sys2Proof.Machine.execFcvtifD o s
  | .fcvtffD o => Sys2Proof.Machine.execFcvtffD o s
  | .fteqD o => Sys2Proof.Machine.execFteqD o s
  | .ftltD o => Sys2Proof.Machine.execFtltD o s
  | .ftleD o => Sys2Proof.Machine.execFtleD o s
  | .fclassD o => Sys2Proof.Machine.execFclassD o s
  | .ldb o => Sys2Proof.Machine.execLdb o s
  | .ldbu o => Sys2Proof.Machine.execLdbu o s
  | .ldh o => Sys2Proof.Machine.execLdh o s
  | .ldhu o => Sys2Proof.Machine.execLdhu o s
  | .ldw o => Sys2Proof.Machine.execLdw o s
  | .ldwu o => Sys2Proof.Machine.execLdwu o s
  | .ldd o => Sys2Proof.Machine.execLdd o s
  | .stb o => Sys2Proof.Machine.execStb o s
  | .sth o => Sys2Proof.Machine.execSth o s
  | .stw o => Sys2Proof.Machine.execStw o s
  | .std o => Sys2Proof.Machine.execStd o s
  | .stqw o => Sys2Proof.Machine.execStqw o s
  | .stqd o => Sys2Proof.Machine.execStqd o s
  | .aadd o => Sys2Proof.Machine.execAadd o s
  | .aand o => Sys2Proof.Machine.execAand o s
  | .aor o => Sys2Proof.Machine.execAor o s
  | .axor o => Sys2Proof.Machine.execAxor o s
  | .amin o => Sys2Proof.Machine.execAmin o s
  | .amax o => Sys2Proof.Machine.execAmax o s
  | .aminu o => Sys2Proof.Machine.execAminu o s
  | .amaxu o => Sys2Proof.Machine.execAmaxu o s
  | .aswap o => Sys2Proof.Machine.execAswap o s
  | .acas o => Sys2Proof.Machine.execAcas o s
  | .ainc o => Sys2Proof.Machine.execAinc o s
  | .abfa o => Sys2Proof.Machine.execAbfa o s
  | .aaddw o => Sys2Proof.Machine.execAaddw o s
  | .acasw o => Sys2Proof.Machine.execAcasw o s
  | .aincw o => Sys2Proof.Machine.execAincw o s
  | .fenceAcq o => Sys2Proof.Machine.execFenceAcq o s
  | .fenceRel o => Sys2Proof.Machine.execFenceRel o s
  | .fenceAr o => Sys2Proof.Machine.execFenceAr o s
  | .fenceSc o => Sys2Proof.Machine.execFenceSc o s
  | .scopeSet o => Sys2Proof.Machine.execScopeSet o s
  | .scopeGet o => Sys2Proof.Machine.execScopeGet o s
  | .scopeInv o => Sys2Proof.Machine.execScopeInv o s
  | .scopeGen o => Sys2Proof.Machine.execScopeGen o s
  | .qtime o => Sys2Proof.Machine.execQtime o s
  | .qlocal o => Sys2Proof.Machine.execQlocal o s
  | .qdl o => Sys2Proof.Machine.execQdl o s
  | .qper o => Sys2Proof.Machine.execQper o s
  | .ctlRd o => Sys2Proof.Machine.execCtlRd o s
  | .ctlWr o => Sys2Proof.Machine.execCtlWr o s
  | .tret o => Sys2Proof.Machine.execTret o s
  | .tlbInv o => Sys2Proof.Machine.execTlbInv o s
  | .ctxSave o => Sys2Proof.Machine.execCtxSave o s
  | .ctxLoad o => Sys2Proof.Machine.execCtxLoad o s
  | .vlset o => Sys2Proof.Machine.execVlset o s
  | .vlget o => Sys2Proof.Machine.execVlget o s
  | .vlmax o => Sys2Proof.Machine.execVlmax o s
  | .vrel o => Sys2Proof.Machine.execVrel o s
  | .vgrant o => Sys2Proof.Machine.execVgrant o s
  | .vawin o => Sys2Proof.Machine.execVawin o s
  | .vamerge o => Sys2Proof.Machine.execVamerge o s
  | .vawclr o => Sys2Proof.Machine.execVawclr o s
  | .cpsCfg o => Sys2Proof.Machine.execCpsCfg o s
  | .cpsGo o => Sys2Proof.Machine.execCpsGo o s
  | .cpsStep o => Sys2Proof.Machine.execCpsStep o s
  | .cpsAvail o => Sys2Proof.Machine.execCpsAvail o s
  | .cpsWait o => Sys2Proof.Machine.execCpsWait o s
  | .cpsKill o => Sys2Proof.Machine.execCpsKill o s
  | .cMov o => Sys2Proof.Machine.execCMov o s
  | .cNull o => Sys2Proof.Machine.execCNull o s
  | .cInc o => Sys2Proof.Machine.execCInc o s
  | .cDec o => Sys2Proof.Machine.execCDec o s
  | .cNot o => Sys2Proof.Machine.execCNot o s
  | .cNeg o => Sys2Proof.Machine.execCNeg o s
  | .cZextw o => Sys2Proof.Machine.execCZextw o s
  | .cSextw o => Sys2Proof.Machine.execCSextw o s
  | .cZero o => Sys2Proof.Machine.execCZero o s
  | .cOne o => Sys2Proof.Machine.execCOne o s
  | .vadd o => Sys2Proof.Machine.execVadd o s
  | .vsub o => Sys2Proof.Machine.execVsub o s
  | .vrsub o => Sys2Proof.Machine.execVrsub o s
  | .vmul o => Sys2Proof.Machine.execVmul o s
  | .vmulh o => Sys2Proof.Machine.execVmulh o s
  | .vmadd o => Sys2Proof.Machine.execVmadd o s
  | .vmsub o => Sys2Proof.Machine.execVmsub o s
  | .vnmadd o => Sys2Proof.Machine.execVnmadd o s
  | .vdiv o => Sys2Proof.Machine.execVdiv o s
  | .vrem o => Sys2Proof.Machine.execVrem o s
  | .vsqrt o => Sys2Proof.Machine.execVsqrt o s
  | .vrsqrt o => Sys2Proof.Machine.execVrsqrt o s
  | .vrecip o => Sys2Proof.Machine.execVrecip o s
  | .vmin o => Sys2Proof.Machine.execVmin o s
  | .vmax o => Sys2Proof.Machine.execVmax o s
  | .vabs o => Sys2Proof.Machine.execVabs o s
  | .vand o => Sys2Proof.Machine.execVand o s
  | .vor o => Sys2Proof.Machine.execVor o s
  | .vxor o => Sys2Proof.Machine.execVxor o s
  | .vnot o => Sys2Proof.Machine.execVnot o s
  | .vshl o => Sys2Proof.Machine.execVshl o s
  | .vshr o => Sys2Proof.Machine.execVshr o s
  | .vsra o => Sys2Proof.Machine.execVsra o s
  | .vneg o => Sys2Proof.Machine.execVneg o s
  | .vsadd o => Sys2Proof.Machine.execVsadd o s
  | .vssub o => Sys2Proof.Machine.execVssub o s
  | .vaadd o => Sys2Proof.Machine.execVaadd o s
  | .vsmul o => Sys2Proof.Machine.execVsmul o s
  | .vnclip o => Sys2Proof.Machine.execVnclip o s
  | .vnsra o => Sys2Proof.Machine.execVnsra o s
  | .vclass o => Sys2Proof.Machine.execVclass o s
  | .vcvt o => Sys2Proof.Machine.execVcvt o s
  | .vcvtmx o => Sys2Proof.Machine.execVcvtmx o s
  | .vmerge o => Sys2Proof.Machine.execVmerge o s
  | .vid o => Sys2Proof.Machine.execVid o s
  | .vperm o => Sys2Proof.Machine.execVperm o s
  | .vslup o => Sys2Proof.Machine.execVslup o s
  | .vsldn o => Sys2Proof.Machine.execVsldn o s
  | .vcompress o => Sys2Proof.Machine.execVcompress o s
  | .vceq o => Sys2Proof.Machine.execVceq o s
  | .vcne o => Sys2Proof.Machine.execVcne o s
  | .vclt o => Sys2Proof.Machine.execVclt o s
  | .vcle o => Sys2Proof.Machine.execVcle o s
  | .vcgt o => Sys2Proof.Machine.execVcgt o s
  | .vcge o => Sys2Proof.Machine.execVcge o s
  | .vcun o => Sys2Proof.Machine.execVcun o s
  | .vrsum o => Sys2Proof.Machine.execVrsum o s
  | .vrosum o => Sys2Proof.Machine.execVrosum o s
  | .vrmax o => Sys2Proof.Machine.execVrmax o s
  | .vrmin o => Sys2Proof.Machine.execVrmin o s
  | .vrand o => Sys2Proof.Machine.execVrand o s
  | .vror o => Sys2Proof.Machine.execVror o s
  | .vrxor o => Sys2Proof.Machine.execVrxor o s
  | .vrsummx o => Sys2Proof.Machine.execVrsummx o s
  | .vadds o => Sys2Proof.Machine.execVadds o s
  | .vsubs o => Sys2Proof.Machine.execVsubs o s
  | .vmuls o => Sys2Proof.Machine.execVmuls o s
  | .vmadds o => Sys2Proof.Machine.execVmadds o s
  | .vmins o => Sys2Proof.Machine.execVmins o s
  | .vmaxs o => Sys2Proof.Machine.execVmaxs o s
  | .vshls o => Sys2Proof.Machine.execVshls o s
  | .vbcast o => Sys2Proof.Machine.execVbcast o s
  | .vext o => Sys2Proof.Machine.execVext o s
  | .vcnt o => Sys2Proof.Machine.execVcnt o s
  | .mpop o => Sys2Proof.Machine.execMpop o s
  | .mfirst o => Sys2Proof.Machine.execMfirst o s
  | .vins o => Sys2Proof.Machine.execVins o s
  | .mand o => Sys2Proof.Machine.execMand o s
  | .mor o => Sys2Proof.Machine.execMor o s
  | .mxor o => Sys2Proof.Machine.execMxor o s
  | .mandn o => Sys2Proof.Machine.execMandn o s
  | .mnot o => Sys2Proof.Machine.execMnot o s
  | .mset o => Sys2Proof.Machine.execMset o s
  | .mclr o => Sys2Proof.Machine.execMclr o s
  | .mfromv o => Sys2Proof.Machine.execMfromv o s
  | .vld o => Sys2Proof.Machine.execVld o s
  | .vlds o => Sys2Proof.Machine.execVlds o s
  | .vldx o => Sys2Proof.Machine.execVldx o s
  | .vldseg o => Sys2Proof.Machine.execVldseg o s
  | .vldff o => Sys2Proof.Machine.execVldff o s
  | .vldxo o => Sys2Proof.Machine.execVldxo o s
  | .vldmx o => Sys2Proof.Machine.execVldmx o s
  | .vldcs o => Sys2Proof.Machine.execVldcs o s
  | .vst o => Sys2Proof.Machine.execVst o s
  | .vsts o => Sys2Proof.Machine.execVsts o s
  | .vstx o => Sys2Proof.Machine.execVstx o s
  | .vstseg o => Sys2Proof.Machine.execVstseg o s
  | .vstxo o => Sys2Proof.Machine.execVstxo o s
  | .vsto o => Sys2Proof.Machine.execVsto o s
  | .vstmx o => Sys2Proof.Machine.execVstmx o s
  | .vgl o => Sys2Proof.Machine.execVgl o s
  | .vsc o => Sys2Proof.Machine.execVsc o s
  | .vacc o => Sys2Proof.Machine.execVacc o s
  | .vwait o => Sys2Proof.Machine.execVwait o s
  | .mshape o => Sys2Proof.Machine.execMshape o s
  | .mzero o => Sys2Proof.Machine.execMzero o s
  | .mop o => Sys2Proof.Machine.execMop o s
  | .mopmx o => Sys2Proof.Machine.execMopmx o s
  | .mopd o => Sys2Proof.Machine.execMopd o s
  | .mld o => Sys2Proof.Machine.execMld o s
  | .mst o => Sys2Proof.Machine.execMst o s
  | .mrowv o => Sys2Proof.Machine.execMrowv o s
  | .mvrow o => Sys2Proof.Machine.execMvrow o s
  | .mcolv o => Sys2Proof.Machine.execMcolv o s

end Sys2Proof.Machine
end

