-- ==== Sys2Proof/Machine/Views.lean ====
section
/-! DEFINITION. The execution of a word that the running code can make: `exec` of the instruction that a word encodes, taken from its view, since
compiled code cannot build a value of a type with so many constructors. `fireRaw_eq` shows that the two agree. -/

namespace Sys2Proof.Machine

open Sys2Proof

/-- The execution of the operations of `mkA1B`. -/
def runA1B (n : Nat) (o : AOp) (s : State) : Option Out :=
  match n with
  | 0 => some (execAadd o s)
  | 1 => some (execAand o s)
  | 2 => some (execAor o s)
  | 3 => some (execAxor o s)
  | 4 => some (execAmin o s)
  | 5 => some (execAmax o s)
  | 6 => some (execAminu o s)
  | 7 => some (execAmaxu o s)
  | 8 => some (execAswap o s)
  | 10 => some (execAinc o s)
  | 12 => some (execAaddw o s)
  | 14 => some (execAincw o s)
  | _ => none
theorem runA1B_eq (n : Nat) (o : AOp) (s : State) : runA1B n o s = (mkA1B n).map fun f => exec (f o) s := by
  unfold runA1B mkA1B; split <;> first | rfl | simp_all

/-- The execution of the operations of `mkA1C`. -/
def runA1C (n : Nat) (o : AOp) (s : State) : Option Out :=
  match n with
  | 0 => some (execFenceAcq o s)
  | 1 => some (execFenceRel o s)
  | 2 => some (execFenceAr o s)
  | 3 => some (execFenceSc o s)
  | 4 => some (execScopeSet o s)
  | 5 => some (execScopeGet o s)
  | 6 => some (execScopeInv o s)
  | 7 => some (execScopeGen o s)
  | _ => none
theorem runA1C_eq (n : Nat) (o : AOp) (s : State) : runA1C n o s = (mkA1C n).map fun f => exec (f o) s := by
  unfold runA1C mkA1C; split <;> first | rfl | simp_all

/-- The execution of the operations of `mkA3`. -/
def runA3 (n : Nat) (o : A3Op) (s : State) : Option Out :=
  match n with
  | 9 => some (execAcas o s)
  | 11 => some (execAbfa o s)
  | 13 => some (execAcasw o s)
  | _ => none
theorem runA3_eq (n : Nat) (o : A3Op) (s : State) : runA3 n o s = (mkA3 n).map fun f => exec (f o) s := by
  unfold runA3 mkA3; split <;> first | rfl | simp_all

/-- The execution of the operations of `mkB`. -/
def runB (n : Nat) (o : BOp) (s : State) : Option Out :=
  match n with
  | 7 => some (execBr o s)
  | 8 => some (execCall o s)
  | _ => none
theorem runB_eq (n : Nat) (o : BOp) (s : State) : runB n o s = (mkB n).map fun f => exec (f o) s := by
  unfold runB mkB; split <;> first | rfl | simp_all

/-- The execution of the operations of `mkBX`. -/
def runBX (n : Nat) (o : BXOp) (s : State) : Option Out :=
  match n with
  | 0 => some (execBro o s)
  | 1 => some (execCallo o s)
  | 2 => some (execHalt o s)
  | 3 => some (execYld o s)
  | 4 => some (execSys o s)
  | 5 => some (execBrk o s)
  | _ => none
theorem runBX_eq (n : Nat) (o : BXOp) (s : State) : runBX n o s = (mkBX n).map fun f => exec (f o) s := by
  unfold runBX mkBX; split <;> first | rfl | simp_all

/-- The execution of the operations of `mkC`. -/
def runC (n : Nat) (o : COp) (s : State) : Option Out :=
  match n with
  | 0 => some (execCMov o s)
  | 1 => some (execCNull o s)
  | 2 => some (execCInc o s)
  | 3 => some (execCDec o s)
  | 4 => some (execCNot o s)
  | 5 => some (execCNeg o s)
  | 6 => some (execCZextw o s)
  | 7 => some (execCSextw o s)
  | 8 => some (execCZero o s)
  | 9 => some (execCOne o s)
  | _ => none
theorem runC_eq (n : Nat) (o : COp) (s : State) : runC n o s = (mkC n).map fun f => exec (f o) s := by
  unfold runC mkC; split <;> first | rfl | simp_all

/-- The execution of the operations of `mkCP`. -/
def runCP (n : Nat) (o : CPOp) (s : State) : Option Out :=
  match n with
  | 0 => some (execCpsCfg o s)
  | 1 => some (execCpsGo o s)
  | 2 => some (execCpsStep o s)
  | 3 => some (execCpsAvail o s)
  | 4 => some (execCpsWait o s)
  | 5 => some (execCpsKill o s)
  | _ => none
theorem runCP_eq (n : Nat) (o : CPOp) (s : State) : runCP n o s = (mkCP n).map fun f => exec (f o) s := by
  unfold runCP mkCP; split <;> first | rfl | simp_all

/-- The execution of the operations of `mkG02`. -/
def runG02 (n : Nat) (o : GOp) (s : State) : Option Out :=
  match n with
  | 0 => some (execMov o s)
  | 1 => some (execNull o s)
  | _ => none
theorem runG02_eq (n : Nat) (o : GOp) (s : State) : runG02 n o s = (mkG02 n).map fun f => exec (f o) s := by
  unfold runG02 mkG02; split <;> first | rfl | simp_all

/-- The execution of the operations of `mkG05`. -/
def runG05 (n : Nat) (o : GOp) (s : State) : Option Out :=
  match n with
  | 0 => some (execTeq o s)
  | 1 => some (execTne o s)
  | 2 => some (execTlt o s)
  | 3 => some (execTltu o s)
  | 4 => some (execTle o s)
  | 5 => some (execTleu o s)
  | 6 => some (execTgt o s)
  | 7 => some (execTgtu o s)
  | 8 => some (execTge o s)
  | 9 => some (execTgeu o s)
  | 10 => some (execTbit o s)
  | _ => none
theorem runG05_eq (n : Nat) (o : GOp) (s : State) : runG05 n o s = (mkG05 n).map fun f => exec (f o) s := by
  unfold runG05 mkG05; split <;> first | rfl | simp_all

/-- The execution of the operations of `mkG0A`. -/
def runG0A (n : Nat) (o : GOp) (s : State) : Option Out :=
  match n with
  | 0 => some (execSpawn o s)
  | 1 => some (execBar o s)
  | 2 => some (execGid o s)
  | 3 => some (execGsize o s)
  | 4 => some (execCid o s)
  | 5 => some (execSleep o s)
  | _ => none
theorem runG0A_eq (n : Nat) (o : GOp) (s : State) : runG0A n o s = (mkG0A n).map fun f => exec (f o) s := by
  unfold runG0A mkG0A; split <;> first | rfl | simp_all

/-- The execution of the operations of `mkG10`. -/
def runG10 (n : Nat) (o : GOp) (s : State) : Option Out :=
  match n with
  | 0 => some (execAdd o s)
  | 1 => some (execSub o s)
  | 2 => some (execMul o s)
  | 3 => some (execMulh o s)
  | 4 => some (execMulhu o s)
  | 5 => some (execDiv o s)
  | 6 => some (execDivu o s)
  | 7 => some (execRem o s)
  | 8 => some (execRemu o s)
  | 9 => some (execAnd o s)
  | 10 => some (execOr o s)
  | 11 => some (execXor o s)
  | 12 => some (execAndn o s)
  | 13 => some (execShl o s)
  | 14 => some (execShr o s)
  | 15 => some (execSra o s)
  | _ => none
theorem runG10_eq (n : Nat) (o : GOp) (s : State) : runG10 n o s = (mkG10 n).map fun f => exec (f o) s := by
  unfold runG10 mkG10; split <;> first | rfl | simp_all

/-- The execution of the operations of `mkG11`. -/
def runG11 (n : Nat) (o : GOp) (s : State) : Option Out :=
  match n with
  | 0 => some (execRotl o s)
  | 1 => some (execRotr o s)
  | 2 => some (execMin o s)
  | 3 => some (execMax o s)
  | 4 => some (execMinu o s)
  | 5 => some (execMaxu o s)
  | 6 => some (execClz o s)
  | 7 => some (execCtz o s)
  | 8 => some (execPopc o s)
  | 9 => some (execSextb o s)
  | 10 => some (execSexth o s)
  | 11 => some (execSextw o s)
  | 12 => some (execZextb o s)
  | 13 => some (execZexth o s)
  | 14 => some (execZextw o s)
  | 15 => some (execAbs o s)
  | _ => none
theorem runG11_eq (n : Nat) (o : GOp) (s : State) : runG11 n o s = (mkG11 n).map fun f => exec (f o) s := by
  unfold runG11 mkG11; split <;> first | rfl | simp_all

/-- The execution of the operations of `mkG17`. -/
def runG17 (n : Nat) (o : GOp) (s : State) : Option Out :=
  match n with
  | 0 => some (execFaddS o s)
  | 1 => some (execFsubS o s)
  | 2 => some (execFmulS o s)
  | 3 => some (execFdivS o s)
  | 4 => some (execFsqrtS o s)
  | 6 => some (execFminS o s)
  | 7 => some (execFmaxS o s)
  | 8 => some (execFrsqrtS o s)
  | 9 => some (execFcvtfiS o s)
  | 10 => some (execFcvtifS o s)
  | 11 => some (execFcvtffS o s)
  | 12 => some (execFteqS o s)
  | 13 => some (execFtltS o s)
  | 14 => some (execFtleS o s)
  | 15 => some (execFclassS o s)
  | _ => none
theorem runG17_eq (n : Nat) (o : GOp) (s : State) : runG17 n o s = (mkG17 n).map fun f => exec (f o) s := by
  unfold runG17 mkG17; split <;> first | rfl | simp_all

/-- The execution of the operations of `mkG18`. -/
def runG18 (n : Nat) (o : GOp) (s : State) : Option Out :=
  match n with
  | 0 => some (execFaddD o s)
  | 1 => some (execFsubD o s)
  | 2 => some (execFmulD o s)
  | 3 => some (execFdivD o s)
  | 4 => some (execFsqrtD o s)
  | 6 => some (execFminD o s)
  | 7 => some (execFmaxD o s)
  | 8 => some (execFrsqrtD o s)
  | 9 => some (execFcvtfiD o s)
  | 10 => some (execFcvtifD o s)
  | 11 => some (execFcvtffD o s)
  | 12 => some (execFteqD o s)
  | 13 => some (execFtltD o s)
  | 14 => some (execFtleD o s)
  | 15 => some (execFclassD o s)
  | _ => none
theorem runG18_eq (n : Nat) (o : GOp) (s : State) : runG18 n o s = (mkG18 n).map fun f => exec (f o) s := by
  unfold runG18 mkG18; split <;> first | rfl | simp_all

/-- The execution of the operations of `mkG1D`. -/
def runG1D (n : Nat) (o : GOp) (s : State) : Option Out :=
  match n with
  | 0 => some (execQtime o s)
  | 1 => some (execQlocal o s)
  | 2 => some (execQdl o s)
  | 3 => some (execQper o s)
  | _ => none
theorem runG1D_eq (n : Nat) (o : GOp) (s : State) : runG1D n o s = (mkG1D n).map fun f => exec (f o) s := by
  unfold runG1D mkG1D; split <;> first | rfl | simp_all

/-- The execution of the operations of `mkG1E`. -/
def runG1E (n : Nat) (o : GOp) (s : State) : Option Out :=
  match n with
  | 0 => some (execCtlRd o s)
  | 1 => some (execCtlWr o s)
  | 2 => some (execTret o s)
  | 3 => some (execTlbInv o s)
  | 4 => some (execCtxSave o s)
  | 5 => some (execCtxLoad o s)
  | _ => none
theorem runG1E_eq (n : Nat) (o : GOp) (s : State) : runG1E n o s = (mkG1E n).map fun f => exec (f o) s := by
  unfold runG1E mkG1E; split <;> first | rfl | simp_all

/-- The execution of the operations of `mkG2A`. -/
def runG2A (n : Nat) (o : GOp) (s : State) : Option Out :=
  match n with
  | 0 => some (execVlset o s)
  | 1 => some (execVlget o s)
  | 2 => some (execVlmax o s)
  | 3 => some (execVrel o s)
  | 4 => some (execVgrant o s)
  | _ => none
theorem runG2A_eq (n : Nat) (o : GOp) (s : State) : runG2A n o s = (mkG2A n).map fun f => exec (f o) s := by
  unfold runG2A mkG2A; split <;> first | rfl | simp_all

/-- The execution of the operations of `mkG2F`. -/
def runG2F (n : Nat) (o : GOp) (s : State) : Option Out :=
  match n with
  | 0 => some (execVawin o s)
  | 1 => some (execVamerge o s)
  | 2 => some (execVawclr o s)
  | _ => none
theorem runG2F_eq (n : Nat) (o : GOp) (s : State) : runG2F n o s = (mkG2F n).map fun f => exec (f o) s := by
  unfold runG2F mkG2F; split <;> first | rfl | simp_all

/-- The execution of the operations of `mkG302`. -/
def runG302 (n : Nat) (o : G3Op) (s : State) : Option Out :=
  match n with
  | 2 => some (execSel o s)
  | _ => none
theorem runG302_eq (n : Nat) (o : G3Op) (s : State) : runG302 n o s = (mkG302 n).map fun f => exec (f o) s := by
  unfold runG302 mkG302; split <;> first | rfl | simp_all

/-- The execution of the operations of `mkG317`. -/
def runG317 (n : Nat) (o : G3Op) (s : State) : Option Out :=
  match n with
  | 5 => some (execFmaS o s)
  | _ => none
theorem runG317_eq (n : Nat) (o : G3Op) (s : State) : runG317 n o s = (mkG317 n).map fun f => exec (f o) s := by
  unfold runG317 mkG317; split <;> first | rfl | simp_all

/-- The execution of the operations of `mkG318`. -/
def runG318 (n : Nat) (o : G3Op) (s : State) : Option Out :=
  match n with
  | 5 => some (execFmaD o s)
  | _ => none
theorem runG318_eq (n : Nat) (o : G3Op) (s : State) : runG318 n o s = (mkG318 n).map fun f => exec (f o) s := by
  unfold runG318 mkG318; split <;> first | rfl | simp_all

/-- The execution of the operations of `mkI`. -/
def runI (n : Nat) (o : IOp) (s : State) : Option Out :=
  match n with
  | 3 => some (execMovi o s)
  | 4 => some (execOrhi o s)
  | 11 => some (execLpci o s)
  | 18 => some (execAddi o s)
  | 19 => some (execAndi o s)
  | 20 => some (execOri o s)
  | 21 => some (execXori o s)
  | _ => none
theorem runI_eq (n : Nat) (o : IOp) (s : State) : runI n o s = (mkI n).map fun f => exec (f o) s := by
  unfold runI mkI; split <;> first | rfl | simp_all

/-- The execution of the operations of `mkIT06`. -/
def runIT06 (n : Nat) (o : ITOp) (s : State) : Option Out :=
  match n with
  | 0 => some (execTeqi o s)
  | 1 => some (execTnei o s)
  | 2 => some (execTlti o s)
  | 3 => some (execTltui o s)
  | 4 => some (execTlei o s)
  | 5 => some (execTleui o s)
  | 6 => some (execTgti o s)
  | 7 => some (execTgtui o s)
  | 8 => some (execTgei o s)
  | 9 => some (execTgeui o s)
  | 10 => some (execTbiti o s)
  | _ => none
theorem runIT06_eq (n : Nat) (o : ITOp) (s : State) : runIT06 n o s = (mkIT06 n).map fun f => exec (f o) s := by
  unfold runIT06 mkIT06; split <;> first | rfl | simp_all

/-- The execution of the operations of `mkIT16`. -/
def runIT16 (n : Nat) (o : ITOp) (s : State) : Option Out :=
  match n with
  | 0 => some (execShli o s)
  | 1 => some (execShri o s)
  | 2 => some (execSrai o s)
  | 3 => some (execRotli o s)
  | 4 => some (execMuli o s)
  | 5 => some (execLeai o s)
  | _ => none
theorem runIT16_eq (n : Nat) (o : ITOp) (s : State) : runIT16 n o s = (mkIT16 n).map fun f => exec (f o) s := by
  unfold runIT16 mkIT16; split <;> first | rfl | simp_all

/-- The execution of the operations of `mkL19`. -/
def runL19 (n : Nat) (o : MOp) (s : State) : Option Out :=
  match n with
  | 0 => some (execLdb o s)
  | 1 => some (execLdbu o s)
  | 2 => some (execLdh o s)
  | 3 => some (execLdhu o s)
  | 4 => some (execLdw o s)
  | 5 => some (execLdwu o s)
  | 6 => some (execLdd o s)
  | _ => none
theorem runL19_eq (n : Nat) (o : MOp) (s : State) : runL19 n o s = (mkL19 n).map fun f => exec (f o) s := by
  unfold runL19 mkL19; split <;> first | rfl | simp_all

/-- The execution of the operations of `mkL1A`. -/
def runL1A (n : Nat) (o : MOp) (s : State) : Option Out :=
  match n with
  | 0 => some (execStb o s)
  | 1 => some (execSth o s)
  | 2 => some (execStw o s)
  | 3 => some (execStd o s)
  | 5 => some (execStqw o s)
  | 6 => some (execStqd o s)
  | _ => none
theorem runL1A_eq (n : Nat) (o : MOp) (s : State) : runL1A n o s = (mkL1A n).map fun f => exec (f o) s := by
  unfold runL1A mkL1A; split <;> first | rfl | simp_all

/-- The execution of the operations of `mkT`. -/
def runT (n : Nat) (o : TOp) (s : State) : Option Out :=
  match n with
  | 0 => some (execMshape o s)
  | 1 => some (execMzero o s)
  | 2 => some (execMop o s)
  | 3 => some (execMopmx o s)
  | 4 => some (execMopd o s)
  | 5 => some (execMld o s)
  | 6 => some (execMst o s)
  | 7 => some (execMrowv o s)
  | 8 => some (execMvrow o s)
  | 9 => some (execMcolv o s)
  | _ => none
theorem runT_eq (n : Nat) (o : TOp) (s : State) : runT n o s = (mkT n).map fun f => exec (f o) s := by
  unfold runT mkT; split <;> first | rfl | simp_all

/-- The execution of the operations of `mkV20`. -/
def runV20 (n : Nat) (o : VOp) (s : State) : Option Out :=
  match n with
  | 0 => some (execVadd o s)
  | 1 => some (execVsub o s)
  | 2 => some (execVrsub o s)
  | 3 => some (execVmul o s)
  | 4 => some (execVmulh o s)
  | 5 => some (execVmadd o s)
  | 6 => some (execVmsub o s)
  | 7 => some (execVnmadd o s)
  | _ => none
theorem runV20_eq (n : Nat) (o : VOp) (s : State) : runV20 n o s = (mkV20 n).map fun f => exec (f o) s := by
  unfold runV20 mkV20; split <;> first | rfl | simp_all

/-- The execution of the operations of `mkV21`. -/
def runV21 (n : Nat) (o : VOp) (s : State) : Option Out :=
  match n with
  | 0 => some (execVdiv o s)
  | 1 => some (execVrem o s)
  | 2 => some (execVsqrt o s)
  | 3 => some (execVrsqrt o s)
  | 4 => some (execVrecip o s)
  | 5 => some (execVmin o s)
  | 6 => some (execVmax o s)
  | 7 => some (execVabs o s)
  | _ => none
theorem runV21_eq (n : Nat) (o : VOp) (s : State) : runV21 n o s = (mkV21 n).map fun f => exec (f o) s := by
  unfold runV21 mkV21; split <;> first | rfl | simp_all

/-- The execution of the operations of `mkV22`. -/
def runV22 (n : Nat) (o : VOp) (s : State) : Option Out :=
  match n with
  | 0 => some (execVand o s)
  | 1 => some (execVor o s)
  | 2 => some (execVxor o s)
  | 3 => some (execVnot o s)
  | 4 => some (execVshl o s)
  | 5 => some (execVshr o s)
  | 6 => some (execVsra o s)
  | 7 => some (execVneg o s)
  | _ => none
theorem runV22_eq (n : Nat) (o : VOp) (s : State) : runV22 n o s = (mkV22 n).map fun f => exec (f o) s := by
  unfold runV22 mkV22; split <;> first | rfl | simp_all

/-- The execution of the operations of `mkV23`. -/
def runV23 (n : Nat) (o : VOp) (s : State) : Option Out :=
  match n with
  | 0 => some (execVsadd o s)
  | 1 => some (execVssub o s)
  | 2 => some (execVaadd o s)
  | 3 => some (execVsmul o s)
  | 4 => some (execVnclip o s)
  | 5 => some (execVnsra o s)
  | 6 => some (execVclass o s)
  | _ => none
theorem runV23_eq (n : Nat) (o : VOp) (s : State) : runV23 n o s = (mkV23 n).map fun f => exec (f o) s := by
  unfold runV23 mkV23; split <;> first | rfl | simp_all

/-- The execution of the operations of `mkV24`. -/
def runV24 (n : Nat) (o : VOp) (s : State) : Option Out :=
  match n with
  | 0 => some (execVcvt o s)
  | 1 => some (execVcvtmx o s)
  | 2 => some (execVmerge o s)
  | 3 => some (execVid o s)
  | 4 => some (execVperm o s)
  | 5 => some (execVslup o s)
  | 6 => some (execVsldn o s)
  | 7 => some (execVcompress o s)
  | _ => none
theorem runV24_eq (n : Nat) (o : VOp) (s : State) : runV24 n o s = (mkV24 n).map fun f => exec (f o) s := by
  unfold runV24 mkV24; split <;> first | rfl | simp_all

/-- The execution of the operations of `mkV25`. -/
def runV25 (n : Nat) (o : VOp) (s : State) : Option Out :=
  match n with
  | 0 => some (execVceq o s)
  | 1 => some (execVcne o s)
  | 2 => some (execVclt o s)
  | 3 => some (execVcle o s)
  | 4 => some (execVcgt o s)
  | 5 => some (execVcge o s)
  | 6 => some (execVcun o s)
  | _ => none
theorem runV25_eq (n : Nat) (o : VOp) (s : State) : runV25 n o s = (mkV25 n).map fun f => exec (f o) s := by
  unfold runV25 mkV25; split <;> first | rfl | simp_all

/-- The execution of the operations of `mkV26`. -/
def runV26 (n : Nat) (o : VOp) (s : State) : Option Out :=
  match n with
  | 0 => some (execVrsum o s)
  | 1 => some (execVrosum o s)
  | 2 => some (execVrmax o s)
  | 3 => some (execVrmin o s)
  | 4 => some (execVrand o s)
  | 5 => some (execVror o s)
  | 6 => some (execVrxor o s)
  | 7 => some (execVrsummx o s)
  | _ => none
theorem runV26_eq (n : Nat) (o : VOp) (s : State) : runV26 n o s = (mkV26 n).map fun f => exec (f o) s := by
  unfold runV26 mkV26; split <;> first | rfl | simp_all

/-- The execution of the operations of `mkV27`. -/
def runV27 (n : Nat) (o : VOp) (s : State) : Option Out :=
  match n with
  | 0 => some (execVadds o s)
  | 1 => some (execVsubs o s)
  | 2 => some (execVmuls o s)
  | 3 => some (execVmadds o s)
  | 4 => some (execVmins o s)
  | 5 => some (execVmaxs o s)
  | 6 => some (execVshls o s)
  | 7 => some (execVbcast o s)
  | _ => none
theorem runV27_eq (n : Nat) (o : VOp) (s : State) : runV27 n o s = (mkV27 n).map fun f => exec (f o) s := by
  unfold runV27 mkV27; split <;> first | rfl | simp_all

/-- The execution of the operations of `mkV29`. -/
def runV29 (n : Nat) (o : VOp) (s : State) : Option Out :=
  match n with
  | 0 => some (execVins o s)
  | _ => none
theorem runV29_eq (n : Nat) (o : VOp) (s : State) : runV29 n o s = (mkV29 n).map fun f => exec (f o) s := by
  unfold runV29 mkV29; split <;> first | rfl | simp_all

/-- The execution of the operations of `mkV2B`. -/
def runV2B (n : Nat) (o : VOp) (s : State) : Option Out :=
  match n with
  | 0 => some (execMand o s)
  | 1 => some (execMor o s)
  | 2 => some (execMxor o s)
  | 3 => some (execMandn o s)
  | 4 => some (execMnot o s)
  | 5 => some (execMset o s)
  | 6 => some (execMclr o s)
  | 7 => some (execMfromv o s)
  | _ => none
theorem runV2B_eq (n : Nat) (o : VOp) (s : State) : runV2B n o s = (mkV2B n).map fun f => exec (f o) s := by
  unfold runV2B mkV2B; split <;> first | rfl | simp_all

/-- The execution of the operations of `mkVM2C`. -/
def runVM2C (n : Nat) (o : VMOp) (s : State) : Option Out :=
  match n with
  | 0 => some (execVld o s)
  | 1 => some (execVlds o s)
  | 2 => some (execVldx o s)
  | 3 => some (execVldseg o s)
  | 4 => some (execVldff o s)
  | 5 => some (execVldxo o s)
  | 6 => some (execVldmx o s)
  | 7 => some (execVldcs o s)
  | _ => none
theorem runVM2C_eq (n : Nat) (o : VMOp) (s : State) : runVM2C n o s = (mkVM2C n).map fun f => exec (f o) s := by
  unfold runVM2C mkVM2C; split <;> first | rfl | simp_all

/-- The execution of the operations of `mkVM2D`. -/
def runVM2D (n : Nat) (o : VMOp) (s : State) : Option Out :=
  match n with
  | 0 => some (execVst o s)
  | 1 => some (execVsts o s)
  | 2 => some (execVstx o s)
  | 3 => some (execVstseg o s)
  | 4 => some (execVstxo o s)
  | 5 => some (execVsto o s)
  | 6 => some (execVstmx o s)
  | _ => none
theorem runVM2D_eq (n : Nat) (o : VMOp) (s : State) : runVM2D n o s = (mkVM2D n).map fun f => exec (f o) s := by
  unfold runVM2D mkVM2D; split <;> first | rfl | simp_all

/-- The execution of the operations of `mkVM2E`. -/
def runVM2E (n : Nat) (o : VMOp) (s : State) : Option Out :=
  match n with
  | 0 => some (execVgl o s)
  | 1 => some (execVsc o s)
  | 2 => some (execVacc o s)
  | 3 => some (execVwait o s)
  | _ => none
theorem runVM2E_eq (n : Nat) (o : VMOp) (s : State) : runVM2E n o s = (mkVM2E n).map fun f => exec (f o) s := by
  unfold runVM2E mkVM2E; split <;> first | rfl | simp_all

/-- The execution of the operations of `mkVX`. -/
def runVX (n : Nat) (o : VXOp) (s : State) : Option Out :=
  match n with
  | 0 => some (execVext o s)
  | 1 => some (execVcnt o s)
  | 2 => some (execMpop o s)
  | 3 => some (execMfirst o s)
  | _ => none
theorem runVX_eq (n : Nat) (o : VXOp) (s : State) : runVX n o s = (mkVX n).map fun f => exec (f o) s := by
  unfold runVX mkVX; split <;> first | rfl | simp_all

/-- The execution of the operations of `opG`. -/
def runOpG (maj xop : Nat) (o : GOp) (s : State) : Option Out :=
  match maj with
  | 0x02 => runG02 xop o s
  | 0x05 => runG05 xop o s
  | 0x0A => runG0A xop o s
  | 0x10 => runG10 xop o s
  | 0x11 => runG11 xop o s
  | 0x17 => runG17 xop o s
  | 0x18 => runG18 xop o s
  | 0x1D => runG1D xop o s
  | 0x1E => runG1E xop o s
  | 0x2A => runG2A xop o s
  | 0x2F => runG2F xop o s
  | _ => none
theorem runOpG_eq (maj xop : Nat) (o : GOp) (s : State) : runOpG maj xop o s = (opG maj xop).map fun f => exec (f o) s := by
  unfold runOpG opG; split <;> first | rfl | simp [runG02_eq, runG05_eq, runG0A_eq, runG10_eq, runG11_eq, runG17_eq, runG18_eq, runG1D_eq, runG1E_eq, runG2A_eq, runG2F_eq]

/-- The execution of the operations of `opG3`. -/
def runOpG3 (maj xop : Nat) (o : G3Op) (s : State) : Option Out :=
  match maj with
  | 0x02 => runG302 xop o s
  | 0x17 => runG317 xop o s
  | 0x18 => runG318 xop o s
  | _ => none
theorem runOpG3_eq (maj xop : Nat) (o : G3Op) (s : State) : runOpG3 maj xop o s = (opG3 maj xop).map fun f => exec (f o) s := by
  unfold runOpG3 opG3; split <;> first | rfl | simp [runG302_eq, runG317_eq, runG318_eq]

/-- The execution of the operations of `opIT`. -/
def runOpIT (maj xop : Nat) (o : ITOp) (s : State) : Option Out :=
  match maj with
  | 0x06 => runIT06 xop o s
  | 0x16 => runIT16 xop o s
  | _ => none
theorem runOpIT_eq (maj xop : Nat) (o : ITOp) (s : State) : runOpIT maj xop o s = (opIT maj xop).map fun f => exec (f o) s := by
  unfold runOpIT opIT; split <;> first | rfl | simp [runIT06_eq, runIT16_eq]

/-- The execution of the operations of `opL`. -/
def runOpL (maj xop : Nat) (o : MOp) (s : State) : Option Out :=
  match maj with
  | 0x19 => runL19 xop o s
  | 0x1A => runL1A xop o s
  | _ => none
theorem runOpL_eq (maj xop : Nat) (o : MOp) (s : State) : runOpL maj xop o s = (opL maj xop).map fun f => exec (f o) s := by
  unfold runOpL opL; split <;> first | rfl | simp [runL19_eq, runL1A_eq]

/-- The execution of the operations of `opA`. -/
def runOpA (maj xop : Nat) (o : AOp) (s : State) : Option Out :=
  match maj with
  | 0x1B => runA1B xop o s
  | 0x1C => runA1C xop o s
  | _ => none
theorem runOpA_eq (maj xop : Nat) (o : AOp) (s : State) : runOpA maj xop o s = (opA maj xop).map fun f => exec (f o) s := by
  unfold runOpA opA; split <;> first | rfl | simp [runA1B_eq, runA1C_eq]

/-- The execution of the operations of `opV`. -/
def runOpV (maj xop : Nat) (o : VOp) (s : State) : Option Out :=
  match maj with
  | 0x20 => runV20 xop o s
  | 0x21 => runV21 xop o s
  | 0x22 => runV22 xop o s
  | 0x23 => runV23 xop o s
  | 0x24 => runV24 xop o s
  | 0x25 => runV25 xop o s
  | 0x26 => runV26 xop o s
  | 0x27 => runV27 xop o s
  | 0x29 => runV29 xop o s
  | 0x2B => runV2B xop o s
  | _ => none
theorem runOpV_eq (maj xop : Nat) (o : VOp) (s : State) : runOpV maj xop o s = (opV maj xop).map fun f => exec (f o) s := by
  unfold runOpV opV; split <;> first | rfl | simp [runV20_eq, runV21_eq, runV22_eq, runV23_eq, runV24_eq, runV25_eq, runV26_eq, runV27_eq, runV29_eq, runV2B_eq]

/-- The execution of the operations of `opVM`. -/
def runOpVM (maj xop : Nat) (o : VMOp) (s : State) : Option Out :=
  match maj with
  | 0x2C => runVM2C xop o s
  | 0x2D => runVM2D xop o s
  | 0x2E => runVM2E xop o s
  | _ => none
theorem runOpVM_eq (maj xop : Nat) (o : VMOp) (s : State) : runOpVM maj xop o s = (opVM maj xop).map fun f => exec (f o) s := by
  unfold runOpVM opVM; split <;> first | rfl | simp [runVM2C_eq, runVM2D_eq, runVM2E_eq]

/-- The execution of a view. -/
def execView (v : View) (s : State) : Option Out :=
  match v with
  | .g maj xop o => runOpG maj xop o s
  | .g3 maj xop o => runOpG3 maj xop o s
  | .i maj o => runI maj o s
  | .it maj xop o => runOpIT maj xop o s
  | .rd o => some (execRead o s)
  | .mem maj xop o => runOpL maj xop o s
  | .amo maj xop o => runOpA maj xop o s
  | .amo3 xop o => runA3 xop o s
  | .b maj o => runB maj o s
  | .bx xop o => runBX xop o s
  | .cp xop o => runCP xop o s
  | .v maj vop o => runOpV maj vop o s
  | .vx vop o => runVX vop o s
  | .vm maj vop o => runOpVM maj vop o s
  | .c cop o => runC cop o s
  | .tile pmaj o => runT pmaj o s
  | .event => none

theorem execView_eq (v : View) (s : State) : execView v s = v.instr.map fun i => exec i s := by
  unfold execView View.instr
  split <;> first | rfl | simp only [Option.map_map, Function.comp_def, runOpG_eq, runOpG3_eq, runI_eq, runOpIT_eq, runOpL_eq, runOpA_eq, runA3_eq, runB_eq, runBX_eq, runCP_eq, runOpV_eq, runVX_eq, runOpVM_eq, runC_eq, runT_eq]

/-- An instruction word executes (R26, R34 to R36): `exec` of what it decodes to. -/
noncomputable def fireRaw (word : Nat) (s : State) : Out :=
  match decodeWord word with
  | .ok i => exec i s
  | .error _ => .refused .noInstruction

/-- The same, by the view. -/
def fireView (word : Nat) (s : State) : Out :=
  match decodeView word with
  | .ok v => (execView v s).getD (.refused .noInstruction)
  | .error _ => .refused .noInstruction

@[csimp] theorem fireRaw_eq : @fireRaw = @fireView := by
  funext word s
  unfold fireRaw fireView decodeWord
  cases decodeView word with
  | error e => rfl
  | ok v => simp only [execView_eq]; cases v.instr <;> rfl

end Sys2Proof.Machine
end

