-- ==== Sys2Proof/Machine/Auto.lean ====
section
/-! DEFINITION. The default schedule (log 2): which activity is next when the plan names none. The spec leaves the order of what the machine's
agents do open; this is one order among those it allows. `schedule` only chooses: `step` performs what it names through `exec`. Nothing that
comes from outside the package is ever chosen. -/

namespace Sys2Proof.Machine

open Sys2Proof

/-- An event that can happen now. -/
def pick (i : Instr) (r : Option State) : Option Activity := if r.isSome then some (.event i) else none

/-- The word of an instruction of a running block, and its execution. -/
def State.wordAt (s : State) (sid idx : Nat) : Option Nat := (s.win? sid).bind fun w => w.blk.body[idx]?
def State.fireAt (s : State) (sid idx : Nat) : Out :=
  match s.wordAt sid idx with
  | some x => fireRaw x { s with cursor := { sid := sid, idx := idx } }
  | none => .next { s with cursor := { sid := sid, idx := idx } }

/-- Whether executing an instruction now has it fire. -/
def State.firesNow (s : State) (sid idx : Nat) : Bool :=
  match s.fireAt sid idx with
  | .next t => (match t.win? sid with | some w => (w.op idx).fired | none => true)
  | _ => false

/-- What a boundary of a core does first: data to accept, divisions, the plane array, the stages of the lane pipe. -/
def State.autoUnits (s : State) (c : Nat) : Option Activity :=
  pick (.fifoAccept c 0) (fifoAccept c 0 s) <|> pick (.fifoAccept c 1) (fifoAccept c 1 s) <|>
  pick (.divideComplete c 0) (divideComplete c 0 s) <|> pick (.divideComplete c 1) (divideComplete c 1 s) <|>
  pick (.divideStart c) (divideStart c s) <|> pick (.fpDivideComplete c) (fpDivideComplete c s) <|>
  pick (.fpDivideStart c) (fpDivideStart c s) <|> pick (.vectorExecuteDone c) (vectorExecuteDone c s) <|>
  pick (.vectorExecuteStart c) (vectorExecuteStart c s) <|>
  (match (s.core c).ex with | some e => if e.ran then none else some (.fire e.sid e.idx) | none => none) <|>
  pick (.matrixPerformDone c) (matrixPerformDone c s) <|> pick (.matrixIssue c) (matrixIssue c s) <|>
  pick (.tileMemoryMoveDone c) (tileMemoryMoveDone c s)

/-- The instructions of a core that fire in its front-end step, and the lane instruction it dispatches. -/
def State.autoFire (s : State) (c : Nat) : Option Activity :=
  let fe := (s.core c).fe
  if !fe.stepping s.now then none
  else
    ((s.readySet c fe.start).findSome? fun x =>
      let null := match s.win? x.1 with | some w => (w.op x.2.1).anyNull x.2.2 | none => false
      if (!x.2.2.isVec || null) && s.firesNow x.1 x.2.1 then some (Activity.fire x.1 x.2.1) else none) <|>
    pick (.vectorDispatch c) (vectorDispatch c s)

/-- The accesses of a running block. -/
def State.autoAccess (s : State) (sid : Nat) (w : Window) : Option Activity :=
  w.accs.findSome? fun kv =>
    match kv.2.phase with
    | .probing => pick (.scalarProbeComplete sid kv.1) (scalarProbeComplete sid kv.1 s)
    | .reading => (List.range (max 1 kv.2.segs.length)).findSome? fun k => pick (.loadDataReturn sid kv.1 k) (loadDataReturn sid kv.1 k s)
    | .done => none

/-- The committed work of a strand. -/
def State.autoItem (s : State) (sid : Nat) (i : PItem) : Option Activity :=
  match i.kind with
  | .store segs _ _ _ => (List.range segs.length).findSome? fun k => pick (.storePerform sid i.q k) (storePerform sid i.q k s)
  | .atomic _ _ _ _ _ _ _ _ _ => pick (.atomicPerform sid i.q) (atomicPerform sid i.q s)
  | .vacc ups => match ups with
    | [] => pick (.vaccUpdatePerform sid i.q 0) (vaccUpdatePerform sid i.q 0 s)
    | _ => ups.findSome? fun u => pick (.vaccUpdatePerform sid i.q u.elem) (vaccUpdatePerform sid i.q u.elem s)
  | .vamerge _ _ _ _ => pick (.vamergeFold sid i.q) (vamergeFold sid i.q s)
  | _ => none

/-- What a strand does apart from its core's units: its accesses, its committed work, the values that come back, its waits. -/
def State.autoStrand (s : State) (sid : Nat) (t : Strand) : Option Activity :=
  (match t.win with | some w => s.autoAccess sid w | none => none) <|> t.items.findSome? (s.autoItem sid) <|>
  (t.pend.findSome? fun kv => pick (.stampReturn sid kv.1) (stampReturn sid kv.1 s) <|> pick (.atomicOldValueReturn sid kv.1) (atomicOldValueReturn sid kv.1 s)) <|>
  pick (.interlockWaitEnd sid) (interlockWaitEnd sid s) <|> pick (.barrierArrival sid) (barrierArrival sid s) <|>
  pick (.sleepExpiry sid) (sleepExpiry sid s) <|> pick (.qdlDeadlinePass sid) (qdlDeadlinePass sid s) <|>
  (match t.vsleep with | some w => w.lines.findSome? fun l => pick (.watchedLineWrite (coreOf sid) l) (watchedLineWrite (coreOf sid) l s) | none => none) <|>
  (match t.fabricAtomic with
   | some (_, pa, _, _) => if fabDev pa = s.board.devnum.toNat ∨ (s.routePort pa).isNone then pick (.remoteLostDeferred sid) (remoteLostDeferred sid s) else none
   | none => none)

/-- The blocks of a strand: the end of the running one, the fetch and the start of the next. -/
def State.autoBlock (s : State) (sid : Nat) (t : Strand) : Option Activity :=
  pick (.blockQuiescent sid) (blockQuiescent sid s) <|> pick (.blockTimeout sid) (blockTimeout sid s) <|> pick (.blockStart sid) (blockStart sid s) <|>
  if t.win.isSome || (match t.fetched with | some f => f.base == t.pc && f.sup == t.sup | none => false) then none
  else pick (.blockFetch sid t.pc.toNat) (blockFetch sid t.pc.toNat s)

/-- A running stream, its elements in ascending order. -/
def State.autoStream (s : State) (c k : Nat) (st : Stream) : Option Activity :=
  if st.state ≠ 2 then none
  else
    let es := st.strips.flatMap fun p => (List.range st.desc.strip).map fun j => p.t * st.desc.strip + j
    (es.findSome? fun i => pick (.streamElementArrival c k i) (streamElementArrival c k i s)) <|>
    pick (.streamStripFetch c k) (streamStripFetch c k s) <|>
    (if st.done_ = st.desc.n then (List.range (min st.desc.strip st.desc.n)).findSome? fun e => pick (.streamRed2FinalWrite c k e) (streamRed2FinalWrite c k e s) else none) <|>
    pick (.streamDone c k) (streamDone c k s) <|>
    (if st.done_ = st.desc.n then (List.range (min st.desc.strip st.desc.n)).findSome? fun e => pick (.streamAccessFault c k e) (streamAccessFault c k e 0 s)
     else pick (.streamAccessFault c k st.done_) (streamAccessFault c k st.done_ 0 s))

/-- The 64 bytes of a line in one pass over memory. -/
def lineScan (m : List Host.Cell) (line : Nat) : Nat :=
  ((m.dropWhile fun c => c.1 < 64 * line).takeWhile fun c => c.1 < 64 * line + 64).foldl (fun x c => x + c.2.toNat <<< (8 * (c.1 - 64 * line))) 0

/-- The queue and the caches of a core: a record for the router, a replay, a line that memory no longer agrees with. -/
def State.autoCore (s : State) (c : Nat) : Option Activity :=
  pick (.routerRecordWrite c) (routerRecordWrite c s) <|> pick (.replayPendingReplay c) (replayPendingReplay c s) <|>
  (s.core c).l1.findSome? fun kv => if kv.2.bytes = lineScan s.mem kv.1 then none else pick (.l1LineInvalidate c kv.1) (l1LineInvalidate c kv.1 s)

/-- What belongs to no core: walks, held writes, acknowledgements, invalidations. -/
def State.autoShared (s : State) : Option Activity :=
  (s.walks.findSome? fun kv => pick (.tlbWalkComplete kv.1) (tlbWalkComplete kv.1 s)) <|>
  (s.held.findSome? fun kv => pick (.heldWriteRelease kv.1) (heldWriteRelease kv.1 s)) <|>
  (s.contexts.findSome? fun kv => kv.2.unacked.findSome? fun a => pick (.scopeAcknowledge a.1 kv.1 a.2) (scopeAcknowledge a.1 kv.1 a.2 s)) <|>
  (s.invals.findSome? fun i => pick (.tlbInvalidatePerform i.id) (tlbInvalidatePerform i.id s))

/-- The dispatcher and the gangs. -/
def State.autoGangs (s : State) : Option Activity :=
  (s.gangs.keys.findSome? fun g =>
    pick (.contextRestore g) (contextRestore g s) <|> pick (.saveBroken g) (saveBroken g s) <|> pick (.contextSaveComplete g) (contextSaveComplete g s) <|>
    pick (.contextSaveStart g) (contextSaveStart g s) <|> pick (.gangComplete g) (gangComplete g s) <|> pick (.laneGrant g) (laneGrant g s) <|>
    pick (.reclaimTimeout g) (reclaimTimeout g s)) <|>
  (if s.dispatching then
    (List.range 96).findSome? (fun src => pick (.dispatcherTakeRecord src) (dispatcherTakeRecord src s)) <|> pick .dispatchPlace (dispatchPlace s) <|>
    s.disp.heads.keys.findSome? fun src => pick (.preemptWaitExpiry src) (preemptWaitExpiry src s)
   else none)

/-- The power states, the clocks and the links; a state is entered only where nothing would leave it at once. -/
def State.autoPower (s : State) : Option Activity :=
  ((List.range 8).findSome? fun k =>
    pick (.clusterExitDone k) (clusterExitDone k s) <|> pick (.clusterWake k) (clusterWake k s) <|> pick (.pllRelockEnd k) (pllRelockEnd k s) <|>
    pick (.pllRelockStop k) (pllRelockStop k s) <|> pick (.clusterQuiesced k) (clusterQuiesced k s) <|>
    match clusterIdleEntry k s with | some t => if t.wakeDue k then none else some (.event (.clusterIdleEntry k)) | none => none) <|>
  (if s.pkg.c4 then (if s.queuePending || (List.range 8).any s.wakeDue then pick .packageC4Exit (packageC4Exit s) else none)
   else match packageC4Entry s with
    | some t => if (t.pkg.c4 && !(List.range 8).any t.wakeDue) || t.pkg.predRef != s.pkg.predRef then some (.event .packageC4Entry) else none
    | none => none) <|>
  (s.links.keys.findSome? fun l => pick (.linkRetrainDone l) (linkRetrainDone l s)) <|>
  (s.ports.keys.findSome? fun p => pick (.portRetrainDone p) (portRetrainDone p s) <|> pick (.flitReplayTimeout p) (flitReplayTimeout p s)) <|>
  s.dies.findSome? fun kv => (kv.2.handshake.keys.findSome? fun c => pick (.lendHandshakeDone kv.1 c) (lendHandshakeDone kv.1 c s)) <|>
    (bitsSet 32 kv.2.lent.toNat).findSome? fun c => pick (.lendReverse kv.1 c) (lendReverse kv.1 c s)

/-- What the spec gives to this boundary, or to the step in progress, and what therefore comes before time passes (R68 to R72, R75, R279, R282,
R341): the instructions that are ready fire in the step, a block that is quiescent commits or is starved, one that has run too long times out, a
relock begins when it is due and ends within 2 µs, a sleep ends at its time, and a temperature that has reached EMERG or TRIP has its effect (R286, R345). -/
def State.pressing (s : State) : Bool :=
  (s.coreList.any fun c => (s.autoFire c).isSome) ||
  (s.strands.any fun kv => (blockQuiescent kv.1 s).isSome || (blockTimeout kv.1 s).isSome || (qdlDeadlinePass kv.1 s).isSome || (sleepExpiry kv.1 s).isSome) ||
  (thermalEmergency s).isSome || (hardTrip s).isSome ||
  (List.range 8).any fun k => (pllRelockStop k s).isSome ||
    ((match (s.cluster k).stopAt with | some q => decide (q + 16000 ≤ s.now) | none => false) && (pllRelockEnd k s).isSome)

/-- Bring-up, with every check and every training a success (log 24). -/
def State.autoBoot (s : State) : Option Activity :=
  pick (.firmwareVerifyDone 1) (firmwareVerifyDone 1 s) <|> pick (.dieLinksTrained 16) (dieLinksTrained 16 s) <|>
  pick .hostPortTrained (hostPortTrained s) <|> pick (.hbmTrained 8) (hbmTrained 8 s)

/-- The quanta at which something beside a step of a region falls due. -/
def State.alarms (s : State) : List Nat :=
  (s.strands.flatMap fun kv =>
    (match kv.2.sleepTo with | some q => [q] | none => []) ++
    (match kv.2.deadline s.now with | some q => [q - exitTime (s.cluster (clusterOf (coreOf kv.1))).state - (if s.pkg.c4 then exitTime 4 else 0), q] | none => []) ++
    (match kv.2.win with | some w => if kv.2.btmo = 0 then [] else [w.start + w.excluded + kv.2.btmo.toNat + 1] | none => [])) ++
  (s.disp.heads.map fun kv => kv.2.since + s.disp.pwait.toNat) ++
  (s.gangs.filterMap fun kv => kv.2.reclaim.map fun r => r.2 + s.disp.rcltmo.toNat) ++
  (s.ports.filterMap fun kv => if kv.2.unacked.isEmpty then none else some (kv.2.sentAt + 8192))

/-- How far time passes at most in one step. -/
def idleSpan : Nat := 4096

/-- The next passage of time: to the first of those quanta, or by `idleSpan`. -/
def State.nextTime (s : State) : Nat := (s.alarms.filter fun q => s.now < q).foldl min (s.now + idleSpan)

/-- THE DEFAULT SCHEDULE. -/
def State.schedule (s : State) : Activity :=
  let cs := s.coreList
  (pick .hardTrip (hardTrip s) <|> pick .thermalEmergency (thermalEmergency s) <|> cs.findSome? s.autoUnits <|> cs.findSome? s.autoFire <|> (s.strands.findSome? fun kv => s.autoStrand kv.1 kv.2) <|> s.autoShared <|>
   (s.strands.findSome? fun kv => s.autoBlock kv.1 kv.2) <|> (s.cores.findSome? fun kv => kv.2.streams.findSome? fun x => s.autoStream kv.1 x.1 x.2) <|>
   cs.findSome? s.autoCore <|> s.autoGangs <|> s.autoPower <|> s.autoBoot).getD (.tick s.nextTime)

end Sys2Proof.Machine
end

