-- ==== Sys2Proof/Machine/Step.lean ====
section
/-! DEFINITION. One step of the package: the activity at the head of the plan, or else the one that the default schedule names, is performed. -/

namespace Sys2Proof.Machine

open Sys2Proof

/-- Whether an instruction is a machine event of the opcode table. -/
def isEvent (i : Instr) : Bool := match i.view with | .event => true | _ => false

/-- An activity performed. With the main rails gone only the package reset that returning power begins acts (R345, R365); a plan cannot
execute an instruction but where it stands in a running block, nor let time pass by what must come first. -/
def perform (a : Activity) (s : State) : Out :=
  match a with
  | .fire sid idx => if s.board.railsOn then s.fireAt sid idx else .fault .railsOff
  | .event i => if s.board.railsOn || i == .packageReset then (if isEvent i then exec i s else .next s) else .fault .railsOff
  | .tick q => if s.board.railsOn then .next (if s.pressing then s else s.tick q) else .fault .railsOff

/-- ONE STEP. -/
def step (s : State) : Out :=
  match s.plan with
  | a :: rest => perform a { s with plan := rest }
  | [] => perform s.schedule s

/-- A word of the opcode table as the body of a block of one instruction, which runs in strand 0 of core 0 in a front-end step that has begun,
with a token on every slot and the instruction in the execute stage of the lane pipe: what stands between placing a program and its first
instruction (log 11). The plan names it as the next activity. -/
def fetchBlockOf (w : Nat) : Fetched := { base := 0, hdr := headerOf (1 + 2 ^ 4 + 2 ^ 12), body := [w], len := 8, sup := false, fault := none }
def fetchOps (now w : Nat) : OpState :=
  let h (x : Dword) : Option Held := some { tok := .val x, at_ := now }
  { l := h 0, r := h 0, t := h (if w / 256 % 4 = 2 then 1 else 0), fired := false, nulled := false }
def fetchStrand (now w : Nat) : Strand :=
  { Strand.start 0 0 0 0 0 0 false 1 1 with win := some { Window.start_ (fetchBlockOf w) now with ops := [(0, fetchOps now w)] } }
def State.withFetchWord (s : State) (nbits w : Nat) : State :=
  let x := w % 2 ^ nbits
  let x := match lengthOf x with | some n => x % 2 ^ n | none => x
  let e : PipeE := { sid := 0, idx := 0, sent := s.now, cls := 2, left := 1, writes := true, aged := true, ran := false, tok := none }
  let s := { s with plan := [.fire 0 0], strands := s.strands.put 0 (fetchStrand s.now x) }
  s.updCore 0 fun k => { k with fe := { k.fe with start := s.now, stop := s.now + 2 }, lanes := { k.lanes with start := s.now, stop := s.now + 2 },
                                issue := some (0, 0), ex := some e }

end Sys2Proof.Machine
end

