-- ==== Sys2Proof/Safety.lean ====
section
/-! DEFINITION. The terms in which the statements speak: when an instruction of a running block fires, what firing and
answering do to the block, the part of the state that only commits and machine events change, and the invariants. -/

namespace Sys2Proof.Machine

open Sys2Proof

/-- The strand, its running block and the instruction of it that the cursor names. -/
abbrev State.at_ (s : State) (v : View) (t : Strand) (w : Window) : Prop :=
  s.strands.get? s.cursor.sid = some t ∧ t.win = some w ∧ w.view s.cursor.idx = some v

/-- A strand with this running block. -/
def Strand.withWin (t : Strand) (w : Window) : Strand := { t with win := some w }

/-- Bytes that lie whole in the scratchpad window (R109). -/
abbrev inSp (a n : Nat) : Prop := spBase ≤ a ∧ a + n ≤ spBase + spSize

/-- The front end of the strand's core. -/
def State.front (s : State) : Region := (s.core (coreOf s.cursor.sid)).fe

/-- R69 for an instruction of the front end: its strand runs, a step of the front end is under way, it has not fired, the
block has no fault, its declared slots held tokens and its predicate matched by the start of the step, no declared slot
holds a null, and no other wait of the instruction holds it. -/
abbrev State.fires (s : State) (v : View) (t : Strand) (w : Window) : Prop :=
  s.at_ v t w ∧ t.runs = true ∧ s.front.start ≤ s.now ∧ s.now < s.front.stop ∧ (w.op s.cursor.idx).fired = false ∧
  w.fault = none ∧ (w.op s.cursor.idx).tokensBy v s.front.start = true ∧ (w.op s.cursor.idx).anyNull v = false ∧
  s.gate s.cursor.sid t w s.cursor.idx v = .opened

/-- R70: the same with a null on a declared data slot, where the one wait that matters is that for a format register that names its registers
(R124). -/
abbrev State.firesNull (s : State) (v : View) (t : Strand) (w : Window) : Prop :=
  s.at_ v t w ∧ t.runs = true ∧ s.front.start ≤ s.now ∧ s.now < s.front.stop ∧ (w.op s.cursor.idx).fired = false ∧
  w.fault = none ∧ (w.op s.cursor.idx).tokensBy v s.front.start = true ∧ (w.op s.cursor.idx).anyNull v = true ∧
  (v.nullReads && t.fmtPending v) = false

/-- R279 for an instruction of the lane slices: it stands in the execute stage of its core's lane pipe and has not acted there. -/
abbrev State.executes (s : State) (v : View) (t : Strand) (w : Window) (e : PipeE) : Prop :=
  s.at_ v t w ∧ (s.core (coreOf s.cursor.sid)).ex = some e ∧ e.sid = s.cursor.sid ∧ e.idx = s.cursor.idx ∧ e.ran = false

/-- The values on the left, right and third slots of the instruction at the cursor. -/
def State.left (s : State) (w : Window) : Dword := slotVal (w.op s.cursor.idx).l
def State.right (s : State) (w : Window) : Dword := slotVal (w.op s.cursor.idx).r
def State.third (s : State) (w : Window) : Dword := slotVal (w.op s.cursor.idx).t

/-- The token as it leaves the step under way (R71): usable from the end of that step. -/
def State.token (s : State) (x : Tok) : Held := { tok := x, at_ := s.front.stop }

/-- The instruction at the cursor has fired. -/
def State.didFire (s : State) : State := s.updWin s.cursor.sid (·.fire s.cursor.idx false)

/-- The instruction at the cursor has fired and has delivered `x` to its targets: nothing else has changed. -/
def State.answered (s : State) (v : View) (x : Tok) : State :=
  s.updWin s.cursor.sid fun w => (w.fire s.cursor.idx false).deliverAll s.cursor.idx (s.token x) v.targets

/-- The same, with something posted to the commit of the block (R73). -/
def State.answeredPosting (s : State) (v : View) (p : Post) (x : Tok) : State :=
  s.updWin s.cursor.sid fun w => ((w.fire s.cursor.idx false).post s.cursor.idx p).deliverAll s.cursor.idx (s.token x) v.targets

/-- The instruction at the cursor has fired and its fault is recorded in its block: it has no other effect. -/
def State.faulted (s : State) (kind sub vaddr info : Nat) : State :=
  s.updWin s.cursor.sid fun w => (w.fire s.cursor.idx false).record
    { key := s.front.stop, cls := classOf kind, kind := kind, sub := sub, index := s.cursor.idx, vaddr := vaddr, info := info, info2 := 0 }

/-- The instruction in the execute stage has acted. -/
def State.didExecute (s : State) (e : PipeE) : State :=
  (s.updCore (coreOf s.cursor.sid) fun k => { k with ex := some { e with ran := true } }).didFire

/-- The operands of a vector memory instruction that acts at the cursor, as R138 gives them to it. -/
def State.mEnvOf (s : State) (i : Instr) (o : VMOp) (store : Bool) (t : Strand) (w : Window) : MEnv :=
  mEnv t w s.cursor.idx i.view o store (w.readM t o.msk.toNat s.cursor.idx)

/-- The next state in which the instruction of the lanes at the cursor has acted and its access waits for its probe. -/
def State.didAccess (s : State) (p : PipeE) (a : Access) : State :=
  (s.didExecute p).updWin s.cursor.sid fun w => { w with accs := w.accs.put s.cursor.idx a }

/-- The register that a stamped store's target names (R106). -/
def stampReg (xop : Nat) (t : Target) : Option Nat := if xop < 4 then none else match t with | .reg g => some g.toNat | _ => none

/-- The window after a write's probe has passed: its bytes wait for the commit, and its LSID is resolved (R104, R107, R181). -/
def Window.buffered (w : Window) (s : State) (sid idx : Nat) (a : Access) (stamp : Option Nat) (sc : Bool) : Window :=
  ({ w with accs := w.accs.put idx { a with phase := .done },
            stores := w.stores.put idx { lsid := a.lsid, segs := segWrites (coreOf sid) a.xl a.unit a.parts a.out a.route, ordered := a.ordered,
                                         stamp := stamp, sc := sc } }).resolve a.lsid idx (s.stepKey (coreOf sid))

/-- An access whose probe has its pages translated and all its checks passed. -/
def State.probed (s : State) (sid idx : Nat) (t : Strand) (w : Window) (a : Access) : Prop :=
  s.strands.get? sid = some t ∧ t.win = some w ∧ w.accs.get? idx = some a ∧ a.phase = .probing ∧ w.fault = none ∧ s.clocked (coreOf sid) = true ∧
  (∀ p ∈ partPages a.parts, a.xl.has p = true) ∧ ∀ p ∈ a.parts, partBad s a.place a.acc t.sup a.xl p = none

/-- A strand of a core that sleeps in a `vwait` on a line that has been written (R256). -/
def Strand.sleepsOn (t : Strand) (core sid line : Nat) : Prop := coreOf sid = core ∧ ∃ z, t.vsleep = some z ∧ z.hit = true ∧ z.lines.contains line = true

/-- The instruction at the cursor has read a record in the scratchpad: lines of it leave the core's L1, and what was read of them ahead (R264). -/
def State.hasRead (s : State) (va n : Nat) : State :=
  let ls := ((List.range n).filterMap fun k => physOf (coreOf s.cursor.sid) [] (va + k)).map lineOf
  (s.updCore (coreOf s.cursor.sid) (·.dropL1 ls.contains)).updStrand s.cursor.sid (·.forget ls)

/-- What a load of a strand takes now for a physical byte that no later load of its block has taken, and that was not read ahead of the block (R191, R192,
R194, R263, R268): outside HBM what its home holds, where a bank of the scratchpad can accept the access (R195); in HBM what the core's L1 line holds, where it has one that no acquire drops and that the load need not
fetch anew, else what the home holds. -/
def State.loads (s : State) (core : Nat) (t : Strand) (w : Window) (a : Access) (p : Nat) (x : Byte) : Prop :=
  let drops := t.acqs ++ (w.acqsBelow a.lsid).map (·.2)
  let line := (s.core core).l1.get? (lineOf p)
  w.captured a.lsid (lineOf p) = none ∧ w.blk.ahead.get? (lineOf p) = none ∧ (a.ordered = true ∨ a.unit ≠ 64 → ∀ l, w.captured a.lsid l = none) ∧
  if placeOf p = .hbm then
    a.unit = 64 ∧ s.poisoned p = false ∧ s.chanOpen p = true ∧
    ((drops = [] ∧ (a.ordered = false ∨ a.got = []) ∧ w.strictOpen a.lsid = false ∧ ∃ l, line = some l ∧ x = BitVec.ofNat 8 (l.bytes / 2 ^ (8 * (p % 64)))) ∨
     (drops = [] ∧ line = none ∧ (a.gath = none ∨ ∀ g ∈ (s.core core).gl1, g.bytes.has p = false) ∧ x = s.homeByte p) ∨
     (a.gath = none ∧ (drops.any (·.drops (lineOf p)) = true ∨ a.ordered = true ∧ a.got ≠ [] ∨ w.strictOpen a.lsid = true) ∧ x = s.homeByte p))
  else (placeOf p = .host → s.hostDown = false) ∧ s.spotFree p = true ∧ x = s.homeByte p

/-- What the segment read of a `vgl` takes for a physical byte that no later load of its block has taken (R251): what its home holds, where a
bank of the scratchpad can accept the access (R195). -/
def State.linkRead (s : State) (w : Window) (a : Access) (p : Nat) (x : Byte) : Prop :=
  a.unit = 64 ∧ a.ordered = false ∧ a.gath = none ∧ w.captured a.lsid (lineOf p) = none ∧ s.poisoned p = false ∧ s.chanOpen p = true ∧
    (placeOf p = .host → s.hostDown = false) ∧ s.spotFree p = true ∧ x = s.homeByte p

/-- No `vawin` of lower index of a block has been accepted (R254). -/
def Window.noVawin (w : Window) (idx : Nat) : Prop := ∀ kv ∈ w.posts, kv.1 < idx → ∀ q b d, kv.2 ≠ .vawin q b d

/-- The window of a `vacc` at the cursor, by its number and its descriptor (R254): that of a `vawin` of lower index of its block, or else the one that is open
for its gang. -/
def State.givesWindow (s : State) (t : Strand) (w : Window) (q : Nat) (d : Dword) : Prop :=
  (∃ k b, (k, Post.vawin q b d) ∈ w.posts ∧ k < s.cursor.idx ∧
    ∀ kv ∈ w.posts, kv.1 < s.cursor.idx → (∃ x y z, kv.2 = .vawin x y z) → kv = (k, .vawin q b d)) ∨
  (w.noVawin s.cursor.idx ∧ ∃ x, (s.core (coreOf s.cursor.sid)).accWin = some x ∧ x.gang = t.gang ∧ x.closed = false ∧ x.id = q ∧ x.desc = d)

/-- A strand whose running block pins a page that an invalidation names (R293). -/
def Inval.hits (i : Inval) (t : Strand) : Prop := ∃ w, t.win = some w ∧ ∃ p ∈ w.pins, i.namesPin t.asid p = true

/-- What an access of active elements is at the start. -/
def Access.starts (a : Access) (o : VMOp) (acc place : Nat) (ordered : Bool) (n : Nat) (ps : List Part) : Prop :=
  a.phase = .probing ∧ a.lsid = o.lsid.toNat ∧ a.acc = acc ∧ a.place = place ∧ a.ordered = ordered ∧ a.n = n ∧ a.parts = ps ∧ a.xl = [] ∧ a.segs = [] ∧ a.got = []

/-- What a tile form fixes about itself and its operands as it is accepted (R202). -/
def TileOp.fixedBy (op : TileOp) (pm : Nat) (o : TOp) (sh : Shape) (s : State) (t : Strand) (w : Window) (v : View) : Prop :=
  op.op = pm ∧ op.tile = o.acc.toNat ∧ op.shape = sh ∧ op.idx = s.cursor.idx ∧ op.fw = t.fw v ∧ op.vlenb = t.vb ∧ op.n = w.countOf t v (t.fw v) t.vb ∧
    op.mask = w.readM t o.msk.toNat s.cursor.idx ∧
    (pm = 2 ∨ pm = 3 ∨ pm = 4 → op.kg = o.depth ∧ op.va = (groupFrom o.va.toNat o.depth).map (w.readV t · s.cursor.idx) ∧
      op.vb = (groupFrom o.vb.toNat o.depth).map (w.readV t · s.cursor.idx)) ∧
    (pm = 3 → op.sca = w.readS t o.sca.toNat s.cursor.idx ∧ op.scb = w.readS t o.scb.toNat s.cursor.idx) ∧
    (pm = 8 → op.va = [w.readV t o.va.toNat s.cursor.idx] ∧ op.row = o.line) ∧
    (pm = 5 ∨ pm = 6 → op.base = (s.left w).toNat ∧ op.stride = (s.right w).toNat ∧ op.row = o.row0 ∧ op.count = o.rowCount)

end Sys2Proof.Machine
end

