-- ==== Sys2Proof/Certificates/Slice0/Obligations.lean ====
section
/-! DEFINITION. The statements for the provers. -/

open Sys2Proof Sys2Proof.Machine

/-- The tables of R82, R83, R85, R90, R92, R94 and R95 as a relation: an instruction of the front end, and what it delivers from its left,
right and third operands. -/
inductive IntResult : Instr → (Dword → Dword → Dword → Dword) → Prop where
  | mov (o) : IntResult (.mov o) (fun l _ _ => l)
  | cMov (o) : IntResult (.cMov o) (fun l _ _ => l)
  | sel (o) : IntResult (.sel o) (fun l r x => if x ≠ 0 then l else r)
  | movi (o) : IntResult (.movi o) (fun _ _ _ => o.imm.signExtend 64)
  | orhi (o) : IntResult (.orhi o) (fun l _ _ => BitVec.ofNat 64 (l.toNat * 2 ^ 13) ||| o.imm.zeroExtend 64)
  | teq (o) : IntResult (.teq o) (fun l r _ => if l = r then 1 else 0)
  | tne (o) : IntResult (.tne o) (fun l r _ => if l = r then 0 else 1)
  | tlt (o) : IntResult (.tlt o) (fun l r _ => if l.toInt < r.toInt then 1 else 0)
  | tltu (o) : IntResult (.tltu o) (fun l r _ => if l.toNat < r.toNat then 1 else 0)
  | tle (o) : IntResult (.tle o) (fun l r _ => if l.toInt ≤ r.toInt then 1 else 0)
  | tleu (o) : IntResult (.tleu o) (fun l r _ => if l.toNat ≤ r.toNat then 1 else 0)
  | tgt (o) : IntResult (.tgt o) (fun l r _ => if l.toInt > r.toInt then 1 else 0)
  | tgtu (o) : IntResult (.tgtu o) (fun l r _ => if l.toNat > r.toNat then 1 else 0)
  | tge (o) : IntResult (.tge o) (fun l r _ => if l.toInt ≥ r.toInt then 1 else 0)
  | tgeu (o) : IntResult (.tgeu o) (fun l r _ => if l.toNat ≥ r.toNat then 1 else 0)
  | tbit (o) : IntResult (.tbit o) (fun l r _ => if l.getLsbD (r.toNat % 64) then 1 else 0)
  | teqi (o) : IntResult (.teqi o) (fun l _ _ => if l = o.imm.signExtend 64 then 1 else 0)
  | tnei (o) : IntResult (.tnei o) (fun l _ _ => if l = o.imm.signExtend 64 then 0 else 1)
  | tlti (o) : IntResult (.tlti o) (fun l _ _ => if l.toInt < o.imm.toInt then 1 else 0)
  | tltui (o) : IntResult (.tltui o) (fun l _ _ => if l.toNat < (o.imm.signExtend 64).toNat then 1 else 0)
  | tlei (o) : IntResult (.tlei o) (fun l _ _ => if l.toInt ≤ o.imm.toInt then 1 else 0)
  | tleui (o) : IntResult (.tleui o) (fun l _ _ => if l.toNat ≤ (o.imm.signExtend 64).toNat then 1 else 0)
  | tgti (o) : IntResult (.tgti o) (fun l _ _ => if l.toInt > o.imm.toInt then 1 else 0)
  | tgtui (o) : IntResult (.tgtui o) (fun l _ _ => if l.toNat > (o.imm.signExtend 64).toNat then 1 else 0)
  | tgei (o) : IntResult (.tgei o) (fun l _ _ => if l.toInt ≥ o.imm.toInt then 1 else 0)
  | tgeui (o) : IntResult (.tgeui o) (fun l _ _ => if l.toNat ≥ (o.imm.signExtend 64).toNat then 1 else 0)
  | tbiti (o) : IntResult (.tbiti o) (fun l _ _ => if l.getLsbD ((o.imm.signExtend 64).toNat % 64) then 1 else 0)
  | add (o) : IntResult (.add o) (fun l r _ => l + r)
  | sub (o) : IntResult (.sub o) (fun l r _ => l - r)
  | mul (o) : IntResult (.mul o) (fun l r _ => l * r)
  | mulh (o) : IntResult (.mulh o) (fun l r _ => BitVec.ofInt 64 (l.toInt * r.toInt / 2 ^ 64))
  | mulhu (o) : IntResult (.mulhu o) (fun l r _ => BitVec.ofNat 64 (l.toNat * r.toNat / 2 ^ 64))
  | and (o) : IntResult (.and o) (fun l r _ => l &&& r)
  | or (o) : IntResult (.or o) (fun l r _ => l ||| r)
  | xor (o) : IntResult (.xor o) (fun l r _ => l ^^^ r)
  | andn (o) : IntResult (.andn o) (fun l r _ => l &&& ~~~r)
  | shl (o) : IntResult (.shl o) (fun l r _ => l <<< (r.toNat % 64))
  | shr (o) : IntResult (.shr o) (fun l r _ => l >>> (r.toNat % 64))
  | sra (o) : IntResult (.sra o) (fun l r _ => l.sshiftRight (r.toNat % 64))
  | rotl (o) : IntResult (.rotl o) (fun l r _ => l.rotateLeft (r.toNat % 64))
  | rotr (o) : IntResult (.rotr o) (fun l r _ => l.rotateRight (r.toNat % 64))
  | min (o) : IntResult (.min o) (fun l r _ => if l.toInt < r.toInt then l else r)
  | max (o) : IntResult (.max o) (fun l r _ => if l.toInt < r.toInt then r else l)
  | minu (o) : IntResult (.minu o) (fun l r _ => if l.toNat < r.toNat then l else r)
  | maxu (o) : IntResult (.maxu o) (fun l r _ => if l.toNat < r.toNat then r else l)
  | sextb (o) : IntResult (.sextb o) (fun l _ _ => BitVec.ofInt 64 (l.truncate 8).toInt)
  | sexth (o) : IntResult (.sexth o) (fun l _ _ => BitVec.ofInt 64 (l.truncate 16).toInt)
  | sextw (o) : IntResult (.sextw o) (fun l _ _ => BitVec.ofInt 64 (l.truncate 32).toInt)
  | cSextw (o) : IntResult (.cSextw o) (fun l _ _ => BitVec.ofInt 64 (l.truncate 32).toInt)
  | zextb (o) : IntResult (.zextb o) (fun l _ _ => BitVec.ofNat 64 (l.toNat % 2 ^ 8))
  | zexth (o) : IntResult (.zexth o) (fun l _ _ => BitVec.ofNat 64 (l.toNat % 2 ^ 16))
  | zextw (o) : IntResult (.zextw o) (fun l _ _ => BitVec.ofNat 64 (l.toNat % 2 ^ 32))
  | cZextw (o) : IntResult (.cZextw o) (fun l _ _ => BitVec.ofNat 64 (l.toNat % 2 ^ 32))
  | abs (o) : IntResult (.abs o) (fun l _ _ => if l.toInt < 0 then -l else l)
  | addi (o) : IntResult (.addi o) (fun l _ _ => l + o.imm.signExtend 64)
  | andi (o) : IntResult (.andi o) (fun l _ _ => l &&& o.imm.signExtend 64)
  | ori (o) : IntResult (.ori o) (fun l _ _ => l ||| o.imm.signExtend 64)
  | xori (o) : IntResult (.xori o) (fun l _ _ => l ^^^ o.imm.signExtend 64)
  | shli (o) : IntResult (.shli o) (fun l _ _ => l <<< o.imm.toNat)
  | shri (o) : IntResult (.shri o) (fun l _ _ => l >>> o.imm.toNat)
  | srai (o) : IntResult (.srai o) (fun l _ _ => l.sshiftRight o.imm.toNat)
  | rotli (o) : IntResult (.rotli o) (fun l _ _ => l.rotateLeft o.imm.toNat)
  | muli (o) : IntResult (.muli o) (fun l _ _ => l * o.imm.signExtend 64)
  | leai (o) : IntResult (.leai o) (fun l r _ => l + (r <<< o.imm.toNat))
  | cInc (o) : IntResult (.cInc o) (fun l _ _ => l + 1)
  | cDec (o) : IntResult (.cDec o) (fun l _ _ => l - 1)
  | cNot (o) : IntResult (.cNot o) (fun l _ _ => ~~~l)
  | cNeg (o) : IntResult (.cNeg o) (fun l _ _ => -l)
  | cZero (o) : IntResult (.cZero o) (fun _ _ _ => 0)
  | cOne (o) : IntResult (.cOne o) (fun _ _ _ => 1)

/-- The results of the integer forms (R82, R83, R85, R90, R92, R94, R95), delivered at the end of the step (R71). -/
def Obligations.IntegerFormsComplete : Prop :=
  ∀ (i : Instr) (f : Dword → Dword → Dword → Dword) (s : State) (t : Strand) (w : Window),
    IntResult i f → s.fires i.view t w →
    exec i s = .next (s.answered i.view (.val (f (s.left w) (s.right w) (s.third w))))

/-- The counts of R92, said of the bits of the operand. -/
def Obligations.BitCountForms : Prop :=
  ∀ (o : GOp) (s : State) (t : Strand) (w : Window),
    (s.fires (Instr.clz o).view t w → ∃ n : Nat, exec (.clz o) s = .next (s.answered (Instr.clz o).view (.val (BitVec.ofNat 64 n))) ∧
      n ≤ 64 ∧ (∀ k, 64 - n ≤ k → (s.left w).getLsbD k = false) ∧ (n < 64 → (s.left w).getLsbD (63 - n) = true)) ∧
    (s.fires (Instr.ctz o).view t w → ∃ n : Nat, exec (.ctz o) s = .next (s.answered (Instr.ctz o).view (.val (BitVec.ofNat 64 n))) ∧
      n ≤ 64 ∧ (∀ k, k < n → (s.left w).getLsbD k = false) ∧ (n < 64 → (s.left w).getLsbD n = true)) ∧
    (s.fires (Instr.popc o).view t w → exec (.popc o) s = .next (s.answered (Instr.popc o).view
      (.val (BitVec.ofNat 64 ((List.range 64).countP fun k => (s.left w).getLsbD k)))))

/-- `read` (R81), `null` and `c.null` (R70, R82, R90), `lpci` (R84). -/
def Obligations.ReadNullAndLpciComplete : Prop :=
  ∀ (s : State) (t : Strand) (w : Window),
    (∀ o, s.fires (.rd o) t w → exec (.read o) s = .next (s.answered (.rd o) (.val (t.reg o.reg)))) ∧
    (∀ o, s.fires (Instr.lpci o).view t w →
      exec (.lpci o) s = .next (s.answered (Instr.lpci o).view (.val (w.blk.base + BitVec.ofInt 64 (32 * o.imm.toInt))))) ∧
    (∀ i, (∃ o, i = .null o) ∨ (∃ o, i = .cNull o) →
      (s.fires i.view t w → exec i s = .next (s.answered i.view .null)) ∧
      (s.firesNull i.view t w → exec i s = .next (s.updWin s.cursor.sid fun w =>
        (w.fire s.cursor.idx true).deliverAll s.cursor.idx (s.token .null) i.view.targets)))

/-- The scalar float forms that answer in one step (R98 to R100, R102): what each delivers from its left, right and third operands, and the
events it raises, as a mask of R172. The functions are the model's (Flags.lean): IEEE 754-2019 on the exact value, rounded once. -/
inductive FloatResult : Instr → (Dword → Dword → Dword → Dword × Nat) → Prop where
  | faddS (o) : FloatResult (.faddS o) fun l r _ => fpAdd false l r
  | fsubS (o) : FloatResult (.fsubS o) fun l r _ => fpSub false l r
  | fmulS (o) : FloatResult (.fmulS o) fun l r _ => fpMul false l r
  | fmaS (o) : FloatResult (.fmaS o) fun l r x => fpFma false l r x
  | fminS (o) : FloatResult (.fminS o) fun l r _ => fpMin false l r
  | fmaxS (o) : FloatResult (.fmaxS o) fun l r _ => fpMax false l r
  | fcvtfiS (o) : FloatResult (.fcvtfiS o) fun l _ _ => fpToInt false l
  | fcvtifS (o) : FloatResult (.fcvtifS o) fun l _ _ => fpOfInt false l
  | fcvtffS (o) : FloatResult (.fcvtffS o) fun l _ _ => fpCvt false l
  | fteqS (o) : FloatResult (.fteqS o) fun l r _ => fpEq false l r
  | ftltS (o) : FloatResult (.ftltS o) fun l r _ => fpLt false l r
  | ftleS (o) : FloatResult (.ftleS o) fun l r _ => fpLe false l r
  | fclassS (o) : FloatResult (.fclassS o) fun l _ _ => (fpClass false l, 0)
  | faddD (o) : FloatResult (.faddD o) fun l r _ => fpAdd true l r
  | fsubD (o) : FloatResult (.fsubD o) fun l r _ => fpSub true l r
  | fmulD (o) : FloatResult (.fmulD o) fun l r _ => fpMul true l r
  | fmaD (o) : FloatResult (.fmaD o) fun l r x => fpFma true l r x
  | fminD (o) : FloatResult (.fminD o) fun l r _ => fpMin true l r
  | fmaxD (o) : FloatResult (.fmaxD o) fun l r _ => fpMax true l r
  | fcvtfiD (o) : FloatResult (.fcvtfiD o) fun l _ _ => fpToInt true l
  | fcvtifD (o) : FloatResult (.fcvtifD o) fun l _ _ => fpOfInt true l
  | fcvtffD (o) : FloatResult (.fcvtffD o) fun l _ _ => fpCvt true l
  | fteqD (o) : FloatResult (.fteqD o) fun l r _ => fpEq true l r
  | ftltD (o) : FloatResult (.ftltD o) fun l r _ => fpLt true l r
  | ftleD (o) : FloatResult (.ftleD o) fun l r _ => fpLe true l r
  | fclassD (o) : FloatResult (.fclassD o) fun l _ _ => (fpClass true l, 0)

/-- The scalar float forms of one step (R97 to R101). -/
def Obligations.FloatFormsComplete : Prop :=
  ∀ (i : Instr) (f : Dword → Dword → Dword → Dword × Nat) (s : State) (t : Strand) (w : Window),
    FloatResult i f → s.fires i.view t w →
    exec i s = .next (s.updWin s.cursor.sid fun w' =>
      ((w'.fire s.cursor.idx false).eventMask s.cursor.idx (f (s.left w) (s.right w) (s.third w)).2 0).deliverAll s.cursor.idx
        (s.token (.val (f (s.left w) (s.right w) (s.third w)).1)) i.view.targets)

/-- "Every compare delivers 0 when an operand is a NaN" (R98). -/
def Obligations.CompareWithNaN : Prop :=
  (∀ l r : Dword, (255 = l.toNat / 2 ^ 23 % 2 ^ 8 ∧ l.toNat % 2 ^ 23 ≠ 0) ∨ (255 = r.toNat / 2 ^ 23 % 2 ^ 8 ∧ r.toNat % 2 ^ 23 ≠ 0) →
    (fpEq false l r).1 = 0 ∧ fpLt false l r = (0, 1) ∧ fpLe false l r = (0, 1)) ∧
  (∀ l r : Dword, (2047 = l.toNat / 2 ^ 52 % 2 ^ 11 ∧ l.toNat % 2 ^ 52 ≠ 0) ∨ (2047 = r.toNat / 2 ^ 52 % 2 ^ 11 ∧ r.toNat % 2 ^ 52 ≠ 0) →
    (fpEq true l r).1 = 0 ∧ fpLt true l r = (0, 1) ∧ fpLe true l r = (0, 1)) ∧
  (∀ (d : Bool) (l r : Dword), ((fpEq d l r).1 = 0 ∨ (fpEq d l r).1 = 1) ∧ ((fpLt d l r).1 = 0 ∨ (fpLt d l r).1 = 1) ∧
    ((fpLe d l r).1 = 0 ∨ (fpLe d l r).1 = 1))

/-- The forms that go through a divider: whether it is the float unit, the result and the events, and the steps the form takes there (R93,
R96, R98, R102). -/
inductive DivideForm : Instr → Bool → (Dword → Dword → Dword × Nat) → Nat → Prop where
  | div (o) : DivideForm (.div o) false (fun l r => (if r = 0 then -1 else l.sdiv r, 0)) 16
  | divu (o) : DivideForm (.divu o) false (fun l r => (if r = 0 then -1 else l / r, 0)) 16
  | rem (o) : DivideForm (.rem o) false (fun l r => (if r = 0 then l else l.srem r, 0)) 16
  | remu (o) : DivideForm (.remu o) false (fun l r => (if r = 0 then l else l % r, 0)) 16
  | fdivS (o) : DivideForm (.fdivS o) true (fun l r => fpDiv false l r) 6
  | fsqrtS (o) : DivideForm (.fsqrtS o) true (fun l _ => fpSqrt false l) 6
  | frsqrtS (o) : DivideForm (.frsqrtS o) true (fun l _ => fpRsqrt false l) 6
  | fdivD (o) : DivideForm (.fdivD o) true (fun l r => fpDiv true l r) 11
  | fsqrtD (o) : DivideForm (.fsqrtD o) true (fun l _ => fpSqrt true l) 11
  | frsqrtD (o) : DivideForm (.frsqrtD o) true (fun l _ => fpRsqrt true l) 11

/-- The divisions and roots up to their unit (R92, R93, R96, R98, R102). -/
def Obligations.DivisionFormsComplete : Prop :=
  ∀ (i : Instr) (float : Bool) (f : Dword → Dword → Dword × Nat) (n : Nat) (s : State) (t : Strand) (w : Window),
    DivideForm i float f n → s.fires i.view t w →
    exec i s = .next (s.didFire.updCore (coreOf s.cursor.sid) fun k =>
      let d : DivOp := { key := s.front.stop, sid := s.cursor.sid, idx := s.cursor.idx, result := (f (s.left w) (s.right w)).1,
                         flags := (f (s.left w) (s.right w)).2, left := n }
      if float then { k with fdivWait := d.insert k.fdivWait } else { k with idivWait := d.insert k.idivWait })

/-- DIVIDE_START, DIVIDE_COMPLETE, FP_DIVIDE_START and FP_DIVIDE_COMPLETE (R96, R102). -/
def Obligations.DividersComplete : Prop :=
  ∀ (s : State) (c : Nat) (d : DivOp) (rest : List DivOp),
    (((s.core c).idivWait = d :: rest ∧ (s.core c).fe.stop ≤ s.now) →
      ((s.core c).idiv.has 0 = false → exec (.divideStart c) s = .next (s.updCore c fun k => { k with idivWait := rest, idiv := k.idiv.put 0 d })) ∧
      ((s.core c).idiv.has 0 = true ∧ (s.core c).idiv.has 1 = false →
        exec (.divideStart c) s = .next (s.updCore c fun k => { k with idivWait := rest, idiv := k.idiv.put 1 d }))) ∧
    ((s.core c).fdivWait = d :: rest ∧ (s.core c).fdiv = none ∧ (s.core c).fe.stop ≤ s.now →
      exec (.fpDivideStart c) s = .next (s.updCore c fun k => { k with fdivWait := rest, fdiv := some d })) ∧
    (∀ (t : Strand) (w : Window) (v : View), s.strands.get? d.sid = some t → t.win = some w → w.view d.idx = some v →
      (s.core c).fe.stop ≤ s.now → d.left = 0 → d.dead = false →
      (∀ u, (s.core c).idiv.get? u = some d → exec (.divideComplete c u) s = .next
        ((s.updCore c fun k => { k with idiv := k.idiv.erase u }).updStrand d.sid (·.withWin
          ((w.eventMask d.idx d.flags 0).deliverAll d.idx { tok := .val d.result, at_ := s.now } v.targets)))) ∧
      ((s.core c).fdiv = some d → exec (.fpDivideComplete c) s = .next
        ((s.updCore c fun k => { k with fdiv := none }).updStrand d.sid (·.withWin
          ((w.eventMask d.idx d.flags 0).deliverAll d.idx { tok := .val d.result, at_ := s.now } v.targets)))))

/-- VECTOR_DISPATCH, FIFO_ACCEPT, VECTOR_EXECUTE_START, VECTOR_EXECUTE_DONE and LANE_SLICE_GATE (R279, R280, R324, R337). -/
def Obligations.LanePipeComplete : Prop :=
  ∀ (s : State) (c : Nat),
    (∀ x, (s.core c).fe.start ≤ s.now → s.now < (s.core c).fe.stop → (s.core c).issue = none → s.pickVec c = some x →
      (s.updCore c fun k => { k with issue := some (x.c.sid, x.c.idx), issueRr := ctxnOf x.c.sid, late := x.lates k.late }).dispatchBad x.c x.v = none →
      ∃ sent : State, exec (.vectorDispatch c) s = .next sent ∧
        ((∀ p o, x.v ≠ .tile p o) → sent = s.updCore c fun k => { k with
          issue := some (x.c.sid, x.c.idx), issueRr := ctxnOf x.c.sid, late := x.lates k.late,
          inbox := k.inbox ++ [{ sid := x.c.sid, idx := x.c.idx, sent := k.fe.stop, cls := 2, left := 0,
                                 writes := writesReg x.v (x.c.t.fw x.v), aged := false, ran := false, tok := none }] }) ∧
        (∀ p o, x.v = .tile p o → sent = (s.updWin x.c.sid fun w => w.deliverAll x.c.idx
            { tok := .val 0, at_ := (s.core c).fe.stop } x.v.targets).updCore c fun k => { k with
          issue := some (x.c.sid, x.c.idx), issueRr := ctxnOf x.c.sid, late := x.lates k.late,
          inbox := k.inbox ++ [{ sid := x.c.sid, idx := x.c.idx, sent := k.fe.stop, cls := 2, left := 0,
                                 writes := writesReg x.v (x.c.t.fw x.v), aged := false, ran := false, tok := none }] })) ∧
    (∀ e rest, (s.core c).inbox = e :: rest → s.clocked c = true → (∀ kv ∈ s.links, kv.2.retraining = false) → (s.core c).lanesStand s.now = true →
      e.sent + 3 ≤ s.now → (s.core c).rd = none →
      exec (.fifoAccept c 0) s = .next (s.updCore c fun k => { k with inbox := rest, rd := some e, gated := [] })) ∧
    (∀ e t w v, (s.core c).rd = some e → (s.core c).lanes.stop ≤ s.now → (s.core c).ex = none → e.aged = true → s.clocked c = true →
      s.strands.get? e.sid = some t → t.win = some w → w.view e.idx = some v →
      exec (.vectorExecuteStart c) s = .next (s.updCore c fun k => { k with
        rd := none, ex := some { e with cls := (w.timing t e.idx v).1, left := (w.timing t e.idx v).2, aged := false } })) ∧
    (∀ e, (s.core c).ex = some e → (s.core c).lanes.stop ≤ s.now → e.left = 0 → e.ran = true → (s.core c).wr = none →
      (e.writes = true → exec (.vectorExecuteDone c) s = .next (s.updCore c fun k => { k with ex := none, wr := some e })) ∧
      (∀ x, e.writes = false → e.tok = some x → exec (.vectorExecuteDone c) s = .next (s.updCore c fun k => { k with
        ex := none, toFe := k.toFe ++ [{ sid := e.sid, idx := e.idx, sent := s.now, tok := some x }] }))) ∧
    (∀ d rest t w v x, (s.core c).toFe = d :: rest → s.clocked c = true → (∀ kv ∈ s.links, kv.2.retraining = false) →
      (s.core c).fe.stop ≤ s.now → d.sent + 3 ≤ s.now → d.tok = some x → s.strands.get? d.sid = some t → t.win = some w → w.view d.idx = some v →
      exec (.fifoAccept c 1) s = .next ((s.updCore c fun k => { k with toFe := rest, wake := true }).updStrand d.sid (·.withWin
        (w.deliverAll d.idx { tok := x, at_ := s.now } v.targets)))) ∧
    (∀ die, die < 8 → (s.core c).gated.contains die = false → (s.core c).lanes.stop + 2048 ≤ s.now →
      ((s.core c).slices.getD die .reset).stop + 2048 ≤ s.now → (∀ b ∈ (s.core c).banks, b / 8 ≠ die) → 50 ≤ (s.cluster (clusterOf c)).cltr.toNat →
      (s.core c).rd = none → (s.core c).ex = none → (s.core c).wr = none →
      exec (.laneSliceGate c die) s = .next (s.updCore c fun k => { k with gated := die :: k.gated }))

/-- Delivery (R28, R74). -/
def Obligations.DeliveryToASlot : Prop :=
  ∀ (w : Window) (src : Nat) (h : Held),
    w.deliver src h .none = w ∧
    (∀ g, w.slots.get? g.toNat = none → (w.deliver src h (.reg g)).slots.get? g.toNat = some { h with src := src } ∧
      (∀ k, k ≠ g.toNat → (w.deliver src h (.reg g)).slots.get? k = w.slots.get? k) ∧
      w.deliver src h (.reg g) = { w with slots := (w.deliver src h (.reg g)).slots }) ∧
    (∀ g x, w.slots.get? g.toNat = some x → w.deliver src h (.reg g) = { w with fault := (w.deliver src h (.reg g)).fault } ∧
      (w.fault = none → ∃ f, (w.deliver src h (.reg g)).fault = some f ∧ f.kind = 0x0C ∧ f.sub = 0 ∧ f.index = if x.at_ = h.at_ then max x.src src else src)) ∧
    (∀ i : BitVec 7, (w.op i.toNat).l = none → (w.deliver src h (.left i)).op i.toNat = { w.op i.toNat with l := some { h with src := src } } ∧
      (∀ k, k ≠ i.toNat → (w.deliver src h (.left i)).op k = w.op k) ∧
      w.deliver src h (.left i) = { w with ops := (w.deliver src h (.left i)).ops }) ∧
    (∀ i : BitVec 7, (w.op i.toNat).r = none → (w.deliver src h (.right i)).op i.toNat = { w.op i.toNat with r := some { h with src := src } } ∧
      (∀ k, k ≠ i.toNat → (w.deliver src h (.right i)).op k = w.op k) ∧
      w.deliver src h (.right i) = { w with ops := (w.deliver src h (.right i)).ops }) ∧
    (∀ i : BitVec 7, (w.op i.toNat).t = none → (w.deliver src h (.third i)).op i.toNat = { w.op i.toNat with t := some { h with src := src } } ∧
      (∀ k, k ≠ i.toNat → (w.deliver src h (.third i)).op k = w.op k) ∧
      w.deliver src h (.third i) = { w with ops := (w.deliver src h (.third i)).ops }) ∧
    (∀ (i : BitVec 7) x, (w.op i.toNat).l = some x → w.deliver src h (.left i) = { w with fault := (w.deliver src h (.left i)).fault } ∧
      (w.fault = none → ∃ f, (w.deliver src h (.left i)).fault = some f ∧ f.kind = 0x0C ∧ f.sub = 0 ∧ f.index = if x.at_ = h.at_ then max x.src src else src)) ∧
    (∀ (i : BitVec 7) x, (w.op i.toNat).r = some x → w.deliver src h (.right i) = { w with fault := (w.deliver src h (.right i)).fault } ∧
      (w.fault = none → ∃ f, (w.deliver src h (.right i)).fault = some f ∧ f.kind = 0x0C ∧ f.sub = 0 ∧ f.index = if x.at_ = h.at_ then max x.src src else src)) ∧
    (∀ (i : BitVec 7) x, (w.op i.toNat).t = some x → w.deliver src h (.third i) = { w with fault := (w.deliver src h (.third i)).fault } ∧
      (w.fault = none → ∃ f, (w.deliver src h (.third i)).fault = some f ∧ f.kind = 0x0C ∧ f.sub = 0 ∧ f.index = if x.at_ = h.at_ then max x.src src else src))

/-- The exits: the kind under which the block remembers each, the address it goes to and the value that its commit keeps, from the block and
the left operand (R86 to R89). -/
inductive ExitForm : Instr → Nat → (Window → Dword → Dword) → (Window → Dword → Dword) → Prop where
  | br (o : BOp) : ExitForm (.br o) 0 (fun w _ => w.blk.base + BitVec.ofInt 64 (32 * o.off.toInt)) (fun _ _ => 0)
  | call (o : BOp) : ExitForm (.call o) 1 (fun w _ => w.blk.base + BitVec.ofInt 64 (32 * o.off.toInt)) (fun _ l => l)
  | bro (o) : ExitForm (.bro o) 0 (fun _ l => l) (fun _ _ => 0)
  | callo (o) : ExitForm (.callo o) 1 (fun _ l => l) (fun w _ => w.blk.base + BitVec.ofNat 64 (32 * ((63 + w.blk.len) / 32)))
  | halt (o) : ExitForm (.halt o) 2 (fun w _ => w.blk.base + BitVec.ofNat 64 (32 * ((63 + w.blk.len) / 32))) (fun _ _ => 0)
  | yld (o) : ExitForm (.yld o) 3 (fun w _ => w.blk.base + BitVec.ofNat 64 (32 * ((63 + w.blk.len) / 32))) (fun _ _ => 0)
  | sys (o) : ExitForm (.sys o) 4 (fun w _ => w.blk.base + BitVec.ofNat 64 (32 * ((63 + w.blk.len) / 32))) (fun _ l => l)
  | brk (o) : ExitForm (.brk o) 5 (fun w _ => w.blk.base + BitVec.ofNat 64 (32 * ((63 + w.blk.len) / 32))) (fun _ _ => 0)

/-- The exits (R74, R86 to R89). -/
def Obligations.ExitsComplete : Prop :=
  ∀ (i : Instr) (kind : Nat) (target link : Window → Dword → Dword) (s : State) (t : Strand) (w : Window),
    ExitForm i kind target link → s.fires i.view t w →
    (w.exit = none → ((∃ o, i = .bro o) ∨ (∃ o, i = .callo o) → (s.left w).toNat % 32 = 0) →
      exec i s = .next (s.updWin s.cursor.sid fun w' => { w'.fire s.cursor.idx false with
        exit := some { idx := s.cursor.idx, at_ := s.front.stop, kind := kind, target := target w (s.left w), link := link w (s.left w) } })) ∧
    (∀ e, w.exit = some e → ((∃ o, i = .bro o) ∨ (∃ o, i = .callo o) → (s.left w).toNat % 32 = 0) →
      exec i s = .next (s.updWin s.cursor.sid fun w' => (w'.fire s.cursor.idx false).record
        { key := s.front.stop, cls := 4, kind := 0x0D, sub := 0, index := if e.at_ = s.front.stop then max e.idx s.cursor.idx else s.cursor.idx,
          vaddr := 0, info := 0, info2 := 0 })) ∧
    ((∃ o, i = .bro o) ∨ (∃ o, i = .callo o) → (s.left w).toNat % 32 ≠ 0 →
      ∃ s' t' w' f, exec i s = .next s' ∧ s'.strands.get? s.cursor.sid = some t' ∧ t'.win = some w' ∧ w'.fault = some f ∧
        f.kind = 0x0B ∧ f.index = s.cursor.idx)

/-- The rule of nulls (R70). -/
def Obligations.NullOperands : Prop :=
  ∀ (i : Instr) (s : State) (t : Strand) (w : Window), isEvent i = false → s.firesNull i.view t w →
    (∀ e, (s.core (coreOf s.cursor.sid)).ex = some e → ¬(e.sid = s.cursor.sid ∧ e.idx = s.cursor.idx ∧ e.ran = false)) →
    exec i s = .next (s.updWin s.cursor.sid fun w' =>
      let u := { w'.fire s.cursor.idx true with
        v := nullRen w'.v s.cursor.idx (i.view.vdests (t.fw i.view)), m := nullRen w'.m s.cursor.idx i.view.mdests, scl := nullRen w'.scl s.cursor.idx (i.view.sdests (t.fw i.view)) }
      if i.view.isExit then u
      else ((match i.view.lsid? with | some l => u.resolve l s.cursor.idx s.front.stop | none => u)).deliverAll s.cursor.idx (s.token .null) i.view.targets) ∧
    ((∃ f, IntResult i f) ∨ (∃ f, FloatResult i f) ∨ (∃ b f n, DivideForm i b f n) →
      exec i s = .next (s.updWin s.cursor.sid fun w' => (w'.fire s.cursor.idx true).deliverAll s.cursor.idx (s.token .null) i.view.targets)) ∧
    ((∃ k a b, ExitForm i k a b) → exec i s = .next (s.updWin s.cursor.sid fun w' => w'.fire s.cursor.idx true))

/-- The scalar loads: XOP and size in bytes (R103). -/
inductive LoadForm : Instr → MOp → Nat → Nat → Prop where
  | ldb (o) : LoadForm (.ldb o) o 0 1
  | ldbu (o) : LoadForm (.ldbu o) o 1 1
  | ldh (o) : LoadForm (.ldh o) o 2 2
  | ldhu (o) : LoadForm (.ldhu o) o 3 2
  | ldw (o) : LoadForm (.ldw o) o 4 4
  | ldwu (o) : LoadForm (.ldwu o) o 5 4
  | ldd (o) : LoadForm (.ldd o) o 6 8

/-- The scalar stores: XOP and size in bytes (R104, R106). -/
inductive StoreForm : Instr → MOp → Nat → Nat → Prop where
  | stb (o) : StoreForm (.stb o) o 0 1
  | sth (o) : StoreForm (.sth o) o 1 2
  | stw (o) : StoreForm (.stw o) o 2 4
  | std (o) : StoreForm (.std o) o 3 8
  | stqw (o) : StoreForm (.stqw o) o 5 4
  | stqd (o) : StoreForm (.stqd o) o 6 8

/-- The address of a scalar access (R103). -/
def scalarAt (l : Dword) (o : MOp) (size : Nat) : Nat := (l + BitVec.ofInt 64 (o.off.toInt * size)).toNat

/-- An access that has just fired, of one operand. -/
def firedAccess (o : MOp) (acc a size : Nat) : Access := .new o.lsid.toNat acc 0 [{ key := 0, va := a, bit := 0, w := 8 * size, size := size }]

/-- Scalar loads and stores as they fire (R103 to R106). -/
def Obligations.ScalarAccessesComplete : Prop :=
  ∀ (i : Instr) (o : MOp) (xop size : Nat) (s : State) (t : Strand) (w : Window), s.fires i.view t w →
    (LoadForm i o xop size →
      (scalarAt (s.left w) o size % size = 0 → exec i s = .next (s.updWin s.cursor.sid fun w' => { w'.fire s.cursor.idx false with
        accs := w'.accs.put s.cursor.idx { firedAccess o 0 (scalarAt (s.left w) o size) size with sent := s.front.stop } })) ∧
      (scalarAt (s.left w) o size % size ≠ 0 → exec i s = .next (s.faulted 0x05 0 (scalarAt (s.left w) o size) 0))) ∧
    (StoreForm i o xop size →
      (scalarAt (s.left w) o size % size = 0 → exec i s = .next (s.updWin s.cursor.sid fun w' => { w'.fire s.cursor.idx false with
        accs := w'.accs.put s.cursor.idx { firedAccess o 1 (scalarAt (s.left w) o size) size with
          out := (List.range size).map fun k => (scalarAt (s.left w) o size + k, { val := BitVec.ofNat 8 ((s.right w).toNat / 2 ^ (8 * k)), mask := 0xFF }) } })) ∧
      (scalarAt (s.left w) o size % size ≠ 0 → exec i s = .next (s.faulted 0x05 0 (scalarAt (s.left w) o size) 1)))

/-- SCALAR_PROBE_COMPLETE (R104, R106, R107, R108, R181, R246, R252, R256). -/
def Obligations.ProbesComplete : Prop :=
  ∀ (s : State) (sid idx : Nat) (t : Strand) (w : Window) (a : Access), s.probed sid idx t w a →
    (∀ xop o v, (v = View.mem 0x19 xop o ∨ ∃ op m, v = View.vm op xop m ∧ ¬(op = 0x2E ∧ xop = 3)) → w.view idx = some v → a.acc = 0 →
      w.atomicOver a.lsid ((a.parts.flatMap Part.bytes).filterMap (physOf (coreOf sid) a.xl)) = false →
      w.tileOver (coreOf sid) a.lsid ((a.parts.flatMap Part.bytes).filterMap (physOf (coreOf sid) a.xl)) = false →
      exec (.scalarProbeComplete sid idx) s = .next (s.updWin sid fun w => { w with
        accs := w.accs.put idx { a with phase := .reading, segs := segsOf (coreOf sid) a.xl a.unit a.parts } })) ∧
    (∀ xop o, w.view idx = some (.mem 0x1A xop o) → xop < 4 ∨ xop = 5 ∨ xop = 6 → a.acc = 1 → t.pinCheck (accessPins a.xl a.parts) = .fits →
      exec (.scalarProbeComplete sid idx) s = .next (s.updWin sid fun w => (w.buffered s sid idx a (stampReg xop o.t0) false).deliverAll idx
        (s.tokAt (coreOf sid) (if xop < 4 then .val 0 else .later)) [o.t0])) ∧
    (∀ op xop m, w.view idx = some (.vm op xop m) → ¬(op = 0x2E ∧ xop = 1) → a.acc = 1 → t.pinCheck (accessPins a.xl a.parts) = .fits →
      exec (.scalarProbeComplete sid idx) s = .next (s.updWin sid fun w => w.buffered s sid idx a none false)) ∧
    (∀ m, w.view idx = some (.vm 0x2E 1 m) → a.acc = 1 → t.pinCheck (accessPins a.xl a.parts) = .fits →
      exec (.scalarProbeComplete sid idx) s = .next ((s.vscTake sid idx t w a m.msk.toNat).1.updWin sid fun w =>
        w.buffered (s.vscTake sid idx t w a m.msk.toNat).1 sid idx (s.vscTake sid idx t w a m.msk.toNat).2 none true)) ∧
    (∀ xop v t0 p l x z pa va r y g sn pins, (∃ o, v = View.amo 0x1B xop o ∧ o.t0 = t0) ∨ (∃ o, v = View.amo3 xop o ∧ o.t0 = t0) → w.view idx = some v →
      a.acc = 3 → a.parts = [p] → w.posts.get? idx = some (.atomic l x z pa va r y g sn pins) → t.pinCheck (accessPins a.xl a.parts) = .fits →
      ∀ q, physOf (coreOf sid) a.xl p.va = some q → s.noRoute q = false → w.loadOver (coreOf sid) a.lsid (fun b => q ≤ b && b < q + p.size) = none →
      exec (.scalarProbeComplete sid idx) s = .next (s.updWin sid fun w =>
        (({ w with accs := w.accs.put idx { a with phase := .done },
                   posts := w.posts.put idx (.atomic l x z q va r y g sn (accessPins a.xl a.parts)) }).resolve a.lsid idx (s.stepKey (coreOf sid))).deliverAll idx
          (s.tokAt (coreOf sid) .later) [t0])) ∧
    (∀ m, w.view idx = some (.vm 0x2E 3 m) → a.acc = 0 → exec (.scalarProbeComplete sid idx) s = .next (s.armWatches sid idx a))

/-- LOAD_DATA_RETURN of a scalar load (R103, R107, R191, R194, R263, R280): the last segment, and the arrival of the value. The model's choices in it: outside
HBM a load takes no byte from the L1 (log 22); the strand's committed stores are laid over by physical address (log 94); a load that fires on values
resolves no LSID (log 73); which links a datum crosses is log 108. -/
def Obligations.LoadsReturn : Prop :=
  ∀ (s : State) (sid idx : Nat) (t : Strand) (w : Window) (a : Access) (o : MOp) (xop seg : Nat),
    s.strands.get? sid = some t → t.win = some w → w.accs.get? idx = some a → w.view idx = some (.mem 0x19 xop o) →
    idx < 128 → a.phase = .reading → w.fault = none → w.lowerResolved a.lsid = true → fencesHoldLoad t w a.lsid = false →
    (a.segs = [seg] → s.crossedTo false a.sent ((a.bytesIn (coreOf sid) seg).map (·.2)) a.route = true → w.loadBefore idx a seg = false →
      (∀ p ∈ (a.bytesIn (coreOf sid) seg).map (·.2), s.chanOpen p = true) →
      itemsHoldBytes t ((a.bytesIn (coreOf sid) seg).map (·.1)) ((a.bytesIn (coreOf sid) seg).map (·.2)) = false →
      lockHolds (s.core (coreOf sid)) t s.seq false ((a.bytesIn (coreOf sid) seg).map (·.1)) = false →
      ∀ f : Nat → Byte, (∀ b : Nat × Nat, b ∈ a.bytesIn (coreOf sid) seg → s.loads (coreOf sid) t w a b.2 (f b.2)) →
      ∃ (s' : State) (t' : Strand) (w' : Window) (a' : Access), exec (.loadDataReturn sid idx 0) s = .next s' ∧ s'.mem = s.mem ∧
        s'.strands.get? sid = some t' ∧ t'.win = some w' ∧ w'.accs.get? idx = some a' ∧ a'.phase = .reading ∧ a'.segs = [] ∧ a'.sent = s.now ∧
        a'.got = (a.bytesIn (coreOf sid) seg).foldl (fun (m : NMap Byte) (b : Nat × Nat) =>
          m.put b.1 (w.overlay a.lsid b.2 (overlayItems t b.2 (f b.2)))) a.got) ∧
    (a.segs = [] → s.crossedTo false a.sent (a.places (coreOf sid)) a.route = true → s.feOpen (coreOf sid) = true →
      exec (.loadDataReturn sid idx 0) s = .next ((s.updWin sid fun w => { w with
        accs := w.accs.put idx { a with phase := .done, got := [], xl := [] } }.deliverAll idx
          (s.tokAt (coreOf sid) (.val (loadValue xop ((a.valueAt 0).getD 0)))) [o.t0]).wakeFe (coreOf sid)))

/-- STORE_PERFORM (R104, R192, R245), with the frame of memory. -/
def Obligations.StoresPerform : Prop :=
  ∀ (s : State) (sid q k : Nat) (t : Strand) (segs : List SegW) (ordered : Bool) (stamp : Option Nat) (sc : Bool) (sent : Nat) (port : Option Nat) (g : SegW),
    Memory.wf s.mem = true → s.strands.get? sid = some t → t.items.find? (·.q == q) = some ⟨q, .store segs ordered stamp sc, sent, port⟩ → segs[k]? = some g →
    g.held = false → (ordered = true → k = 0) → s.itemOpen (coreOf sid) t q g.vas g.bytes.keys = true → s.heldLine sid g.bytes = none →
    NMap.sorted g.bytes = true → (∀ kv ∈ g.bytes, s.poisoned kv.1 = false) →
    (s.lastNow (coreOf sid) g.bytes = false → exec (.storePerform sid q k) s = .next s) ∧
    (s.lastNow (coreOf sid) g.bytes = true →
    (placeOf (g.bytes.headD (0, default)).1 = .hbm ∨ placeOf (g.bytes.headD (0, default)).1 = .scratch) →
    ∃ s', exec (.storePerform sid q k) s = .next s' ∧
      (∀ p b, g.bytes.get? p = some b → Memory.read s'.mem p = b.over (s.plainByte p)) ∧
      (∀ p, g.bytes.get? p = none → Memory.read s'.mem p = Memory.read s.mem p))

/-- STAMP_RETURN and ATOMIC_OLD_VALUE_RETURN (R106, R246). -/
def Obligations.LateValuesReturn : Prop :=
  ∀ (s : State) (sid reg item sent place : Nat) (t : Strand) (x : Dword), s.strands.get? sid = some t →
    s.crossedTo false sent [place] = true → s.feOpen (coreOf sid) = true →
    (t.pend.get? reg = some ⟨item, false, some x, sent, place⟩ → exec (.stampReturn sid reg) s =
      .next ((s.updStrand sid fun t => { t.setReg reg x with pend := t.pend.erase reg }).wakeFe (coreOf sid))) ∧
    (t.pend.get? reg = some ⟨item, true, some x, sent, place⟩ → exec (.atomicOldValueReturn sid reg) s =
      .next ((s.updStrand sid fun t => { t.setReg reg x with pend := t.pend.erase reg }).wakeFe (coreOf sid)))

/-- The atomics: XOP, size in bytes, the fields of their format (R246, R247). -/
inductive AtomicForm : Instr → Nat → Nat → BitVec 5 → BitVec 4 → Target → Prop where
  | aadd (o) : AtomicForm (.aadd o) 0 8 o.lsid o.scope o.t0
  | aand (o) : AtomicForm (.aand o) 1 8 o.lsid o.scope o.t0
  | aor (o) : AtomicForm (.aor o) 2 8 o.lsid o.scope o.t0
  | axor (o) : AtomicForm (.axor o) 3 8 o.lsid o.scope o.t0
  | amin (o) : AtomicForm (.amin o) 4 8 o.lsid o.scope o.t0
  | amax (o) : AtomicForm (.amax o) 5 8 o.lsid o.scope o.t0
  | aminu (o) : AtomicForm (.aminu o) 6 8 o.lsid o.scope o.t0
  | amaxu (o) : AtomicForm (.amaxu o) 7 8 o.lsid o.scope o.t0
  | aswap (o) : AtomicForm (.aswap o) 8 8 o.lsid o.scope o.t0
  | acas (o) : AtomicForm (.acas o) 9 8 o.lsid o.scope o.t0
  | ainc (o) : AtomicForm (.ainc o) 10 8 o.lsid o.scope o.t0
  | abfa (o) : AtomicForm (.abfa o) 11 8 o.lsid o.scope o.t0
  | aaddw (o) : AtomicForm (.aaddw o) 12 4 o.lsid o.scope o.t0
  | acasw (o) : AtomicForm (.acasw o) 13 4 o.lsid o.scope o.t0
  | aincw (o) : AtomicForm (.aincw o) 14 4 o.lsid o.scope o.t0

/-- The atomics as they fire (R246, R239). -/
def Obligations.AtomicsComplete : Prop :=
  ∀ (i : Instr) (xop size : Nat) (lsid : BitVec 5) (scope : BitVec 4) (t0 : Target) (s : State) (t : Strand) (w : Window),
    AtomicForm i xop size lsid scope t0 → s.fires i.view t w →
    ((s.left w).toNat % size ≠ 0 → exec i s = .next (s.faulted 0x05 0 (s.left w).toNat 3)) ∧
    ((s.left w).toNat % size = 0 → (s.sedge (coreOf s.cursor.sid) t.ctx scope.toNat).valid = false →
      exec i s = .next (s.faulted 0x0A scope.toNat 0 (s.sedge (coreOf s.cursor.sid) t.ctx scope.toNat).word.toNat)) ∧
    ((s.left w).toNat % size = 0 → (s.sedge (coreOf s.cursor.sid) t.ctx scope.toNat).valid = true →
      (s.sedge (coreOf s.cursor.sid) t.ctx scope.toNat).cores.getLsbD (coreOf s.cursor.sid) = false →
      exec i s = .next (s.faulted 0x09 0x03 0 0)) ∧
    ((s.left w).toNat % size = 0 → (s.sedge (coreOf s.cursor.sid) t.ctx scope.toNat).valid = true →
      (s.sedge (coreOf s.cursor.sid) t.ctx scope.toNat).cores.getLsbD (coreOf s.cursor.sid) = true →
      ∃ place, exec i s = .next (s.updWin s.cursor.sid fun w' => { w'.fire s.cursor.idx false with
        accs := w'.accs.put s.cursor.idx (.new lsid.toNat 3 place [{ key := 0, va := (s.left w).toNat, bit := 0, w := 8 * size, size := size }]),
        posts := w'.posts.put s.cursor.idx (.atomic lsid.toNat xop size 0 (s.left w).toNat (s.right w) (s.third w)
          (match t0 with | .reg g => some g.toNat | _ => none) (s.sedge (coreOf s.cursor.sid) t.ctx scope.toNat) []) }))

/-- R248: "`ainc` and `abfa` compare unsigned values." -/
def Obligations.BoundedAtomics : Prop :=
  (∀ old b t : Nat, old < 2 ^ 64 → b < 2 ^ 64 → amoNew 10 64 old b t = some (if b ≤ old then 0 else old + 1)) ∧
  (∀ old b t : Nat, old < 2 ^ 32 → amoNew 14 32 old b t = some (if b % 2 ^ 32 ≤ old then 0 else old + 1)) ∧
  (∀ old v b : Nat, old < 2 ^ 64 → v < 2 ^ 64 → b < 2 ^ 64 →
    amoNew 11 64 old v b = if old + v < 2 ^ 64 ∧ old + v ≤ b then some (old + v) else none) ∧
  (∀ (s : State) (port : Nat) (wr : Option Nat) (pa size xop r t : Nat), (s.rmw port wr pa size xop r t).1 = s.homeLe pa size) ∧
  (∀ (s : State) (port : Nat) (wr : Option Nat) (pa size xop r t : Nat), amoNew xop (8 * size) (s.homeLe pa size) r t = none →
    (s.rmw port wr pa size xop r t).2 = s) ∧
  (∀ (s : State) (port : Nat) (wr : Option Nat) (pa size xop r t x : Nat), amoNew xop (8 * size) (s.homeLe pa size) r t = some x →
    (s.rmw port wr pa size xop r t).2 = s.performBytes port wr (bytesOf pa size x))

/-- The table of R247. -/
def Obligations.AtomicValues : Prop :=
  ∀ o r t : Dword,
    amoNew 0 64 o.toNat r.toNat t.toNat = some (o + r).toNat ∧ amoNew 1 64 o.toNat r.toNat t.toNat = some (o &&& r).toNat ∧
    amoNew 2 64 o.toNat r.toNat t.toNat = some (o ||| r).toNat ∧ amoNew 3 64 o.toNat r.toNat t.toNat = some (o ^^^ r).toNat ∧
    amoNew 4 64 o.toNat r.toNat t.toNat = some (if o.toInt < r.toInt then o else r).toNat ∧
    amoNew 5 64 o.toNat r.toNat t.toNat = some (if o.toInt < r.toInt then r else o).toNat ∧
    amoNew 6 64 o.toNat r.toNat t.toNat = some (min o.toNat r.toNat) ∧ amoNew 7 64 o.toNat r.toNat t.toNat = some (max o.toNat r.toNat) ∧
    amoNew 8 64 o.toNat r.toNat t.toNat = some r.toNat ∧ amoNew 9 64 o.toNat r.toNat t.toNat = (if o = t then some r.toNat else none) ∧
    amoNew 12 32 (o.toNat % 2 ^ 32) r.toNat t.toNat = some ((o.toNat + r.toNat) % 2 ^ 32) ∧
    amoNew 13 32 (o.toNat % 2 ^ 32) r.toNat t.toNat = (if o.toNat % 2 ^ 32 = t.toNat % 2 ^ 32 then some (r.toNat % 2 ^ 32) else none)

/-- The fences and the scope forms (R239 to R241, R243). That the changes of one block are counted in the order of their LSIDs is the model's reading
(log 87), and so is that a descriptor's lines leave the L1 as it is read (log 51). -/
def Obligations.FencesAndScopesComplete : Prop :=
  ∀ (o : AOp) (s : State) (t : Strand) (w : Window),
    (∀ i k, (i = .fenceAcq o ∧ k = 0) ∨ (i = .fenceRel o ∧ k = 1) ∨ (i = .fenceAr o ∧ k = 2) ∨ (i = .fenceSc o ∧ k = 3) → s.fires i.view t w →
      (s.sedge (coreOf s.cursor.sid) t.ctx o.scope.toNat).valid = true →
      (s.sedge (coreOf s.cursor.sid) t.ctx o.scope.toNat).cores.getLsbD (coreOf s.cursor.sid) = true →
      exec i s = .next (s.updWin s.cursor.sid fun w' =>
        (((w'.fire s.cursor.idx false).post s.cursor.idx (.fence o.lsid.toNat k (s.sedge (coreOf s.cursor.sid) t.ctx o.scope.toNat))).resolve
          o.lsid.toNat s.cursor.idx s.front.stop).deliverAll s.cursor.idx (s.token (.val 0)) i.view.targets)) ∧
    (s.fires (Instr.scopeGet o).view t w → exec (.scopeGet o) s = .next (s.updWin s.cursor.sid fun w' =>
      ((w'.fire s.cursor.idx false).resolve o.lsid.toNat s.cursor.idx s.front.stop).deliverAll s.cursor.idx
        (s.token (.val (s.sedge (coreOf s.cursor.sid) t.ctx o.scope.toNat).word)) (Instr.scopeGet o).view.targets)) ∧
    (s.fires (Instr.scopeGen o).view t w → exec (.scopeGen o) s = .next (s.updWin s.cursor.sid fun w' =>
      ((w'.fire s.cursor.idx false).resolve o.lsid.toNat s.cursor.idx s.front.stop).deliverAll s.cursor.idx
        (s.token (.val ((s.sedgeMaster (coreOf s.cursor.sid) t.ctx o.scope.toNat).gen.zeroExtend 64))) (Instr.scopeGen o).view.targets)) ∧
    (s.fires (Instr.scopeInv o).view t w → exec (.scopeInv o) s = .next
      ((s.updCtx t.ctx fun k => { k with resv := k.resv.put o.scope.toNat s.cursor.sid }).updWin s.cursor.sid fun w' =>
        (((w'.fire s.cursor.idx false).post s.cursor.idx (.scopeInv o.scope.toNat)).resolve o.lsid.toNat s.cursor.idx s.front.stop).deliverAll s.cursor.idx
          (s.token (.val (((s.sedgeMaster (coreOf s.cursor.sid) t.ctx o.scope.toNat).gen + 1 +
            BitVec.ofNat 8 (w.changesBelow o.lsid.toNat o.scope.toNat)).zeroExtend 64))) (Instr.scopeInv o).view.targets)) ∧
    (∀ x, s.fires (Instr.scopeSet o).view t w → inSp (s.left w).toNat 32 → (s.left w).toNat % 32 = 0 →
      s.readOpen s.cursor.sid t (s.left w).toNat 32 = true → s.readFor (coreOf s.cursor.sid) t w [] (s.left w).toNat 32 = x →
      (x / 2 ^ 50 ≠ 0 → exec (.scopeSet o) s = .next ((s.hasRead (s.left w).toNat 32).faulted 0x09 0x01 0 0)) ∧
      (x / 2 ^ 50 = 0 → x % 2 ^ 32 = 0 → exec (.scopeSet o) s = .next ((s.hasRead (s.left w).toNat 32).faulted 0x09 0x02 0 0)) ∧
      (x / 2 ^ 50 = 0 → x % 2 ^ 32 ≠ 0 → ∃ d : Sedge,
        d.gen = (s.sedgeMaster (coreOf s.cursor.sid) t.ctx o.scope.toNat).gen + 1 + BitVec.ofNat 8 (w.changesBelow o.lsid.toNat o.scope.toNat) ∧ d.valid = true ∧
        d.cores.toNat = x % 2 ^ 32 ∧ d.l2.toNat = x / 2 ^ 32 % 2 ^ 8 ∧ d.slough.toNat = x / 2 ^ 40 % 2 ^ 8 ∧ d.host = x.testBit 48 ∧
        d.fabric = x.testBit 49 ∧ d.meet = d.meetOf ∧
        exec (.scopeSet o) s = .next
          (((s.hasRead (s.left w).toNat 32).updCtx t.ctx fun k => { k with resv := k.resv.put o.scope.toNat s.cursor.sid }).updWin s.cursor.sid fun w' =>
            (((w'.fire s.cursor.idx false).post s.cursor.idx (.scopeSet o.scope.toNat d)).resolve o.lsid.toNat s.cursor.idx s.front.stop).deliverAll
              s.cursor.idx (s.token (.val (d.gen.zeroExtend 64))) (Instr.scopeSet o).view.targets)))

/-- R238: "When an entry is written, the Zepen computes its meeting point from the first row that applies". -/
def Obligations.MeetingPoint : Prop :=
  ∀ e : Sedge,
    (e.fabric = true → e.meetOf = 3) ∧ (e.fabric = false → e.host = true → e.meetOf = 2) ∧
    (e.fabric = false → e.host = false → (∃ c, c < 32 ∧ e.cores.toNat = 2 ^ c) → e.l2 = 0 → e.slough = 0 → e.meetOf = 0) ∧
    (e.fabric = false → e.host = false → ¬((∃ c, c < 32 ∧ e.cores.toNat = 2 ^ c) ∧ e.l2 = 0 ∧ e.slough = 0) → e.meetOf = 1)

/-- ATOMIC_PERFORM, HELD_WRITE_RELEASE, SCOPE_ACKNOWLEDGE, SLEEP_EXPIRY, QDL_DEADLINE_PASS and WATCHED_LINE_WRITE. -/
def Obligations.SynchronisationEventsComplete : Prop :=
  ∀ (s : State),
    (∀ sid q t xop size pa va r x reg sn pins sent, s.strands.get? sid = some t →
      t.items.find? (·.q == q) = some ⟨q, .atomic xop size pa va r x reg sn pins, sent, none⟩ →
      s.itemOpen (coreOf sid) t q ((List.range size).map (va + ·)) ((List.range size).map (pa + ·)) = true → placeOf pa = .hbm →
      s.heldLine sid (bytesOf pa size 0) = none → s.lastNow (coreOf sid) (bytesOf pa size 0) = true → s.poisoned pa = false →
      ∃ s', exec (.atomicPerform sid q) s = .next s' ∧ s'.mem = (s.rmw (coreOf sid) (some sid) pa size xop r.toNat x.toNat).2.mem ∧
        s'.strands.get? sid = ((s.rmw (coreOf sid) (some sid) pa size xop r.toNat x.toNat).2.strands.get? sid).map fun t =>
          ((t.dropItem q).answer s.now reg q (BitVec.ofNat 64 (s.homeLe pa size)) pa).saw q s'.homeByte ((List.range size).map (pa + ·))) ∧
    (∀ line h rest, s.held.get? line = some (h :: rest) → h.item = none → s.heldLine 256 h.bytes = none → s.laterNow h.bytes = true →
      (s.hostDown = true → ∀ kv ∈ h.bytes, placeOf kv.1 ≠ .host) →
      exec (.heldWriteRelease line) s = .next
        ((State.arrive { s with held := if rest.isEmpty then s.held.erase line else s.held.put line rest } h.port h.bytes).doneMsix h.src)) ∧
    (∀ line h rest sid q j t k, s.held.get? line = some (h :: rest) → h.item = some (sid, q, j) → s.strands.get? sid = some t → t.heldSeg q h.bytes = some k →
      s.heldLine sid h.bytes = none → s.laterNow h.bytes = true →
      ∀ n u, State.placeBytes { s with held := if rest.isEmpty then s.held.erase line else s.held.put line rest } sid t.gang h.bytes = (n, u) →
      exec (.heldWriteRelease line) s = .next (u.segDone sid q k n)) ∧
    (∀ core ctx e x, s.contexts.get? ctx = some x → x.unacked.contains (core, e) = true → x.sentAt.getD e 0 + 3 ≤ s.now → s.feOpen core = true →
      exec (.scopeAcknowledge core ctx e) s = .next ((s.updCtx ctx fun x => { x with
        unacked := x.unacked.filter (· != (core, e)),
        copies := x.copies.adjust core fun m => match x.table.get? e with | some d => NMap.put m e d | none => NMap.erase m e }).wakeFe core)) ∧
    (∀ sid t q, s.strands.get? sid = some t → t.sleepTo = some q → q ≤ s.now →
      exec (.sleepExpiry sid) s = .next (s.updStrand sid fun t => { t with sleepTo := none })) ∧
    (∀ sid t z, s.strands.get? sid = some t → t.vsleep = some z → t.qdl ≠ 0 → t.qdl ≤ s.qtime →
      exec (.qdlDeadlinePass sid) s = .next ((s.updStrand sid fun t => { t with
        vsleep := none, wstat := BitVec.ofNat 64 (2 ^ 62 + t.wstat.toNat % 2 ^ 22) }).updCore (coreOf sid) fun c =>
          { c with watches := c.watches.filter (·.1 != sid) })) ∧
    (∀ core line, NMap.sorted s.strands = true → s.clocked core = true → (∃ sid t, s.strands.get? sid = some t ∧ t.sleepsOn core sid line) →
      ∃ s', exec (.watchedLineWrite core line) s = .next s' ∧ s'.mem = s.mem ∧
        (∀ sid t, s.strands.get? sid = some t → t.sleepsOn core sid line → s'.strands.get? sid = some { t with
          vsleep := none, wstat := BitVec.ofNat 64 ((if t.qdl ≠ 0 ∧ t.qdl ≤ s.qtime then 1 else 0) * 2 ^ 62 + t.wstat.toNat % 2 ^ 22) }) ∧
        (∀ sid t, s.strands.get? sid = some t → ¬t.sleepsOn core sid line → s'.strands.get? sid = some t) ∧
        ∀ sid l, (sid, l) ∈ (s'.core core).watches ↔ (sid, l) ∈ (s.core core).watches ∧ ∀ t, s.strands.get? sid = some t → ¬t.sleepsOn core sid line)

/-- The forms of GANG, TIM and VCFG that deliver a value and do nothing else: the value, from the state, the strand and its block (R146, R257,
R285). -/
inductive StateForm : Instr → (State → Strand → Window → Nat) → Prop where
  | gid (o) : StateForm (.gid o) fun _ t _ => t.gang
  | gsize (o) : StateForm (.gsize o) fun s t _ => match s.gangs.get? t.gang with | some g => g.gsize | none => 0
  | cid (o) : StateForm (.cid o) fun _ t _ => t.cid
  | qtime (o) : StateForm (.qtime o) fun s _ _ => s.front.start
  | qlocal (o) : StateForm (.qlocal o) fun s _ _ => s.front.count s.front.start
  | qper (o) : StateForm (.qper o) fun s _ _ => s.front.floor
  | vlget (o) : StateForm (.vlget o) fun _ t w => match w.vl with | some n => n | none => t.vl.toNat
  | vgrant (o) : StateForm (.vgrant o) fun _ t _ => match t.posted with | some n => n | none => t.grant

/-- The forms that read the state (R146, R257, R285). -/
def Obligations.StateReadingFormsComplete : Prop :=
  ∀ (i : Instr) (f : State → Strand → Window → Nat) (s : State) (t : Strand) (w : Window), StateForm i f → s.fires i.view t w →
    exec i s = .next (s.answered i.view (.val (BitVec.ofNat 64 (f s t w))))

/-- The forms that deliver a value and post their effect to the commit of the block (R73): what is posted and what is delivered. -/
inductive PostingForm : Instr → (State → Strand → Window → Post) → (State → Strand → Window → Dword) → Prop where
  | bar (o) : PostingForm (.bar o) (fun _ _ _ => .bar) (fun _ _ _ => 0)
  | sleep (o) : PostingForm (.sleep o) (fun s _ w => .sleep (s.left w)) (fun _ _ _ => 0)
  | qdl (o) : PostingForm (.qdl o) (fun s _ w => .ctl 0x030 (s.left w)) (fun _ t _ => t.qdl)
  | vrel (o) : PostingForm (.vrel o) (fun _ _ _ => .vrel) (fun _ _ _ => 0)
  | vawclr (o) : PostingForm (.vawclr o) (fun _ _ _ => .vawclr) (fun _ _ _ => 0)

/-- The forms that only post (R146, R255, R257, R285). -/
def Obligations.PostingFormsComplete : Prop :=
  ∀ (i : Instr) (p : State → Strand → Window → Post) (x : State → Strand → Window → Dword) (s : State) (t : Strand) (w : Window),
    PostingForm i p x → s.fires i.view t w → exec i s = .next (s.answeredPosting i.view (p s t w) (.val (x s t w)))

/-- `vlset` and `vlmax` (R145, R146). -/
def Obligations.VectorLengthForms : Prop :=
  ∀ (o : GOp) (s : State) (t : Strand) (w : Window),
    let most (f : Nat) : Nat := 1024 * (match t.posted with | some k => k | none => t.grant) * 8 * 2 ^ (f / 2 ^ 24 % 4) /
      max (fmtOf (f % 256)).width (max (fmtOf (f / 2 ^ 8 % 256)).width (fmtOf (f / 2 ^ 16 % 256)).width)
    (s.fires (Instr.vlset o).view t w →
      (lengthWordBad (s.right w).toNat = none →
        exec (.vlset o) s = .next (s.updWin s.cursor.sid fun w' =>
          (({ w'.fire s.cursor.idx false with vl := some (min (s.left w).toNat (min (most (s.right w).toNat) t.vceil.toNat)) }).post s.cursor.idx
              (.vlset t.slabs)).deliverAll s.cursor.idx
            (s.token (.val (BitVec.ofNat 64 (min (s.left w).toNat (min (most (s.right w).toNat) t.vceil.toNat))))) (Instr.vlset o).view.targets)) ∧
      (∀ sub, lengthWordBad (s.right w).toNat = some sub → exec (.vlset o) s = .next (s.faulted 0x06 sub 0 0))) ∧
    (s.fires (Instr.vlmax o).view t w →
      (lengthWordBad (s.left w).toNat = none →
        exec (.vlmax o) s = .next (s.answered (Instr.vlmax o).view (.val (BitVec.ofNat 64 (most (s.left w).toNat))))) ∧
      (∀ sub, lengthWordBad (s.left w).toNat = some sub → exec (.vlmax o) s = .next (s.faulted 0x06 sub 0 0)))

/-- `ctl.rd` and `ctl.wr` (R289, R292; the classes of their faults R76, R299). That a user strand's access to a number of 0x100 to 0x1FF that is not
assigned is the permission fault is the model's reading (log 59). -/
def Obligations.ControlRegisterForms : Prop :=
  (∀ (o : GOp) (s : State) (t : Strand) (w : Window) (i : Instr), i = .ctlRd o ∨ i = .ctlWr o → s.fires i.view t w →
    (t.sup = false → 0x100 ≤ (s.left w).toNat → (s.left w).toNat ≤ 0x1FF → exec i s = .next (s.faulted 0x04 0x06 0 0)) ∧
    (¬(t.sup = false ∧ 0x100 ≤ (s.left w).toNat ∧ (s.left w).toNat ≤ 0x1FF) →
      ((0xFFF < (s.left w).toNat ∨ s.ctlRead s.cursor.sid t (s.left w).toNat = none) → exec i s = .next (s.faulted 0x12 0x01 0 0)) ∧
      (∀ x, (s.left w).toNat ≤ 0xFFF → s.ctlRead s.cursor.sid t (s.left w).toNat = some x →
        (i = .ctlRd o → exec i s = .next (s.answered i.view (.val x))) ∧
        (i = .ctlWr o → exec i s = .next (s.answeredPosting i.view (.ctl (s.left w).toNat (s.right w)) (.val 0)))))) ∧
  (∀ (t : Strand) (n : Nat) (x : Dword),
    (n = 0x010 → t.ctlWrite n x = { t with fstat := x.setWidth 6 }) ∧ (n = 0x018 → t.ctlWrite n x = { t with srseed := x.setWidth 32, sr := [] }) ∧
    (n = 0x019 → t.ctlWrite n x = { t with mstat := x.setWidth 6 }) ∧ (n = 0x030 → t.ctlWrite n x = { t with qdl := x }) ∧
    (n = 0x130 → t.ctlWrite n x = { t with btmo := x }) ∧ (n ≠ 0x010 → n ≠ 0x018 → n ≠ 0x019 → n ≠ 0x030 → n ≠ 0x130 → t.ctlWrite n x = t))

/-- The supervisor forms (R288, R292 to R295); the size of a save is `State.saveSize` (R310). -/
def Obligations.SupervisorForms : Prop :=
  ∀ (o : GOp) (s : State) (t : Strand) (w : Window),
    (∀ i, i = .tret o ∨ i = .tlbInv o ∨ i = .ctxSave o ∨ i = .ctxLoad o → s.fires i.view t w → t.sup = false →
      exec i s = .next (s.faulted 0x04 0x05 0 0)) ∧
    (t.sup = true →
      (s.fires (Instr.tret o).view t w → exec (.tret o) s = .next (s.answeredPosting (Instr.tret o).view .tret (.val 0))) ∧
      (s.fires (Instr.tlbInv o).view t w →
        ((s.right w).toNat % 4 ≠ 3 → (s.right w).toNat / 4 % 2 ^ 14 = 0 → (s.right w).toNat / 2 ^ 32 = 0 →
          exec (.tlbInv o) s = .next (s.answeredPosting (Instr.tlbInv o).view (.tlbInv (s.left w) (s.right w)) (.val 0))) ∧
        ((s.right w).toNat % 4 = 3 ∨ (s.right w).toNat / 4 % 2 ^ 14 ≠ 0 ∨ (s.right w).toNat / 2 ^ 32 ≠ 0 →
          exec (.tlbInv o) s = .next (s.faulted 0x12 0x02 0 0))) ∧
      (s.fires (Instr.ctxSave o).view t w →
        (256 ≤ (s.left w).toNat → exec (.ctxSave o) s = .next (s.answered (Instr.ctxSave o).view (.val 4))) ∧
        ((s.left w).toNat < 256 → (∀ g, s.gangs.get? (s.left w).toNat = some g → g.resident = false) →
          exec (.ctxSave o) s = .next (s.answered (Instr.ctxSave o).view (.val 1))) ∧
        (∀ g, (s.left w).toNat < 256 → s.gangs.get? (s.left w).toNat = some g → g.resident = true →
          (g.save ≠ none → exec (.ctxSave o) s = .next (s.answered (Instr.ctxSave o).view (.val 3))) ∧
          (∀ x, g.save = none → s.contexts.get? g.ctx = some x →
            (x.broken = true → exec (.ctxSave o) s = .next (s.answered (Instr.ctxSave o).view (.val 5))) ∧
            (x.broken = false → x.sasize.toNat < s.saveSize (s.left w).toNat g false →
              exec (.ctxSave o) s = .next (s.answered (Instr.ctxSave o).view (.val 2))) ∧
            (x.broken = false → s.saveSize (s.left w).toNat g false ≤ x.sasize.toNat →
              exec (.ctxSave o) s = .next (s.answeredPosting (Instr.ctxSave o).view (.ctxSave (s.left w).toNat) (.val 0)))))) ∧
      (∀ h, s.fires (Instr.ctxLoad o).view t w → inSp (s.left w).toNat 256 → (s.left w).toNat % 4096 = 0 →
        s.readOpen s.cursor.sid t (s.left w).toNat 256 = true → s.readFor (coreOf s.cursor.sid) t w [] (s.left w).toNat 256 = h →
        (h % 2 = 0 → exec (.ctxLoad o) s = .next ((s.hasRead (s.left w).toNat 256).answered (Instr.ctxLoad o).view (.val 1))) ∧
        (h % 2 = 1 → h / 2 ^ 8 % 2 ^ 8 ≠ 1 → exec (.ctxLoad o) s = .next ((s.hasRead (s.left w).toNat 256).answered (Instr.ctxLoad o).view (.val 2))) ∧
        (h % 2 = 1 → h / 2 ^ 8 % 2 ^ 8 = 1 → ∀ g, s.gangs.get? (h / 2 ^ 64 % 2 ^ 8) = some g → g.resident = true →
          exec (.ctxLoad o) s = .next ((s.hasRead (s.left w).toNat 256).answered (Instr.ctxLoad o).view (.val 3))) ∧
        (h % 2 = 1 → h / 2 ^ 8 % 2 ^ 8 = 1 → (∀ g, s.gangs.get? (h / 2 ^ 64 % 2 ^ 8) = some g → g.resident = false) →
          exec (.ctxLoad o) s = .next ((s.hasRead (s.left w).toNat 256).answeredPosting (Instr.ctxLoad o).view (.ctxLoad (s.left w) h) (.val 0)))))

/-- `spawn` (R257, R259, R323), `vawin` and `vamerge` (R253, R255). That DONE is checked under the spawner's own ASID and context, whatever the record
names, is the model's reading (log 58). -/
def Obligations.SpawnAndWindowForms : Prop :=
  ∀ (o : GOp) (s : State) (t : Strand) (w : Window),
    (s.fires (Instr.vawin o).view t w →
      (winBad (s.left w) (s.right w) = true → exec (.vawin o) s = .next (s.faulted 0x09 0x04 0 0)) ∧
      (winBad (s.left w) (s.right w) = false → s.winTaken s.cursor.sid = true → exec (.vawin o) s = .next (s.faulted 0x09 0x05 0 0)) ∧
      (winBad (s.left w) (s.right w) = false → s.winTaken s.cursor.sid = false →
        exec (.vawin o) s = .next (({ s with seq := s.seq + 1 } : State).answeredPosting (Instr.vawin o).view (.vawin s.seq (s.left w) (s.right w)) (.val 0)))) ∧
    (s.fires (Instr.vamerge o).view t w →
      (s.gangWin (coreOf s.cursor.sid) t.gang = none → exec (.vamerge o) s = .next (s.faulted 0x09 0x06 0 0)) ∧
      (∀ x, s.gangWin (coreOf s.cursor.sid) t.gang = some x → (∀ p ∈ mergeParts x.base x.desc, inSp p.va p.size) → t.pinCheck [] = .fits →
        exec (.vamerge o) s = .next (s.answeredPosting (Instr.vamerge o).view (.vamerge x.base x.desc [] x.id) (.val 0)))) ∧
    (∀ x, s.fires (Instr.spawn o).view t w → inSp (s.left w).toNat 64 → (s.left w).toNat % 64 = 0 →
      s.readOpen s.cursor.sid t (s.left w).toNat 64 = true → s.readFor (coreOf s.cursor.sid) t w [] (s.left w).toNat 64 = x →
      ((spBase ≤ (startRecOf x).done.toNat ∧ (startRecOf x).done.toNat < spBase + spSize) →
        exec (.spawn o) s = .next ((s.hasRead (s.left w).toNat 64).faulted 0x04 0x04 (startRecOf x).done.toNat 1)) ∧
      ((s.didFire.hasRead (s.left w).toNat 64).doneBad (coreOf s.cursor.sid) t.asid t.ctx t.sup (startRecOf x).done.toNat =
          (none, s.didFire.hasRead (s.left w).toNat 64) →
        (t.sup = false → (startRecOf x).super = true → exec (.spawn o) s = .next ((s.hasRead (s.left w).toNat 64).faulted 0x04 0x05 0 0)) ∧
        (t.sup = true → exec (.spawn o) s = .next ((s.hasRead (s.left w).toNat 64).answeredPosting (Instr.spawn o).view (.spawn (startRecOf x)) (.val 0))) ∧
        (t.sup = false → (startRecOf x).super = false →
          exec (.spawn o) s = .next ((s.hasRead (s.left w).toNat 64).answeredPosting (Instr.spawn o).view (.spawn { startRecOf x with
            asid := t.asid, ctx := BitVec.ofNat 64 t.ctx,
            prio := BitVec.ofNat 3 (min (s.prioOf t.gang) (startRecOf x).prio.toNat) }) (.val 0)))))

/-- The CPS forms (R224 to R226, R229). -/
def Obligations.StreamFormsComplete : Prop :=
  ∀ (o : CPOp) (s : State) (t : Strand) (w : Window) (st : Stream), st = (s.core (coreOf s.cursor.sid)).stream o.stream.toNat →
    (∀ x, s.fires (Instr.cpsCfg o).view t w → inSp (s.left w).toNat 64 → (s.left w).toNat % 64 = 0 →
      s.readOpen s.cursor.sid t (s.left w).toNat 64 = true → s.readFor (coreOf s.cursor.sid) t w [] (s.left w).toNat 64 = x →
      (streamReserved x = true → exec (.cpsCfg o) s = .next ((s.hasRead (s.left w).toNat 64).faulted 0x08 0x01 0 0)) ∧
      (∀ sub, streamReserved x = false → (streamRecOf x).broken = some sub → exec (.cpsCfg o) s = .next ((s.hasRead (s.left w).toNat 64).faulted 0x08 sub 0 0)) ∧
      (∀ va, streamReserved x = false → (streamRecOf x).broken = none → (streamRecOf x).misaligned = some va →
        exec (.cpsCfg o) s = .next ((s.hasRead (s.left w).toNat 64).faulted 0x05 0 va 0)) ∧
      (streamReserved x = false → (streamRecOf x).broken = none → (streamRecOf x).misaligned = none →
        (st.state = 2 → exec (.cpsCfg o) s = .next ((s.hasRead (s.left w).toNat 64).faulted 0x08 0x05 0 0)) ∧
        (st.state ≠ 2 → exec (.cpsCfg o) s = .next
          ((s.hasRead (s.left w).toNat 64).answeredPosting (Instr.cpsCfg o).view (.cpsCfg o.stream.toNat (streamRecOf x)) (.val 0))))) ∧
    (s.fires (Instr.cpsGo o).view t w →
      (∀ kv ∈ w.posts, ∀ j r, kv.2 ≠ .cpsCfg j r) →
      (st.state ≠ 1 → st.state ≠ 4 → exec (.cpsGo o) s = .next (s.faulted 0x08 0x06 0 0)) ∧
      (st.state = 1 ∨ st.state = 4 → (s.sedge (coreOf s.cursor.sid) t.ctx st.desc.scope).valid = true →
        (s.sedge (coreOf s.cursor.sid) t.ctx st.desc.scope).cores.getLsbD (coreOf s.cursor.sid) = true →
        ((hullOk st.desc.srcHull && hullOk st.desc.dstHull) = false → exec (.cpsGo o) s = .next (s.faulted 0x08 0x07 0 0)) ∧
        ((hullOk st.desc.srcHull && hullOk st.desc.dstHull) = true → exec (.cpsGo o) s = .next (s.answeredPosting (Instr.cpsGo o).view
          (.cpsGo o.stream.toNat (s.sedge (coreOf s.cursor.sid) t.ctx st.desc.scope) st.desc) (.val 0))))) ∧
    (s.fires (Instr.cpsStep o).view t w →
      (st.state < 2 ∨ 4 < st.state ∨ st.desc.free = true → exec (.cpsStep o) s = .next (s.faulted 0x08 0x06 0 0)) ∧
      (2 ≤ st.state → st.state ≤ 4 → st.desc.free = false →
        exec (.cpsStep o) s = .next (s.answeredPosting (Instr.cpsStep o).view (.cpsStep o.stream.toNat) (.val 0)))) ∧
    (s.fires (Instr.cpsAvail o).view t w → exec (.cpsAvail o) s = .next (s.answered (Instr.cpsAvail o).view (.val (BitVec.ofNat 64 st.avail)))) ∧
    (s.fires (Instr.cpsWait o).view t w → exec (.cpsWait o) s = .next (s.answered (Instr.cpsWait o).view (.val st.status))) ∧
    (s.fires (Instr.cpsKill o).view t w →
      exec (.cpsKill o) s = .next (s.answeredPosting (Instr.cpsKill o).view (.cpsKill o.stream.toNat) (.val 0)))

/-- A partial sum after a source element of a format is added to it, in FP32 with one rounding (R227). -/
def fold32 (f : Fmt) (p x : Nat) : Nat := (putFmt fp32 0 false 0 ((elemValue fp32 p 0).add false (elemValue f (x % 2 ^ f.width) 0))).1

/-- STREAM_STRIP_FETCH, STREAM_ELEMENT_ARRIVAL, STREAM_RED2_FINAL_WRITE, STREAM_DONE, STREAM_ACCESS_FAULT and INTERLOCK_WAIT_END. -/
def Obligations.StreamEventsComplete : Prop :=
  ∀ (s : State) (c k : Nat) (st : Stream) (t : Strand), st = (s.core c).stream k →
    (∀ n, s.streamOpen st k = some t → n = st.done_ / st.desc.strip + st.strips.length → n < st.desc.strips → n ≤ st.cur + 1 → st.strips.length < 2 →
      st.draining = false → st.failKind = 0 → st.desc.overlaps = false →
      exec (.streamStripFetch c k) s = .next (s.setStream c k fun st => { st with strips := st.strips ++ [{ t := n, vals := [] }], sent := s.now })) ∧
    (∀ i pa, s.streamOpen st k = some t → st.due i = true → st.source i = none → s.streamCheck c st t 0 (st.desc.srcAt i) = (.ok pa, s) →
      s.streamFree c st t false (st.desc.srcAt i) pa = true → s.poisoned pa = false →
      exec (.streamElementArrival c k i) s = .next
        ((s.streamTake st pa).setStream c k (·.send i (s.homeLe pa st.desc.cb) ((s.touchL2 pa).spotStop pa) pa))) ∧
    (∀ i x sent place, s.streamOpen st k = some t → st.due i = true → st.source i = some (x, sent, place) → s.crossedTo true sent [place] = true →
      (∀ pb, s.streamCheck c st t 1 (st.desc.dstAt i) = (.ok pb, s) → s.streamFree c st t (st.desc.red != 2) (st.desc.dstAt i) pb = true →
        s.poisoned pb = false →
        (st.desc.red = 0 → exec (.streamElementArrival c k i) s = .next
          ((s.streamPut c st pb (x % 2 ^ (8 * st.desc.cb))).setStream c k fun _ => st.progress i)) ∧
        (st.desc.red = 1 → ∃ v ev, exec (.streamElementArrival c k i) s = .next (((s.l2Work pb 4).streamPut c st pb v).setStream c k fun _ =>
            { st.progress i with events := st.events ||| ev }) ∧
          ((fmtOf st.desc.fmt).isInt = true → ev = 0 ∧
            v = (s.homeLe pb st.desc.cb + x) % 2 ^ (fmtOf st.desc.fmt).width) ∧
          ((fmtOf st.desc.fmt).isInt = false → v = (putFmt (fmtOf st.desc.fmt) 0 false 0
            ((elemValue (fmtOf st.desc.fmt) (s.homeLe pb st.desc.cb % 2 ^ (fmtOf st.desc.fmt).width) 0).add false
              (elemValue (fmtOf st.desc.fmt) (x % 2 ^ (fmtOf st.desc.fmt).width) 0))).1)) ∧
        (st.desc.red = 2 → st.part.has (i % st.desc.strip) = false → ∃ y, exec (.streamElementArrival c k i) s = .next
            ((s.streamTake st pb).setStream c k fun _ => y) ∧ y.done_ = (st.progress i).done_ ∧ y.written = (st.progress i).written ∧
          y.part.get? (i % st.desc.strip) = some (BitVec.ofNat 32 (fold32 (fmtOf st.desc.fmt) (putFmt fp32 0 false 0
            (elemValue (fmtOf st.desc.fmt) (s.homeLe pb st.desc.cb % 2 ^ (fmtOf st.desc.fmt).width) 0)).1 x)))) ∧
      (∀ p, st.desc.red = 2 → st.part.get? (i % st.desc.strip) = some p → ∃ y, exec (.streamElementArrival c k i) s = .next (s.setStream c k fun _ => y) ∧
        y.done_ = (st.progress i).done_ ∧ y.written = (st.progress i).written ∧
        y.part.get? (i % st.desc.strip) = some (BitVec.ofNat 32 (fold32 (fmtOf st.desc.fmt) p.toNat x)))) ∧
    (∀ e pb, s.streamOpen st k = some t → st.desc.red = 2 → st.done_ = st.desc.n → e < min st.desc.strip st.desc.n → st.finals.has e = false → st.failKind = 0 →
      s.streamCheck c st t 1 (st.desc.dstAt e) = (.ok pb, s) → s.streamFree c st t true (st.desc.dstAt e) pb = true → s.poisoned pb = false →
      ∃ v ev, exec (.streamRed2FinalWrite c k e) s = .next ((s.streamPut c st pb v).setStream c k fun st =>
        { st with finals := st.finals.put e true, events := st.events ||| ev }) ∧
        v = (putFmt (fmtOf st.desc.fmt) 0 false 0 (elemValue fp32 (st.part.getD e 0).toNat 0)).1) ∧
    (st.state = 2 → st.done_ = st.desc.n → (st.desc.red = 2 → st.finals.length = min st.desc.strip st.desc.n) →
      exec (.streamDone c k) s = .next (s.setStream c k fun st => { st with state := 3 })) ∧
    (∀ e refused f, e < refusedMark → s.streamOpen st k = some t → st.desc.red ≠ 2 → st.done_ = e → e < st.desc.n → (st.strips.any fun p => p.t == e / st.desc.strip) = true →
      s.streamFails c st t e (refused != 0) = some f →
      ∃ s', exec (.streamAccessFault c k (e + refusedMark * refused)) s = .next s' ∧ ((s'.core c).stream k).state = 4 ∧ ((s'.core c).stream k).failAt = e ∧
        ((s'.core c).stream k).failKind = f.1 ∧ ((s'.core c).stream k).done_ = e ∧
        ((s.core c).queueFull = false → ∃ r, (s'.core c).queue = (s.core c).queue ++ [r] ∧ r.kind = 0x30 ∧ r.vaddr = BitVec.ofNat 64 f.2 ∧
          r.info2 = BitVec.ofNat 64 e)) ∧
    (∀ sid e rest, s.strands.get? sid = some t → t.lock = e :: rest → e.stream = none → (t.items.any (·.q == e.item)) = false →
      ∃ s' t', exec (.interlockWaitEnd sid) s = .next s' ∧ s'.strands.get? sid = some t' ∧ e ∉ t'.lock ∧ t'.items = t.items ∧ s'.mem = s.mem)

/-- The instructions of the lane slices that write vector registers, a mask or a scale register and nothing else (R147, R149, R151 to
R171). -/
inductive LaneForm : Instr → Prop where
  | vadd (o) : LaneForm (.vadd o) | vsub (o) : LaneForm (.vsub o) | vrsub (o) : LaneForm (.vrsub o) | vmul (o) : LaneForm (.vmul o)
  | vmulh (o) : LaneForm (.vmulh o) | vmadd (o) : LaneForm (.vmadd o) | vmsub (o) : LaneForm (.vmsub o) | vnmadd (o) : LaneForm (.vnmadd o)
  | vdiv (o) : LaneForm (.vdiv o) | vrem (o) : LaneForm (.vrem o) | vsqrt (o) : LaneForm (.vsqrt o) | vrsqrt (o) : LaneForm (.vrsqrt o)
  | vrecip (o) : LaneForm (.vrecip o) | vmin (o) : LaneForm (.vmin o) | vmax (o) : LaneForm (.vmax o) | vabs (o) : LaneForm (.vabs o)
  | vand (o) : LaneForm (.vand o) | vor (o) : LaneForm (.vor o) | vxor (o) : LaneForm (.vxor o) | vnot (o) : LaneForm (.vnot o)
  | vshl (o) : LaneForm (.vshl o) | vshr (o) : LaneForm (.vshr o) | vsra (o) : LaneForm (.vsra o) | vneg (o) : LaneForm (.vneg o)
  | vsadd (o) : LaneForm (.vsadd o) | vssub (o) : LaneForm (.vssub o) | vaadd (o) : LaneForm (.vaadd o) | vsmul (o) : LaneForm (.vsmul o)
  | vnclip (o) : LaneForm (.vnclip o) | vnsra (o) : LaneForm (.vnsra o) | vclass (o) : LaneForm (.vclass o) | vcvt (o) : LaneForm (.vcvt o)
  | vcvtmx (o) : LaneForm (.vcvtmx o) | vmerge (o) : LaneForm (.vmerge o) | vid (o) : LaneForm (.vid o) | vperm (o) : LaneForm (.vperm o)
  | vslup (o) : LaneForm (.vslup o) | vsldn (o) : LaneForm (.vsldn o) | vcompress (o) : LaneForm (.vcompress o) | vceq (o) : LaneForm (.vceq o)
  | vcne (o) : LaneForm (.vcne o) | vclt (o) : LaneForm (.vclt o) | vcle (o) : LaneForm (.vcle o) | vcgt (o) : LaneForm (.vcgt o)
  | vcge (o) : LaneForm (.vcge o) | vcun (o) : LaneForm (.vcun o) | vrsum (o) : LaneForm (.vrsum o) | vrosum (o) : LaneForm (.vrosum o)
  | vrmax (o) : LaneForm (.vrmax o) | vrmin (o) : LaneForm (.vrmin o) | vrand (o) : LaneForm (.vrand o) | vror (o) : LaneForm (.vror o)
  | vrxor (o) : LaneForm (.vrxor o) | vrsummx (o) : LaneForm (.vrsummx o) | vadds (o) : LaneForm (.vadds o) | vsubs (o) : LaneForm (.vsubs o)
  | vmuls (o) : LaneForm (.vmuls o) | vmadds (o) : LaneForm (.vmadds o) | vmins (o) : LaneForm (.vmins o) | vmaxs (o) : LaneForm (.vmaxs o)
  | vshls (o) : LaneForm (.vshls o) | vbcast (o) : LaneForm (.vbcast o) | vins (o) : LaneForm (.vins o) | mand (o) : LaneForm (.mand o)
  | mor (o) : LaneForm (.mor o) | mxor (o) : LaneForm (.mxor o) | mandn (o) : LaneForm (.mandn o) | mnot (o) : LaneForm (.mnot o)
  | mset (o) : LaneForm (.mset o) | mclr (o) : LaneForm (.mclr o) | mfromv (o) : LaneForm (.mfromv o)

/-- No instruction between two of a block has written a register: what the first writes there is what the second reads (R138). -/
abbrev noWriterBetween (m : NMap Renamed) (r idx idx' : Nat) : Prop := NMap.sorted m = true ∧ idx < idx' ∧ idx' ≤ 128 ∧ ∀ k, idx < k → k < idx' → m.get? (renKey r k) = none

/-- A register of a block as an instruction has written it: ready, by that instruction, not nulled. -/
def writtenBy (m : NMap Renamed) (idx r : Nat) : Prop := ∃ x, m.get? (renKey r idx) = some x ∧ x.writer = idx ∧ x.ready = true ∧ x.nulled = false

/-- Completion and frame of the lane forms (R138, R151, R279). -/
def Obligations.LaneFormsComplete : Prop :=
  ∀ (i : Instr) (s : State) (t : Strand) (w : Window) (e : PipeE), LaneForm i → s.executes i.view t w e →
    ∃ w', exec i s = .next ((s.updCore (coreOf s.cursor.sid) fun k => { k with ex := some { e with ran := true } }).updStrand s.cursor.sid (·.withWin w')) ∧
      w'.op s.cursor.idx = { w.op s.cursor.idx with fired := true, nulled := false } ∧ (∀ k, k ≠ s.cursor.idx → w'.op k = w.op k) ∧
      (∀ r ∈ i.view.vdests (t.fw i.view), writtenBy w'.v s.cursor.idx r) ∧ (∀ k, (∀ r ∈ i.view.vdests (t.fw i.view), k ≠ renKey r s.cursor.idx) → w'.v.get? k = w.v.get? k) ∧
      (∀ r ∈ i.view.mdests, writtenBy w'.m s.cursor.idx r) ∧ (∀ k, (∀ r ∈ i.view.mdests, k ≠ renKey r s.cursor.idx) → w'.m.get? k = w.m.get? k) ∧
      (∀ r ∈ i.view.sdests (t.fw i.view), writtenBy w'.scl s.cursor.idx r) ∧ (∀ k, (∀ r ∈ i.view.sdests (t.fw i.view), k ≠ renKey r s.cursor.idx) → w'.scl.get? k = w.scl.get? k) ∧
      w'.slots = w.slots ∧ w'.lsids = w.lsids ∧ w'.exit = w.exit ∧ w'.accs = w.accs ∧ w'.stores = w.stores ∧ w'.vl = w.vl ∧ w'.counts = w.counts ∧
      w'.posts = w.posts ∧ w'.fault = w.fault ∧ w'.blk = w.blk

/-- The arithmetic of R154, R155 and R171 on exact values: whether VS2 is the scalar of the left slot, and the operation of the model. -/
inductive ArithForm : Instr → VOp → Bool → ArithOp → Prop where
  | vadd (o) : ArithForm (.vadd o) o false opAdd
  | vsub (o) : ArithForm (.vsub o) o false opSub
  | vrsub (o) : ArithForm (.vrsub o) o false opRsub
  | vmul (o) : ArithForm (.vmul o) o false opMul
  | vmadd (o) : ArithForm (.vmadd o) o false opMadd
  | vmsub (o) : ArithForm (.vmsub o) o false opMsub
  | vnmadd (o) : ArithForm (.vnmadd o) o false opNmadd
  | vsqrt (o) : ArithForm (.vsqrt o) o false opSqrt
  | vrsqrt (o) : ArithForm (.vrsqrt o) o false opRsqrt
  | vrecip (o) : ArithForm (.vrecip o) o false opRecip
  | vmin (o) : ArithForm (.vmin o) o false opMin
  | vmax (o) : ArithForm (.vmax o) o false opMax
  | vabs (o) : ArithForm (.vabs o) o false opAbs
  | vneg (o) : ArithForm (.vneg o) o false opNeg
  | vadds (o) : ArithForm (.vadds o) o true opAdd
  | vsubs (o) : ArithForm (.vsubs o) o true opSub
  | vmuls (o) : ArithForm (.vmuls o) o true opMul
  | vmadds (o) : ArithForm (.vmadds o) o true opMadd
  | vmins (o) : ArithForm (.vmins o) o true opMin
  | vmaxs (o) : ArithForm (.vmaxs o) o true opMax

/-- The forms of R154, R157 to R160 and R171 that are no operation on exact values rounded once: whether VS2 is the scalar of the left slot, whether their
elements draw, and the bits and the events of an element with its draw. A fixed-point shift by more than 200 is one by 200, which passes every bit. -/
inductive ElemForm : Instr → VOp → Bool → (VEnv → Bool) → (VEnv → Nat → Nat → Nat × Nat) → Prop
  | vmulh (o) : ElemForm (.vmulh o) o false (fun _ => false) fun e j _ => putInt e.fd.signed e.fd.width (fwSat e.fw) (e.aInt j * e.bInt j / (2 ^ e.fd.width : Nat))
  | vdiv (o) : ElemForm (.vdiv o) o false (fun e => e.fd.isFlt) fun e j d =>
      if e.f1.isInt then (if e.bInt j = 0 then (2 ^ e.fd.width - 1, fDZ) else putInt e.fd.signed e.fd.width (fwSat e.fw) ((e.aInt j).tdiv (e.bInt j)))
      else ((e.put d ((e.aX j).div (e.bX j)).1).1, (e.put d ((e.aX j).div (e.bX j)).1).2 ||| ((e.aX j).div (e.bX j)).2 ||| sigInv [e.aX j, e.bX j])
  | vrem (o) : ElemForm (.vrem o) o false (fun _ => false) fun e j _ =>
      if e.bInt j = 0 then ((putInt e.fd.signed e.fd.width (fwSat e.fw) (e.aInt j)).1, (putInt e.fd.signed e.fd.width (fwSat e.fw) (e.aInt j)).2 ||| fDZ)
      else putInt e.fd.signed e.fd.width (fwSat e.fw) ((e.aInt j).tmod (e.bInt j))
  | vsra (o) : ElemForm (.vsra o) o false (fun _ => false) fun e j _ =>
      (bitsOfInt e.fd.width (sintOf e.fd.width (bitsOfInt e.fd.width (e.aInt j)) / (2 ^ min (e.bBits j) e.fd.width : Nat)), 0)
  | vsadd (o) : ElemForm (.vsadd o) o false (fun _ => false) fun e j _ => putInt e.fd.signed e.fd.width true (e.aInt j + e.bInt j)
  | vssub (o) : ElemForm (.vssub o) o false (fun _ => false) fun e j _ => putInt e.fd.signed e.fd.width true (e.aInt j - e.bInt j)
  | vaadd (o) : ElemForm (.vaadd o) o false (fun _ => false) fun e j _ => putInt e.fd.signed e.fd.width (fwSat e.fw) (fxShift (fwFxrnd e.fw) (e.aInt j + e.bInt j) 1)
  | vsmul (o) : ElemForm (.vsmul o) o false (fun _ => false) fun e j _ => putInt e.fd.signed e.fd.width true
      (fxShift (fwFxrnd e.fw) (e.aInt j * e.bInt j) (min (if e.fd.signed then e.fd.width - 1 else e.fd.width) 200))
  | vnclip (o) : ElemForm (.vnclip o) o false (fun _ => false) fun e j _ => putInt e.fd.signed e.fd.width true (fxShift (fwFxrnd e.fw) (e.aInt j) (min (e.bBits j) 200))
  | vnsra (o) : ElemForm (.vnsra o) o false (fun _ => false) fun e j _ =>
      putInt e.fd.signed e.fd.width (fwSat e.fw) (fxShift (fwFxrnd e.fw) (e.aInt j) (min (e.bBits j) 200))
  | vclass (o) : ElemForm (.vclass o) o false (fun _ => false) fun e j _ =>
      ((putInt e.fd.signed e.fd.width (fwSat e.fw) (classBit (e.aX j) (isSubnormal e.f1 (e.aBits j)))).1, 0)
  | vcvt (o) : ElemForm (.vcvt o) o false (fun e => rounds e.f1 e.fd) fun e j d =>
      ((convert e.f1 e.fd (fwFrnd e.fw) (fwSat e.fw) d (e.aX j)).1, (convert e.f1 e.fd (fwFrnd e.fw) (fwSat e.fw) d (e.aX j)).2 ||| sigInv [e.aX j])
  | vbcast (o) : ElemForm (.vbcast o) o true (fun e => rounds e.f2 e.fd) fun e j d =>
      ((convert e.f2 e.fd (fwFrnd e.fw) (fwSat e.fw) d (e.bX j)).1, (convert e.f2 e.fd (fwFrnd e.fw) (fwSat e.fw) d (e.bX j)).2 ||| sigInv [e.bX j])

/-- The reductions (R165 to R169): whether the left slot gives the start, and the result with the block that has its draws and events. -/
inductive ReduceForm : Instr → VOp → Bool → (Strand → Nat → VEnv → Window → Option Nat × Window) → Prop
  | vrsum (o) : ReduceForm (.vrsum o) o false rsumOf
  | vrosum (o) : ReduceForm (.vrosum o) o true rosumOf
  | vrmax (o) : ReduceForm (.vrmax o) o false (rpickOf XV.maxNum)
  | vrmin (o) : ReduceForm (.vrmin o) o false (rpickOf XV.minNum)
  | vrand (o) : ReduceForm (.vrand o) o false (rbitsOf (· &&& ·))
  | vror (o) : ReduceForm (.vror o) o false (rbitsOf (· ||| ·))
  | vrxor (o) : ReduceForm (.vrxor o) o false (rbitsOf (· ^^^ ·))
  | vrsummx (o) : ReduceForm (.vrsummx o) o false rsummxOf

/-- The arithmetic forms (R151, R153 to R161, R171) and the reductions (R165 to R169). The model's choices in them: the sign of a cancelled sum of `vrsummx` (log 79)
and its `inv` beside a quiet NaN (log 105), the draws of conversions (log 78). -/
def Obligations.VectorArithmetic : Prop :=
  (∀ (i : Instr) (o : VOp) (sc : Bool) (f : ArithOp) (s : State) (t : Strand) (w : Window) (p : PipeE),
    ArithForm i o sc f → s.executes i.view t w p →
    exec i s = .next ((s.didExecute p).updWin s.cursor.sid fun w' =>
      let e := vEnv t w' s.cursor.idx i.view o (if sc then some (s.left w).toNat else none)
      let r := elemsLoop t s.cursor.idx e.fd.width e e.fd.isFlt (fwMask e.fw) (fun j draw =>
        let x := f e.rdn (e.aX j) (e.bX j) (e.cX j)
        ((e.put draw x.1).1, (e.put draw x.1).2 ||| x.2.1 ||| sigInv x.2.2)) w'
      r.2.putGroup s.cursor.idx o.vd.toNat (fwGroup e.fw) e.vb (withTail e.old (8 * e.vb * fwGroup e.fw) e.n e.fd.width (fwTail e.fw) r.1))) ∧
  (∀ (i : Instr) (o : VOp) (sc : Bool) (draws : VEnv → Bool) (f : VEnv → Nat → Nat → Nat × Nat) (s : State) (t : Strand) (w : Window) (p : PipeE),
    ElemForm i o sc draws f → s.executes i.view t w p →
    exec i s = .next ((s.didExecute p).updWin s.cursor.sid fun w' =>
      let e := vEnv t w' s.cursor.idx i.view o (if sc then some (s.left w).toNat else none)
      let r := elemsLoop t s.cursor.idx e.fd.width e (draws e) (fwMask e.fw) (f e) w'
      r.2.putGroup s.cursor.idx o.vd.toNat (fwGroup e.fw) e.vb (withTail e.old (8 * e.vb * fwGroup e.fw) e.n e.fd.width (fwTail e.fw) r.1))) ∧
  (∀ (i : Instr) (o : VOp) (sc : Bool) (f : Strand → Nat → VEnv → Window → Option Nat × Window) (s : State) (t : Strand) (w : Window) (p : PipeE),
    ReduceForm i o sc f → s.executes i.view t w p →
    exec i s = .next ((s.didExecute p).updWin s.cursor.sid fun w' =>
      let e := vEnv t w' s.cursor.idx i.view o (if sc then some (s.left w).toNat else none)
      (f t s.cursor.idx e w').2.putGroup s.cursor.idx o.vd.toNat (fwGroup e.fw) e.vb (withTail e.old (8 * e.vb * fwGroup e.fw) 1 e.fd.width (fwTail e.fw)
        (match (f t s.cursor.idx e w').1 with
         | some x => x % 2 ^ e.fd.width
         | none => if fwMask e.fw then 2 ^ e.fd.width - 1 else elem e.old e.fd.width 0)))) ∧
  (∀ (t : Strand) (idx : Nat) (e : VEnv) (w : Window),
    (e.actives = [] → rsumOf t idx e w = (none, w) ∧ rosumOf t idx e w = (some (e.scalar.getD 0 % 2 ^ e.fd.width), w) ∧
      ∀ f g, rpickOf f t idx e w = (none, w) ∧ rbitsOf g t idx e w = (none, w)) ∧
    (∀ j js, e.actives = j :: js →
      (e.f1.isInt = true → (rsumOf t idx e w).1 = some (putInt e.fd.signed e.fd.width (fwSat e.fw) ((j :: js).foldl (fun a k => a + e.aInt k) 0)).1 ∧
        (rosumOf t idx e w).1 = some (putInt e.fd.signed e.fd.width (fwSat e.fw) ((j :: js).foldl (fun a k => a + e.aInt k)
          (intOf e.fd.signed e.fd.width (e.scalar.getD 0 % 2 ^ e.fd.width)))).1) ∧
      (fwFrnd e.fw ≠ 5 → ∀ f, (rpickOf f t idx e w).1 = some (e.put 0 (js.foldl (fun x k => f x (e.aX k)) (e.aX j))).1) ∧
      (fwFrnd e.fw ≠ 5 → e.f1.isInt = false → (rosumOf t idx e w).1 = some ((j :: js).foldl (fun acc k =>
        (e.put 0 ((elemValue e.fd acc 0).add e.rdn (e.aX k))).1) (e.scalar.getD 0 % 2 ^ e.fd.width))) ∧
      ∀ g, rbitsOf g t idx e w = (some (js.foldl (fun x k => g x (bitsOfInt e.fd.width (e.aInt k))) (bitsOfInt e.fd.width (e.aInt j))), w)))

/-- The elements of a destination (R137, R151), and those of `vcvtmx` (R161, R162). -/
def Obligations.ElementsOfADestination : Prop :=
  (∀ (t : Strand) (idx wd total : Nat) (e : VEnv) (maskp tailp : Bool) (op : Nat → Nat → Nat × Nat) (w : Window), 0 < wd →
    (∀ j, j < e.n → elem (elemsLoop t idx wd e false maskp op w).1 wd j =
      if e.mask.testBit j then (op j 0).1 % 2 ^ wd else if maskp then 2 ^ wd - 1 else elem e.old wd j) ∧
    (∀ j, j < e.n → e.n * wd ≤ total → elem (withTail e.old total e.n wd tailp (elemsLoop t idx wd e false maskp op w).1) wd j =
      elem (elemsLoop t idx wd e false maskp op w).1 wd j) ∧
    (∀ b, e.n * wd ≤ b → b < total → (withTail e.old total e.n wd tailp (elemsLoop t idx wd e false maskp op w).1).testBit b =
      if tailp then true else e.old.testBit b)) ∧
  (∀ (o : VOp) (s : State) (t : Strand) (w : Window) (p : PipeE) (e : VEnv), s.executes (Instr.vcvtmx o).view t w p →
    e = vEnv t w s.cursor.idx (Instr.vcvtmx o).view o none → fwFrnd e.fw ≠ 5 → 0 < e.fd.width → e.n * e.fd.width ≤ 8 * e.vb * fwGroup e.fw →
    let block (b : Nat) : List Nat := (List.range 32).filter fun k => decide (32 * b + k < e.n) && e.mask.testBit (32 * b + k)
    let scale (b : Nat) : Option Int := mxScale e.fd.mxCode ((block b).map fun k => e.aX (32 * b + k))
    ∃ bits sc ev, exec (.vcvtmx o) s = .next ((s.didExecute p).updWin s.cursor.sid fun w' =>
        (({ w' with events := ev } : Window).putGroup s.cursor.idx o.vd.toNat (fwGroup e.fw) e.vb bits).putS s.cursor.idx (fwScld e.fw) sc) ∧
      (∀ j, j < e.n → e.mask.testBit j = true → elem bits e.fd.width j =
        match scale (j / 32) with | some x => (mxElemPut e.fd.mxCode (fwFrnd e.fw) 0 (e.aX j) x).1 % 2 ^ e.fd.width | none => 0) ∧
      (∀ j, j < e.n → e.mask.testBit j = false → elem bits e.fd.width j = if fwMask e.fw then 2 ^ e.fd.width - 1 else elem e.old e.fd.width j) ∧
      (∀ b, b < (e.n + 31) / 32 → elem sc 8 b = if block b = [] then elem (w.readS t (fwScld e.fw) s.cursor.idx) 8 b else
        match scale b with | some x => (x + 127).toNat % 256 | none => 0xFF))

/-- Writing and reading a group (R135, R138). -/
def Obligations.GroupsReadBack : Prop :=
  ∀ (t : Strand) (w : Window) (idx r g vb bits : Nat), r + g ≤ 32 → NMap.sorted w.v = true → idx < 128 →
    (∀ idx', (∀ k, k < g → noWriterBetween w.v (r + k) idx idx') → (w.putGroup idx r g vb bits).readGroup t r g vb idx' = bits % 2 ^ (8 * vb * g)) ∧
    (∀ idx' k, idx' ≤ idx → k < g → (w.putGroup idx r g vb bits).readV t (r + k) idx' = w.readV t (r + k) idx') ∧
    (∀ idx' q, idx' ≤ 128 → (q < r ∨ r + g ≤ q) → (w.putGroup idx r g vb bits).readV t q idx' = w.readV t q idx')

/-- The bitwise forms and the shifts of R157, on the patterns of the elements as integers of the destination's width: whether VS2 is the scalar
of the left slot, and the result. -/
inductive RawForm : Instr → VOp → Bool → (Nat → Nat → Nat → Nat → Nat) → Prop where
  | vand (o) : RawForm (.vand o) o false fun _ a b _ => a &&& b
  | vor (o) : RawForm (.vor o) o false fun _ a b _ => a ||| b
  | vxor (o) : RawForm (.vxor o) o false fun _ a b _ => a ^^^ b
  | vnot (o) : RawForm (.vnot o) o false fun w a _ _ => 2 ^ w - 1 - a
  | vshl (o) : RawForm (.vshl o) o false fun w a _ c => if w ≤ c then 0 else a * 2 ^ c % 2 ^ w
  | vshr (o) : RawForm (.vshr o) o false fun w a _ c => if w ≤ c then 0 else a / 2 ^ c
  | vshls (o) : RawForm (.vshls o) o true fun w a _ c => if w ≤ c then 0 else a * 2 ^ c % 2 ^ w

/-- An element that the mask takes, or leaves to MASKP (R137). -/
def masked (e : VEnv) (j x : Nat) : Nat := if e.mask.testBit j then x else if fwMask e.fw then 2 ^ e.fd.width - 1 else elem e.old e.fd.width j

/-- The moves of R163 that write n elements, and each element below n. -/
inductive MoveForm : Instr → VOp → (VEnv → Nat → Nat) → Prop
  | vmerge (o) : MoveForm (.vmerge o) o fun e j => if e.mask.testBit j then e.bBits j else e.aBits j
  | vid (o) : MoveForm (.vid o) o fun e j => masked e j j
  | vperm (o) : MoveForm (.vperm o) o fun e j => masked e j (if e.bBits j < e.n then e.aBits (e.bBits j) else 0)
  | vslup (o) : MoveForm (.vslup o) o fun e j => if j < e.bBits 0 then elem e.old e.fd.width j else masked e j (e.aBits (j - e.bBits 0))
  | vsldn (o) : MoveForm (.vsldn o) o fun e j => masked e j (if j + e.bBits 0 < e.n then e.aBits (j + e.bBits 0) else 0)

/-- The raw forms (R157), the moves (R163) and `vins` (R149). That b of `vand`, `vor` and `vxor` is extended by its own format is the model's reading
(log 104). -/
def Obligations.VectorBitwise : Prop :=
  (∀ (i : Instr) (o : VOp) (sc : Bool) (f : Nat → Nat → Nat → Nat → Nat) (s : State) (t : Strand) (w : Window) (p : PipeE),
    RawForm i o sc f → s.executes i.view t w p →
    exec i s = .next ((s.didExecute p).updWin s.cursor.sid fun w' =>
      let e := vEnv t w' s.cursor.idx i.view o (if sc then some (s.left w).toNat else none)
      let r := elemsLoop t s.cursor.idx e.fd.width e false (fwMask e.fw) (fun j _ =>
        (f e.fd.width (bitsOfInt e.fd.width (e.aInt j)) (bitsOfInt e.fd.width (e.bInt j)) (e.bBits j), 0)) w'
      r.2.putGroup s.cursor.idx o.vd.toNat (fwGroup e.fw) e.vb (withTail e.old (8 * e.vb * fwGroup e.fw) e.n e.fd.width (fwTail e.fw) r.1))) ∧
  (∀ (i : Instr) (o : VOp) (f : VEnv → Nat → Nat) (s : State) (t : Strand) (w : Window) (p : PipeE) (e : VEnv),
    MoveForm i o f → s.executes i.view t w p → e = vEnv t w s.cursor.idx i.view o none → 0 < e.fd.width → e.n * e.fd.width ≤ 8 * e.vb * fwGroup e.fw →
    ∃ bits, exec i s = .next ((s.didExecute p).updWin s.cursor.sid (·.putGroup s.cursor.idx o.vd.toNat (fwGroup e.fw) e.vb bits)) ∧
      (∀ j, j < e.n → elem bits e.fd.width j = f e j % 2 ^ e.fd.width) ∧
      ∀ b, e.n * e.fd.width ≤ b → b < 8 * e.vb * fwGroup e.fw → bits.testBit b = if fwTail e.fw then true else e.old.testBit b) ∧
  (∀ (o : VOp) (s : State) (t : Strand) (w : Window) (p : PipeE) (e : VEnv) (xs : List Nat),
    s.executes (Instr.vcompress o).view t w p → e = vEnv t w s.cursor.idx (Instr.vcompress o).view o none → 0 < e.fd.width →
    e.n * e.fd.width ≤ 8 * e.vb * fwGroup e.fw → xs = (List.range e.n).filter e.mask.testBit →
    ∃ bits, exec (.vcompress o) s = .next ((s.didExecute p).updWin s.cursor.sid (·.putGroup s.cursor.idx o.vd.toNat (fwGroup e.fw) e.vb bits)) ∧
      (∀ k j, xs[k]? = some j → elem bits e.fd.width k = e.aBits j % 2 ^ e.fd.width) ∧
      ∀ b, xs.length * e.fd.width ≤ b → b < 8 * e.vb * fwGroup e.fw → bits.testBit b = if fwTail e.fw then true else e.old.testBit b) ∧
  (∀ (o : VOp) (s : State) (t : Strand) (w : Window) (p : PipeE) (e : VEnv) (j : Nat), s.executes (Instr.vins o).view t w p →
    e = vEnv t w s.cursor.idx (Instr.vins o).view o none → j = (s.right w).toNat → 0 < e.fd.width →
    ∃ bits, exec (.vins o) s = .next ((s.didExecute p).updWin s.cursor.sid (·.putGroup s.cursor.idx o.vd.toNat (fwGroup e.fw) e.vb bits)) ∧
      (e.n ≤ j → bits = e.old) ∧
      (j < e.n → elem bits e.fd.width j = if e.mask.testBit j then (s.left w).toNat % 2 ^ e.fd.width else if fwMask e.fw then 2 ^ e.fd.width - 1 else elem e.old e.fd.width j) ∧
      ∀ b, b < j * e.fd.width ∨ (j + 1) * e.fd.width ≤ b → bits.testBit b = e.old.testBit b)

/-- The mask forms and the compares (R147, R164). -/
def Obligations.MaskResults : Prop :=
  (∀ (o : VOp) (s : State) (t : Strand) (w : Window) (p : PipeE) (i : Instr) (f : Bool → Bool → Bool),
    (i = .mand o ∧ f = fun a b => a && b) ∨ (i = .mor o ∧ f = fun a b => a || b) ∨ (i = .mxor o ∧ f = fun a b => a != b) ∨
    (i = .mandn o ∧ f = fun a b => a && !b) ∨ (i = .mnot o ∧ f = fun a _ => !a) ∨ (i = .mset o ∧ f = fun _ _ => true) ∨
    (i = .mclr o ∧ f = fun _ _ => false) → s.executes i.view t w p →
    ∃ s' t' w', exec i s = .next s' ∧ s'.strands.get? s.cursor.sid = some t' ∧ t'.win = some w' ∧
      ∀ j idx', noWriterBetween w.m o.vd.toNat s.cursor.idx idx' → j < w.countOf t i.view (t.fw i.view) t.vb → j < 64 * t.vb → o.vd ≠ 0 →
        (w'.readM t o.vd.toNat idx').testBit j =
          if (w.readM t o.msk.toNat s.cursor.idx).testBit j then
            f ((w.readM t o.vs1.toNat s.cursor.idx).testBit j) ((w.readM t o.vs2.toNat s.cursor.idx).testBit j)
          else if fwMask (t.fw i.view) then true else (w.readM t o.vd.toNat s.cursor.idx).testBit j) ∧
  (∀ (o : VOp) (s : State) (t : Strand) (w : Window) (p : PipeE) (fw : Nat), fw = t.fw (Instr.mfromv o).view → s.executes (Instr.mfromv o).view t w p →
    ∃ s' t' w', exec (.mfromv o) s = .next s' ∧ s'.strands.get? s.cursor.sid = some t' ∧ t'.win = some w' ∧
      ∀ j idx', noWriterBetween w.m o.vd.toNat s.cursor.idx idx' → j < w.countOf t (Instr.mfromv o).view fw t.vb → j < 64 * t.vb → o.vd ≠ 0 →
        (w'.readM t o.vd.toNat idx').testBit j =
          if (w.readM t o.msk.toNat s.cursor.idx).testBit j then elem (w.readGroup t o.vs1.toNat (fwGroup fw) t.vb s.cursor.idx) (fmtOf (fwSrc1 fw)).width j != 0
          else if fwMask fw then true else (w.readM t o.vd.toNat s.cursor.idx).testBit j) ∧
  (∀ (o : VOp) (s : State) (t : Strand) (w : Window) (p : PipeE) (i : Instr) (rel : XV → XV → Bool) (nan : Bool),
    (i = .vceq o ∧ rel = XV.eqv ∧ nan = false) ∨ (i = .vcne o ∧ (rel = fun a b => !a.eqv b) ∧ nan = true) ∨ (i = .vclt o ∧ rel = XV.lt ∧ nan = false) ∨
    (i = .vcle o ∧ (rel = fun a b => !b.lt a) ∧ nan = false) ∨ (i = .vcgt o ∧ (rel = fun a b => b.lt a) ∧ nan = false) ∨
    (i = .vcge o ∧ (rel = fun a b => !a.lt b) ∧ nan = false) ∨ (i = .vcun o ∧ (rel = fun _ _ => false) ∧ nan = true) → s.executes i.view t w p →
    ∃ s' t' w', exec i s = .next s' ∧ s'.strands.get? s.cursor.sid = some t' ∧ t'.win = some w' ∧
      ∀ e j idx', e = vEnv t w s.cursor.idx i.view o none → noWriterBetween w.m o.vd.toNat s.cursor.idx idx' → j < e.n → j < 64 * e.vb → o.vd ≠ 0 → e.mask.testBit j = true →
        (w'.readM t o.vd.toNat idx').testBit j = if (e.aX j).isNan || (e.bX j).isNan then nan else rel (e.aX j) (e.bX j))

/-- The single-element and count forms (R148). -/
def Obligations.ElementAndCountForms : Prop :=
  ∀ (o : VXOp) (s : State) (t : Strand) (w : Window) (p : PipeE),
    (s.executes (Instr.vext o).view t w p → ∃ x, exec (.vext o) s = .next
        (s.didExecute p |>.updCore (coreOf s.cursor.sid) fun k => { k with ex := some { p with ran := true, tok := some x } }) ∧
      x = (let fw := t.fw (Instr.vext o).view
           let y := elem (w.readGroup t o.vs1.toNat (fwGroup fw) t.vb s.cursor.idx) (fmtOf (fwSrc1 fw)).width (s.left w).toNat
           if w.countOf t (Instr.vext o).view fw t.vb ≤ (s.left w).toNat then .val 0
           else if (w.readM t o.msk.toNat s.cursor.idx).testBit (s.left w).toNat = false then .null
           else .val (match fmtOf (fwSrc1 fw) with | .int sg n => BitVec.ofInt 64 (intOf sg n y) | _ => BitVec.ofNat 64 y))) ∧
    (s.executes (Instr.mpop o).view t w p → exec (.mpop o) s = .next
      (s.didExecute p |>.updCore (coreOf s.cursor.sid) fun k => { k with ex := some { p with ran := true, tok := some (.val (BitVec.ofNat 64
        ((List.range (min (w.vlen t) (64 * t.vb))).countP fun j =>
          (w.readM t o.vs1.toNat s.cursor.idx).testBit j && (w.readM t o.msk.toNat s.cursor.idx).testBit j))) } })) ∧
    (s.executes (Instr.mfirst o).view t w p → exec (.mfirst o) s = .next
      (s.didExecute p |>.updCore (coreOf s.cursor.sid) fun k => { k with ex := some { p with ran := true, tok := some (.val (
        match (List.range (min (w.vlen t) (64 * t.vb))).find? fun j =>
          (w.readM t o.vs1.toNat s.cursor.idx).testBit j && (w.readM t o.msk.toNat s.cursor.idx).testBit j with
        | some j => BitVec.ofNat 64 j | none => -1)) } })) ∧
    (∀ idx vop q n, s.fires (Instr.vcnt o).view t w → (idx, View.vm 0x2C vop q) ∈ w.blk.views → vop = 4 ∨ vop = 7 → q.lsid = o.vs1 →
      (∀ kv ∈ w.blk.views, (∃ x r, kv.2 = .vm 0x2C x r ∧ (x = 4 ∨ x = 7) ∧ r.lsid = o.vs1) → kv.1 = idx) →
      (w.counts.get? idx = some n → exec (.vcnt o) s = .next (s.answered (Instr.vcnt o).view (.val (BitVec.ofNat 64 n)))) ∧
      (w.counts.get? idx = none → exec (.vcnt o) s = .next (s.answered (Instr.vcnt o).view .null)))

/-- The address of element j of a contained form: base, stride, index (R180). -/
inductive ContainedForm : Instr → VMOp → Nat → Nat → Bool → (MEnv → Nat → Nat → Nat → Nat) → Prop where
  | vldx (o) : ContainedForm (.vldx o) o 0 1 false fun e b _ j => b + elem e.vi e.iw j
  | vldxo (o) : ContainedForm (.vldxo o) o 0 1 true fun e b _ j => b + elem e.vi e.iw j
  | vgl (o) : ContainedForm (.vgl o) o 0 2 false fun e b _ j => b + elem e.vi e.iw j
  | vstx (o) : ContainedForm (.vstx o) o 1 1 false fun e b _ j => b + elem e.vi e.iw j
  | vstxo (o) : ContainedForm (.vstxo o) o 1 1 true fun e b _ j => b + elem e.vi e.iw j
  | vlds (o) : ContainedForm (.vlds o) o 0 1 false fun _ b s j => b + j * s
  | vsts (o) : ContainedForm (.vsts o) o 1 1 false fun _ b s j => b + j * s

/-- The packed forms (R178). -/
inductive PackedForm : Instr → VMOp → Nat → Bool → Prop where
  | vld (o) : PackedForm (.vld o) o 0 false
  | vldff (o) : PackedForm (.vldff o) o 0 false
  | vst (o) : PackedForm (.vst o) o 1 false
  | vsto (o) : PackedForm (.vsto o) o 1 true

/-- The contained and packed forms (R178, R180, R181, R184, R185, R251). The model's choices in it: a form with no active element does not check its alignment
(log 81), and the fault records the address of the first misaligned element (log 18). -/
def Obligations.VectorAccessesComplete : Prop :=
  ∀ (i : Instr) (o : VMOp) (acc : Nat) (ordered : Bool) (s : State) (t : Strand) (w : Window) (p : PipeE), s.executes i.view t w p →
    (∀ place addr e ps, ContainedForm i o acc place ordered addr → e = s.mEnvOf i o (acc == 1) t w →
      ps = e.actives.map (fun j => { key := j, va := addr e (s.left w).toNat (s.right w).toNat j % 2 ^ 64, bit := 0, w := e.w, size := e.cb : Part }) →
      ((∀ q ∈ ps, q.va % e.cb = 0) → (i = .vlds o ∨ i = .vsts o → (s.right w).toNat % e.cb = 0 ∨ ps = []) → ∃ a, exec i s = .next (s.didAccess p a) ∧
        a.starts o acc place ordered e.n ps ∧
        (acc = 1 → a.out = ps.foldl (fun m q => putField m q.va 0 (8 * e.cb) (elem e.vd e.w q.key) e.cb) [])) ∧
      (∀ q, ps.find? (fun q => q.va % e.cb != 0) = some q → exec i s = .next ((s.didExecute p).raise s.cursor.sid 0x05 0 s.cursor.idx q.va acc)) ∧
      (∀ q qs, ps = q :: qs → (∀ q ∈ ps, q.va % e.cb = 0) → i = .vlds o ∨ i = .vsts o → (s.right w).toNat % e.cb ≠ 0 →
        exec i s = .next ((s.didExecute p).raise s.cursor.sid 0x05 0 s.cursor.idx q.va acc))) ∧
    (∀ e ps, PackedForm i o acc ordered → e = s.mEnvOf i o (acc == 1) t w →
      ps = e.actives.map (fun j => { key := j, va := ((s.left w).toNat + j * e.w / 8) % 2 ^ 64, bit := j * e.w % 8, w := e.w, size := (j * e.w % 8 + e.w + 7) / 8 : Part }) →
      (e.w % 8 ≠ 0 ∨ (s.left w).toNat % e.cb = 0 ∨ ps = [] → ∃ a, exec i s = .next (s.didAccess p a) ∧ a.starts o acc 1 ordered e.n ps ∧
        (acc = 1 → a.out = ps.foldl (fun m q => putField m q.va q.bit e.w (elem e.vd e.w q.key) q.size) [])) ∧
      (e.w % 8 = 0 → (s.left w).toNat % e.cb ≠ 0 → ps ≠ [] →
        exec i s = .next ((s.didExecute p).raise s.cursor.sid 0x05 0 s.cursor.idx (s.left w).toNat acc)))

/-- An element of an MX form's segments, `per` blocks of 32 elements of width w in each (R121, R189). -/
def mxElemPart (b per w j : Nat) : Part :=
  let pos := (j / 32 % per) * 32 * w + j % 32 * w
  { key := j, va := (b + 128 * (j / 32 / per) + pos / 8) % 2 ^ 64, bit := pos % 8, w := w, size := (pos % 8 + w + 7) / 8 }

/-- The other vector memory forms (R180 to R190, R252 to R256). The model's choices in it: the fault records the address of the first misaligned element
(log 18), and a form with no active element checks no alignment (log 81). -/
def Obligations.OtherVectorAccessesComplete : Prop :=
  ∀ (o : VMOp) (s : State) (t : Strand) (w : Window) (p : PipeE) (b : Nat), b = (s.left w).toNat →
    (∀ i acc e ps, (i = .vldseg o ∧ acc = 0) ∨ (i = .vstseg o ∧ acc = 1) → s.executes i.view t w p → e = s.mEnvOf i o (acc == 1) t w →
      ps = e.actives.flatMap (fun j => (List.range (o.vi.toNat + 1)).map fun f =>
        { key := j * 8 + f, va := (b + (j * (o.vi.toNat + 1) + f) * e.cb) % 2 ^ 64, bit := 0, w := e.w, size := e.cb : Part }) →
      ((∀ q ∈ ps, q.va % e.cb = 0) → ∃ a, exec i s = .next (s.didAccess p a) ∧ a.starts o acc 1 false e.n ps ∧
        (acc = 1 → a.out = ps.foldl (fun m q => putField m q.va 0 (8 * e.cb) (elem (w.readV t (o.vd.toNat + q.key % 8) s.cursor.idx) e.w (q.key / 8)) e.cb) [])) ∧
      (∀ q, ps.find? (fun q => q.va % e.cb != 0) = some q → exec i s = .next ((s.didExecute p).raise s.cursor.sid 0x05 0 s.cursor.idx q.va acc))) ∧
    (∀ i acc e per at_, (i = .vldmx o ∧ acc = 0) ∨ (i = .vstmx o ∧ acc = 1) → s.executes i.view t w p → e = s.mEnvOf i o (acc == 1) t w →
      per = (if e.w = 8 then 3 else if e.w = 6 then 5 else 7) → at_ = (if e.w = 8 then 96 else if e.w = 6 then 120 else 112) →
      (b % 128 = 0 ∨ e.actives = [] → ∃ a, exec i s = .next (s.didAccess p a) ∧ a.unit = 128 ∧
        (acc = 0 → a.starts o 0 1 false e.n (e.actives.map (fun j => mxElemPart b per e.w j) ++ (e.actives.map (· / 32)).eraseDups.map fun β =>
          { key := 2 ^ 40 + β, va := (b + 128 * (β / per) + at_ + β % per) % 2 ^ 64, bit := 0, w := 8, size := 1 : Part })) ∧
        (acc = 1 → a.starts o 1 1 false e.n ((e.actives.map (fun j => b + 128 * (j / 32 / per))).eraseDups.map fun g =>
            { key := g, va := g % 2 ^ 64, bit := 0, w := 0, size := 128 : Part }) ∧
          a.out = ((e.actives.map (fun j => b + 128 * (j / 32 / per))).eraseDups).foldl
            (fun m g => putField m ((g + at_ + per) % 2 ^ 64) 0 (8 * (128 - (at_ + per))) 0 (128 - (at_ + per)))
            ((e.actives.map (· / 32)).eraseDups.foldl
              (fun m β => putField m ((b + 128 * (β / per) + at_ + β % per) % 2 ^ 64) 0 8 (elem (w.readS t (fwScla e.fw) s.cursor.idx) 8 β) 1)
              (e.actives.foldl (fun m j => putField m (mxElemPart b per e.w j).va (mxElemPart b per e.w j).bit e.w (elem e.vd e.w j) (mxElemPart b per e.w j).size) [])))) ∧
      (b % 128 ≠ 0 → e.actives ≠ [] → exec i s = .next ((s.didExecute p).raise s.cursor.sid 0x05 0 s.cursor.idx b acc))) ∧
    (∀ e ps, s.executes (Instr.vsc o).view t w p → e = s.mEnvOf (.vsc o) o true t w →
      ps = e.actives.map (fun j => { key := j, va := (b + elem e.vi e.iw j) % 2 ^ 64, bit := 0, w := e.w, size := e.cb : Part }) →
      ((∀ q ∈ ps, q.va % e.cb = 0) → ∃ a, exec (.vsc o) s = .next (s.didAccess p a) ∧ a.starts o 1 2 false e.n ps ∧ a.data = e.vd) ∧
      (∀ q, ps.find? (fun q => q.va % e.cb != 0) = some q → exec (.vsc o) s = .next ((s.didExecute p).raise s.cursor.sid 0x05 0 s.cursor.idx q.va 1))) ∧
    (∀ e, s.executes (Instr.vwait o).view t w p → e = s.mEnvOf (.vwait o) o false t w →
      ∃ a, exec (.vwait o) s = .next (s.didAccess p a) ∧ a.starts o 0 1 false e.n (e.actives.map fun j =>
        { key := j, va := (b + elem e.vi e.iw j) % 2 ^ 64, bit := 0, w := 8, size := 1 : Part })) ∧
    (∀ e, s.executes (Instr.vldcs o).view t w p → e = s.mEnvOf (.vldcs o) o false t w → w.counts.has s.cursor.idx = false →
      ((s.core (coreOf s.cursor.sid)).stream (o.vi.toNat % 8)).fixes e.n = none →
      ∃ a, exec (.vldcs o) s = .next (s.didAccess p a) ∧ a.phase = .reading ∧ a.data = o.vi.toNat % 8 ∧ a.parts = [] ∧ a.n = e.n) ∧
    (∀ e, s.executes (Instr.vacc o).view t w p → e = s.mEnvOf (.vacc o) o true t w →
      (∀ q d, s.givesWindow t w q d → ∃ us w', exec (.vacc o) s = .next ((s.didExecute p).updStrand s.cursor.sid (·.withWin w')) ∧
        w'.posts.get? s.cursor.idx = some (.vacc o.lsid.toNat us q) ∧ us.map (·.elem) = e.actives.filter (fun j => elem e.vi e.iw j < winCount d) ∧
        (∀ u ∈ us, u.index = elem e.vi e.iw u.elem ∧ u.bits = elem e.vd e.w u.elem ∧ u.fw = e.fw) ∧
        w'.lsids.has o.lsid.toNat = true ∧ w'.slots = w.slots ∧ w'.v = w.v) ∧
      (w.noVawin s.cursor.idx → (∀ x, (s.core (coreOf s.cursor.sid)).accWin = some x → x.gang ≠ t.gang ∨ x.closed = true) →
        exec (.vacc o) s = .next ((s.didExecute p).raise s.cursor.sid 0x09 0x06 s.cursor.idx 0 0)))

/-- LOAD_DATA_RETURN of a vector load (R137, R178, R184, R186, R188 to R194, R251, R280): the last segment, and the arrival of the value. The model's choices in
it: outside HBM a load takes no byte from the L1 (log 22), and the strand's committed stores are laid over by physical address (log 94); which links a datum
crosses is log 108. -/
def Obligations.VectorLoadsReturn : Prop :=
  ∀ (s : State) (sid idx : Nat) (t : Strand) (w : Window) (a : Access) (o : VMOp) (maj vop : Nat), maj = 0x2C ∨ (maj = 0x2E ∧ vop = 0) → idx < 128 →
    s.strands.get? sid = some t → t.win = some w → w.accs.get? idx = some a → w.view idx = some (.vm maj vop o) → w.uncounted idx = false →
    a.phase = .reading → w.fault = none → w.lowerResolved a.lsid = true → fencesHoldLoad t w a.lsid = false →
    (∀ seg, a.segs = [seg] → s.crossedTo true a.sent ((a.bytesIn (coreOf sid) seg).map (·.2)) a.route = true → w.loadBefore idx a seg = false →
      (∀ p ∈ (a.bytesIn (coreOf sid) seg).map (·.2), s.chanOpen p = true) →
      itemsHoldBytes t ((a.bytesIn (coreOf sid) seg).map (·.1)) ((a.bytesIn (coreOf sid) seg).map (·.2)) = false →
      lockHolds (s.core (coreOf sid)) t s.seq false ((a.bytesIn (coreOf sid) seg).map (·.1)) = false →
      ∀ f : Nat → Byte, (∀ b : Nat × Nat, b ∈ a.bytesIn (coreOf sid) seg →
        (maj = 0x2C → s.loads (coreOf sid) t w a b.2 (f b.2)) ∧ (maj = 0x2E → s.linkRead w a b.2 (f b.2))) →
      ∃ (s' : State) (t' : Strand) (w' : Window) (a' : Access), exec (.loadDataReturn sid idx 0) s = .next s' ∧ s'.mem = s.mem ∧
        s'.strands.get? sid = some t' ∧ t'.win = some w' ∧ w'.accs.get? idx = some a' ∧ a'.phase = .reading ∧ a'.segs = [] ∧ a'.sent = s.now ∧
        a'.got = (a.bytesIn (coreOf sid) seg).foldl (fun (m : NMap Byte) (b : Nat × Nat) =>
          m.put b.1 (w.overlay a.lsid b.2 (overlayItems t b.2 (f b.2)))) a.got) ∧
    (a.segs = [] → s.crossedTo true a.sent (a.places (coreOf sid)) a.route = true → s.clocked (coreOf sid) = true → (s.core (coreOf sid)).lanesStand s.now = true →
      NMap.sorted w.v = true → NMap.sorted w.scl = true →
      ∃ (s' : State) (t' : Strand) (w' : Window), exec (.loadDataReturn sid idx 0) s = .next s' ∧ s'.mem = s.mem ∧ s'.strands.get? sid = some t' ∧
        t'.win = some w' ∧ (w'.accs.get? idx).map (·.phase) = some .done ∧
        (s'.core (coreOf sid)).fills = (s.core (coreOf sid)).fills ++ [{ sid := sid, idx := idx, sent := s.now, tok := none }] ∧
        (∀ g wd old n idx', ¬(maj = 0x2C ∧ vop = 3) → g = fwGroup a.fw → wd = (fmtOf (fwDst a.fw)).width → old = w.readGroup t o.vd.toNat g a.vlenb idx →
          n = (if maj = 0x2C ∧ (vop = 4 ∨ vop = 7) then min a.n a.cut else a.n) → o.vd.toNat + g ≤ 32 →
          (∀ k, k < g → noWriterBetween w.v (o.vd.toNat + k) idx idx') →
          w'.readGroup t' o.vd.toNat g a.vlenb idx' = destBits old (8 * a.vlenb * g) n wd (fwTail a.fw)
            fun j => (a.valueAt j).getD (if fwMask a.fw then 2 ^ wd - 1 else elem old wd j)) ∧
        (∀ f wd old idx', maj = 0x2C → vop = 3 → f ≤ o.vi.toNat → o.vd.toNat + o.vi.toNat < 32 → wd = (fmtOf (fwDst a.fw)).width →
          old = w.readGroup t (o.vd.toNat + f) 1 a.vlenb idx → noWriterBetween w.v (o.vd.toNat + f) idx idx' →
          w'.readGroup t' (o.vd.toNat + f) 1 a.vlenb idx' = destBits old (8 * a.vlenb) a.n wd (fwTail a.fw)
            fun j => (a.valueAt (j * 8 + f)).getD (if fwMask a.fw then 2 ^ wd - 1 else elem old wd j)) ∧
        (maj = 0x2C → vop = 4 ∨ vop = 7 → w'.counts.get? idx = some (min a.n a.cut)) ∧
        (∀ b idx', maj = 0x2C → vop = 6 → b < (a.n + 31) / 32 → noWriterBetween w.scl (o.vi.toNat % 8) idx idx' →
          elem (w'.readS t' (o.vi.toNat % 8) idx') 8 b =
            match a.valueAt (2 ^ 40 + b) with | some y => y % 256 | none => elem (w.readS t (o.vi.toNat % 8) idx) 8 b))

/-- The posted tile forms that touch no memory, but `mshape` (R203): PMAJ. -/
inductive CellForm : Instr → TOp → Nat → Prop where
  | mzero (o) : CellForm (.mzero o) o 1
  | mop (o) : CellForm (.mop o) o 2
  | mopmx (o) : CellForm (.mopmx o) o 3
  | mopd (o) : CellForm (.mopd o) o 4
  | mvrow (o) : CellForm (.mvrow o) o 8

/-- The posted tile forms as they fire (R199 to R217). -/
def Obligations.TileFormsComplete : Prop :=
  ∀ (i : Instr) (o : TOp) (pm : Nat) (s : State) (t : Strand) (w : Window), s.fires i.view t w →
    (i = .mshape o → ∀ sh, sh = (⟨32 * (o.imm.toNat % 32 + 1), 32 * (o.imm.toNat / 32 % 32 + 1), o.imm.toNat / 1024 % 4⟩ : Shape) →
      (sh.rows * sh.cols ≤ (if sh.cell = 2 then 65536 else 131072) →
        ∃ op, exec i s = .next (s.answeredPosting i.view (.tile op) (.val 0)) ∧ op.fixedBy 0 o sh s t w i.view) ∧
      ((if sh.cell = 2 then 65536 else 131072) < sh.rows * sh.cols → exec i s = .next (s.faulted 0x07 0x01 0 0))) ∧
    (CellForm i o pm → ∀ sh, s.shapeFor s.cursor.sid w s.cursor.idx o.acc.toNat = sh →
      (pm = 1 ∨ fmtWordBad i.view (t.fw i.view) sh false = none) →
      (sh = none → exec i s = .next (s.faulted 0x07 0x02 0 0)) ∧
      (∀ x, sh = some x →
        (tileMismatch pm x.cell (fmtOf (fwSrc1 (t.fw i.view))) = true → exec i s = .next (s.faulted 0x07 0x04 0 0)) ∧
        (tileMismatch pm x.cell (fmtOf (fwSrc1 (t.fw i.view))) = false →
          (pm = 8 → x.rows ≤ o.imm.toNat % 1024 → exec i s = .next (s.faulted 0x07 0x05 0 0)) ∧
          (pm = 8 → o.imm.toNat % 1024 < x.rows → fwFrnd (t.fw i.view) = 5 → exec i s = .next (s.faulted 0x07 0x09 0 0)) ∧
          (pm ≠ 8 ∨ (o.imm.toNat % 1024 < x.rows ∧ fwFrnd (t.fw i.view) ≠ 5) →
            ∃ op, exec i s = .next (s.answeredPosting i.view (.tile op) (.val 0)) ∧ op.fixedBy pm o x s t w i.view))))

/-- The tile memory forms as they fire, and the row and column reads (R213 to R216). The model's choices in it: the alignment fault of a misaligned stride is
recorded at the base (log 85); the rows are checked in the order of their parts, byte by byte (logs 19 and 20). -/
def Obligations.TileMovesComplete : Prop :=
  ∀ (i : Instr) (o : TOp) (pm : Nat) (s : State) (t : Strand) (w : Window),
    ((i = .mld o ∧ pm = 5) ∨ (i = .mst o ∧ pm = 6) → s.fires i.view t w →
      ∀ x, s.shapeFor s.cursor.sid w s.cursor.idx o.acc.toNat = some x → fmtWordBad i.view (t.fw i.view) (some x) false = none →
        tileMismatch pm x.cell (fmtOf (fwSrc1 (t.fw i.view))) = false → 32 * (o.imm.toNat % 32) + 32 * (o.imm.toNat / 32 % 32 + 1) ≤ x.rows →
        fwFrnd (t.fw i.view) ≠ 5 →
        ∀ op : TileOp, op.fixedBy pm o x s t w i.view → op.va = [] → op.vb = [] → op.sca = 0 → op.scb = 0 → op.item = 0 → op.kg = o.depth → op.xl = [] → op.sent = 0 → op.early = [] → op.read = false →
          ∀ bad xl s', s.didFire.probeNow (coreOf s.cursor.sid) t.asid t.ctx 1 (pm - 5) t.sup op.parts = (bad, xl, s') →
            t.pinCheck (accessPins xl op.parts) = .fits → s.partsOpen (coreOf s.cursor.sid) t op.parts = true →
            ((s.left w).toNat % 64 ≠ 0 ∨ (s.right w).toNat % 64 ≠ 0 → exec i s = .next (s.faulted 0x05 0 (s.left w).toNat (pm - 5))) ∧
            ((s.left w).toNat % 64 = 0 → (s.right w).toNat % 64 = 0 → bad = none →
              (pm = 6 → w.loadOver (coreOf s.cursor.sid) o.lsid.toNat (({ op with xl := xl } : TileOp).moves (coreOf s.cursor.sid)) = none) →
              ∃ u, exec i s = .next u ∧ u.mem = s.mem ∧ u = (s'.updWin s.cursor.sid fun w =>
                ((w.post s.cursor.idx (.tile { op with xl := xl })).deliverAll s.cursor.idx (s.token (.val 0)) i.view.targets).resolve o.lsid.toNat s.cursor.idx s.front.stop))) ∧
    (∀ p, i = .mrowv o ∨ i = .mcolv o → s.executes i.view t w p →
      ∃ w', exec i s = .next ((s.didExecute p).updStrand s.cursor.sid (·.withWin w')) ∧ writtenBy w'.v s.cursor.idx o.va.toNat ∧
        (∀ k, k ≠ renKey o.va.toNat s.cursor.idx → w'.v.get? k = w.v.get? k) ∧ w'.m = w.m ∧ w'.scl = w.scl ∧ w'.slots = w.slots ∧ w'.posts = w.posts ∧ w'.lsids = w.lsids ∧
        ∀ fw d sh n x idx', fw = t.fw i.view → d = fmtOf (fwDst fw) → x = (s.core (coreOf s.cursor.sid)).tile o.acc.toNat → x.shape = some sh →
          n = min (w.countOf t i.view fw t.vb) (if i = .mrowv o then sh.cols else sh.rows) → fwFrnd fw ≠ 5 → 0 < d.width → n * d.width ≤ 8 * t.vb →
          noWriterBetween w.v o.va.toNat s.cursor.idx idx' →
          (∀ j, j < n → elem (w'.readV t o.va.toNat idx') d.width j =
            if (w.readM t o.msk.toNat s.cursor.idx).testBit j then
              (convert sh.fmt d (fwFrnd fw) (fwSat fw) 0 (elemValue sh.fmt (if i = .mrowv o then x.cell sh o.line j else x.cell sh j o.line) 0)).1 % 2 ^ d.width
            else if fwMask fw then 2 ^ d.width - 1 else elem (w.readV t o.va.toNat s.cursor.idx) d.width j) ∧
          (∀ b, n * d.width ≤ b → b < 8 * t.vb → (w'.readV t o.va.toNat idx').testBit b =
            if fwTail fw then true else (w.readV t o.va.toNat s.cursor.idx).testBit b))

/-- Two matrix queues that differ at most in the bytes of memory that their entries keep. -/
def sameQueue (a b : List TileOp) : Prop := a.map (fun e => { e with early := [] }) = b.map fun e => { e with early := [] }

/-- MATRIX_PERFORM_DONE (R199 to R217). That a load's earlier read of a line stands for an `mld` of a lower LSID is the model's reading (log 51), and so is that the
read of memory and the tile's change are two happenings (log 115). -/
def Obligations.TileResults : Prop :=
  ∀ (core sid : Nat) (s : State) (t : Strand) (o : TileOp) (x : Tile) (wd : Nat), (s.core core).plane.stepping s.now = false →
    s.clocked core = true → s.planeReady core = some (sid, t, o) → s.strands.get? sid = some t → s.tilePoison core o = none →
    (s.core core).tile o.tile = x → NMap.sorted x.cells = true → 0 < o.shape.cols → wd = (if o.shape.cell = 2 then 64 else 32) →
    (o.op = 5 → o.read = false → NMap.sorted o.early = true → ∃ s' t' o', exec (.matrixPerformDone core) s = .next s' ∧ s'.mem = s.mem ∧
      s'.strands.get? sid = some t' ∧ (∃ rest, t'.mq = o' :: rest ∧ sameQueue rest (t.mq.drop 1)) ∧ o'.read = true ∧ o'.sent = s.now ∧ (s'.core core).tile o.tile = x ∧
      ∀ l ∈ o.lines core, (s'.core core).l1.get? l = none ∧ o'.early.get? l = some (match o.early.get? l with | some b => b | none => lineFrom s.homeByte l)) ∧
    ((o.op = 5 → o.read = true) → ∃ s' t', exec (.matrixPerformDone core) s = .next s' ∧ s'.mem = s.mem ∧ s'.strands.get? sid = some t' ∧ sameQueue t'.mq (t.mq.drop 1) ∧ (o.op ≠ 6 → t'.mq = t.mq.drop 1) ∧
      (o.op = 0 → (s'.core core).tile o.tile = { x with shape := some o.shape }) ∧
      (o.op = 1 → ∀ k, ((s'.core core).tile o.tile).bits k = 0) ∧
      (o.op ∈ [2, 3, 4] → ∀ i j, i < o.shape.rows → j < o.shape.cols → ((s'.core core).tile o.tile).cell o.shape i j =
        if i < o.n ∧ j < o.n ∧ o.mask.testBit i = true then
          (accPut o.shape (fwSat o.fw) (elemValue o.shape.fmt (x.cell o.shape i j) 0) ((List.range o.kg).map fun k => (o.operand false k i, o.operand true k j))).1 % 2 ^ wd
        else x.cell o.shape i j) ∧
      (o.op = 8 → ∀ i j, j < o.shape.cols → ((s'.core core).tile o.tile).cell o.shape i j =
        if i = o.row ∧ j < o.n ∧ o.mask.testBit j = true then
          (cellOf o.shape (fmtOf (fwSrc1 o.fw)) o.fw (elem (o.va.headD 0) (fmtOf (fwSrc1 o.fw)).width j) (scaleOf o.sca j)).1 % 2 ^ wd
        else x.cell o.shape i j) ∧
      (o.op = 5 → ∀ i j, j < o.shape.cols → ((s'.core core).tile o.tile).cell o.shape i j =
        if o.row ≤ i ∧ i < o.row + o.count then
          (cellOf o.shape (fmtOf (fwSrc1 o.fw)) o.fw
            (s.readAt core o (((o.base + (i - o.row) * o.stride) % 2 ^ 64 + j * o.cb) % 2 ^ 64) o.cb % 2 ^ (fmtOf (fwSrc1 o.fw)).width) 0).1 % 2 ^ wd
        else x.cell o.shape i j) ∧
      (o.op = 6 → ∀ e ∈ t.items, e.q = o.item → { e with kind := .store (segWrites core o.xl 64 o.parts (x.storeOut o).1) false none false, sent := s.now } ∈ t'.items))

/-- MATRIX_ISSUE and TILE_MEMORY_MOVE_DONE (R206, R214, R231). -/
def Obligations.TileEventsComplete : Prop :=
  ∀ (core : Nat) (s : State) (d : Nat) (o : TileOp) (x : Nat), x = ((s.core core).planeRr + 1 + d) % 8 →
    ((s.core core).planeCur = none → (s.core core).plane.stepping s.now = false → s.clocked core = true → d < 8 → s.planeHead core (8 * core + x) = some o →
      (∀ d', d' < d → s.planeHead core (8 * core + ((s.core core).planeRr + 1 + d') % 8) = none) →
      exec (.matrixIssue core) s = .next
        (let s := s.updCore core fun k => { k with planeCur := some { sid := 8 * core + x, left := o.steps }, planeRr := x }
         if o.op = 5 ∨ o.op = 6 then s.updStrand (8 * core + x) fun t =>
           { t with lock := t.lock ++ [{ stream := none, item := o.item, lo := o.hull.1, hi := o.hull.2, write := o.op == 6 }] } else s)) ∧
    (∀ sid t e pre post, NMap.sorted s.strands = true → s.strands.get? sid = some t → coreOf sid = core → t.lock = pre ++ e :: post →
      (∀ sid' t', sid' < sid → s.strands.get? sid' = some t' → coreOf sid' = core → ∀ f ∈ t'.lock, f.stream = none → (t'.items.any (·.q == f.item)) = true) →
      e.stream = none → (t.items.any (·.q == e.item)) = false → (∀ f ∈ pre, f.stream = none → (t.items.any (·.q == f.item)) = true) →
      exec (.tileMemoryMoveDone core) s = .next (s.updStrand sid fun t => { t with lock := t.lock.eraseP fun e => e.stream.isNone && !t.items.any (·.q == e.item) }))

/-- Taking an exception (R74, R77, R296, R297, R300), and the events that take it. -/
def Obligations.TakingAnException : Prop :=
  ∀ (s : State) (sid : Nat) (t : Strand) (w : Window), s.strands.get? sid = some t → t.win = some w →
    (∀ (f : FaultRec) (s' : State), s' = s.faultBlock sid f → s'.mem = s.mem ∧ (∀ k, k ≠ sid → s'.strands.get? k = s.strands.get? k) ∧
      ((s.core (coreOf sid)).queue.length < 32 → ∃ r : TrapRec, (s'.core (coreOf sid)).queue = (s.core (coreOf sid)).queue ++ [r] ∧
        (s'.core (coreOf sid)).seq = (s.core (coreOf sid)).seq + 1 ∧ r.seq = (s.core (coreOf sid)).seq ∧ r.kind = BitVec.ofNat 8 f.kind ∧
        r.sub = BitVec.ofNat 8 f.sub ∧ r.index = BitVec.ofNat 8 f.index ∧ r.block = t.pc ∧ r.vaddr = BitVec.ofNat 64 f.vaddr ∧
        r.info = BitVec.ofNat 64 f.info ∧ r.info2 = BitVec.ofNat 64 f.info2 ∧ r.asid = t.asid ∧ r.gang = BitVec.ofNat 8 t.gang ∧
        r.core = BitVec.ofNat 5 (coreOf sid) ∧ r.ctxn = BitVec.ofNat 3 (ctxnOf sid) ∧ r.qt = BitVec.ofNat 64 s.now ∧
        r.parked = true ∧ r.rpl = true ∧ r.fatal = false ∧ r.repeat_ = t.redo ∧
        s'.strands.get? sid = some { t with
          win := none, fetched := none, run := .parked, redo := false, again := false, tcause := r.dword0, taddr := BitVec.ofNat 64 f.vaddr, tinfo := BitVec.ofNat 64 f.info,
          parkKind := f.kind, parkInfo := BitVec.ofNat 64 f.info }) ∧
      (32 ≤ (s.core (coreOf sid)).queue.length → (s'.core (coreOf sid)).queue = (s.core (coreOf sid)).queue ∧
        s'.strands.get? sid = some { t with win := none, fetched := none, run := .pend, redo := true, again := false })) ∧
    ((s.core (coreOf sid)).fe.stepping s.now = false → t.runs = true → s.clocked (coreOf sid) = true →
      (∀ f, w.fault = some f → f.key ≤ s.now → exec (.blockQuiescent sid) s = .next (s.faultBlock sid f)) ∧
      (w.fault = none → s.quiet sid t w = true → w.complete = false →
        exec (.blockQuiescent sid) s = .next (s.faultBlock sid ⟨s.now, 5, 0x0E, 1, 0xFF, 0, 0, 0⟩)) ∧
      (w.fault = none → t.btmo ≠ 0 → t.btmo.toNat < s.now - w.start - w.excluded → s.commits sid t w = false → (s.quiet sid t w = false ∨ w.complete = true) →
        exec (.blockTimeout sid) s = .next (s.faultBlock sid ⟨s.now, 5, 0x0E, 2, 0xFF, 0, 0, 0⟩)))

/-- What a post does as its block commits, in a state in which the strand is `t` (R73, R224, R240, R253, R255, R257, R289, R292 to R295): `after` is
the state with the post applied. -/
def postsApply (sid : Nat) (t : Strand) (w : Window) (u : State) (after : Post → State) : Prop :=
  (∀ p, (after p).mem = u.mem) ∧
  (∀ n x, (after (.ctl n x)).strands.get? sid = some (t.ctlWrite n x)) ∧
  (after .bar).strands.get? sid = some { t with barWait := true } ∧
  (∀ q, (after (.sleep q)).strands.get? sid = some (if q = 0 then t else { t with sleepTo := some (max (t.sleepTo.getD 0) (u.now + q.toNat)) })) ∧
  (after .tret).strands.get? sid = some { t with sup := false } ∧
  (∀ k, ∃ t', (after (.vlset k)).strands.get? sid = some t' ∧ t'.vl = BitVec.ofNat 22 (w.vl.getD 0) ∧ t'.grant = k ∧
    (k = t.grant → t' = { t with vl := BitVec.ofNat 22 (w.vl.getD 0), posted := if t.posted = some k then none else t.posted }) ∧
    (k ≠ t.grant → t'.posted = (if t.posted = some k then none else t.posted) ∧
      ∀ r, r < 32 → t'.v.getD r 0 % 2 ^ (8192 * min k t.grant) = t.v.getD r 0 % 2 ^ (8192 * min k t.grant))) ∧
  (∀ va ctl, (after (.tlbInv va ctl)).strands.get? sid = some { t with tlbWait := some u.seq } ∧ (after (.tlbInv va ctl)).invals = u.invals ++
    [{ id := u.seq, kind := ctl.toNat % 4, asid := BitVec.ofNat 16 (ctl.toNat / 2 ^ 16), va := va, sid := some sid, walks := u.seq }]) ∧
  (∀ g x, u.gangs.get? g = some x → x.resident = true → x.save = none →
    (after (.ctxSave g)).gangs.get? g = some { x with save := some { by_ := 0, scalarOnly := false, started := false } }) ∧
  (∀ addr h, ∃ r, (after (.ctxLoad addr h)).disp.resumes = u.disp.resumes ++ [r] ∧ r.area = addr ∧ r.via = t.ctx ∧ r.gang = h / 2 ^ 64 % 2 ^ 8 ∧
    r.ctx = h / 2 ^ 192 % 2 ^ 64 ∧ r.prio = h / 2 ^ 105 % 2 ^ 3 ∧ r.since = u.now) ∧
  (∀ r, ((after (.spawn r)).core (coreOf sid)).spawn = (u.core (coreOf sid)).spawn ++ [(r, u.now)]) ∧
  (∀ q b d, ((after (.vawin q b d)).core (coreOf sid)).accWin = some { id := q, gang := t.gang, base := b, desc := d, copies := [], undef := none, closed := false }) ∧
  (∀ x, (u.core (coreOf sid)).accWin = some x → x.gang = t.gang →
    ((after .vawclr).core (coreOf sid)).accWin = if u.windowBusy t.gang then some { x with closed := true } else none)

/-- What the posts of the copy-stream forms do to their stream (R223, R224, R231). -/
def streamPostsApply (sid k : Nat) (t : Strand) (u : State) (st : Stream) (after : Post → State) : Prop :=
  let now (p : Post) : Stream := ((after p).core (coreOf sid)).stream k
  (∀ r, now (.cpsCfg k r) = { Stream.reset with gang := st.gang, desc := r, state := 1 }) ∧
  (∀ sn r, st.state = 1 ∨ st.state = 4 → (now (.cpsGo k sn r)).state = 2 ∧ (now (.cpsGo k sn r)).issuer = sid ∧ (now (.cpsGo k sn r)).snap = sn ∧
    (now (.cpsGo k sn r)).desc = st.desc ∧ (now (.cpsGo k sn r)).strips = [] ∧
    (st.state = 1 → (now (.cpsGo k sn r)).done_ = 0 ∧ (now (.cpsGo k sn r)).cur = 0) ∧
    (st.state = 4 → (now (.cpsGo k sn r)).done_ = st.done_ ∧ (now (.cpsGo k sn r)).cur = st.cur) ∧
    ∃ t', (after (.cpsGo k sn r)).strands.get? sid = some t' ∧ t'.lock = t.lock ++
      [{ stream := some k, item := u.seq, lo := st.desc.srcHull.1.toNat, hi := st.desc.srcHull.2.toNat, write := false },
       { stream := some k, item := u.seq, lo := st.desc.dstHull.1.toNat, hi := st.desc.dstHull.2.toNat, write := true }]) ∧
  (now (.cpsStep k) = if 2 ≤ st.state then { st with cur := st.cur + 1 } else st) ∧
  (now (.cpsKill k) = if st.state = 2 ∨ st.state = 4 then { st with state := 5, strips := [] } else st)

/-- The operations that a block posts to memory, in program order (R52, R73, R215, R242, R246, R254, R255). -/
def memoryPosts (w : Window) (k : Nat) : Prop :=
  (∀ l kd sn, w.stores = [] → w.posts = [(k, .fence l kd sn)] → w.memOps = [.fence kd sn]) ∧
  (∀ l x z pa va r y g sn pins, w.stores = [] → w.posts = [(k, .atomic l x z pa va r y g sn pins)] → w.memOps = [.atomic x z pa va r y g sn pins]) ∧
  (∀ l ups q, w.stores = [] → w.posts = [(k, .vacc l ups q)] → w.memOps = [.vacc ups]) ∧
  (∀ b d xl q, w.stores = [] → w.posts = [(k, .vamerge b d xl q)] → w.memOps = [.vamerge b.toNat d.toNat xl 0]) ∧
  (∀ o, w.stores = [] → w.posts = [(k, .tile o)] → w.memOps = if o.op = 5 ∨ o.op = 6 then [.tile (o.op == 6) o.hull.1 o.hull.2 o.xl o.homes] else []) ∧
  (∀ k' l l' kd sn x z pa va r y g sn' pins, w.stores = [] → l' < l →
    w.posts = [(k, .fence l kd sn), (k', .atomic l' x z pa va r y g sn' pins)] → w.memOps = [.atomic x z pa va r y g sn' pins, .fence kd sn])

/-- What the exit of a block does after everything else of its commit, to a strand `t` of a state `u` (R86 to R89). -/
def exitTakes (u : State) (sid : Nat) (t : Strand) (e : Exit) : Prop :=
  let s' := u.takeExit sid e
  let here : Strand := { t with pc := e.target, redo := false, fetched := t.fetched.filter (·.base == e.target) }
  (e.kind = 0 → s'.strands.get? sid = some here) ∧
  (e.kind = 1 → s'.strands.get? sid = some { here.setReg 1 e.link with pend := t.pend.erase 1 }) ∧
  (e.kind = 2 → s'.strands.get? sid = some { here.release with run := .halted, barWait := false, fetched := none }) ∧
  (e.kind = 3 → s'.strands.get? sid = some here ∧ (s'.core (coreOf sid)).issueRr = ctxnOf sid) ∧
  (e.kind = 4 ∨ e.kind = 5 → (u.core (coreOf sid)).queue.length < 32 → ∃ r : TrapRec,
    (s'.core (coreOf sid)).queue = (u.core (coreOf sid)).queue ++ [r] ∧ r.kind = (if e.kind = 4 then 0x20 else 0x21) ∧ r.sub = 0 ∧
    r.index = BitVec.ofNat 8 e.idx ∧ r.block = e.target ∧ r.info = (if e.kind = 4 then e.link else 0) ∧ r.parked = true ∧ r.rpl = false ∧
    s'.strands.get? sid = some { here with
      run := .parked, fetched := none, again := false, tcause := r.dword0, taddr := 0, tinfo := r.info, parkKind := r.kind.toNat, parkInfo := r.info })

/-- What the events of a block do to a strand at its commit (R174): each that was raised sets its bit of `fstat`, and its `eix` register takes the highest index
that raised it, with the element; every other bit, register and field stays. -/
def eventsMerge (x : Strand) (evs : NMap Nat) : Prop :=
  NMap.sorted evs = true → NMap.sorted x.eix = true → ∃ fs ix, x.mergeEvents evs = { x with fstat := fs, eix := ix } ∧
    ∀ b, (b < 6 → fs.getLsbD b = (x.fstat.getLsbD b || evs.any fun kv => eventOf kv.1 == b)) ∧
      (b < 6 → ∀ i e, evs.get? (8 * i + b) = some e → (∀ kv ∈ evs, eventOf kv.1 = b → eventIdx kv.1 ≤ i) → ix.get? b = some (i, e)) ∧
      (6 ≤ b ∨ (∀ kv ∈ evs, eventOf kv.1 ≠ b) → ix.get? b = x.eix.get? b)

/-- What the sleep of a `vwait` is at the commit of a block that holds one (R256, R286). -/
def waitSleeps (u : State) (sid : Nat) (w : Window) : Prop :=
  ∀ k c n t, w.posts = [(k, .vwait c n)] → u.strands.get? sid = some t →
    let late := t.qdl ≠ 0 ∧ t.qdl ≤ u.qtime
    (c = 0 → (u.commitWait sid w).strands.get? sid = some { t with vsleep := none, wstat := BitVec.ofNat 64 (3 * 2 ^ 62) }) ∧
    (c ≠ 0 → w.armedHit = true → ¬late → (u.commitWait sid w).strands.get? sid = some { t with vsleep := none, wstat := BitVec.ofNat 64 (c % 2 ^ 22) }) ∧
    (c ≠ 0 → late →
      (u.commitWait sid w).strands.get? sid = some { t with vsleep := none, wstat := BitVec.ofNat 64 (1 * 2 ^ 62 + c % 2 ^ 22) }) ∧
    (c ≠ 0 → w.armedHit = false → ¬late → ∃ x, (u.commitWait sid w).strands.get? sid = some { t with vsleep := some { lines := w.armed, hit := false }, wstat := x })

/-- The state `v` in which a commit takes its exit, from the state `u` with everything that its block posts (R73): the strand's events, its sleep and `vrel`, its
links, its reservations of table entries and its running block, and nothing else. -/
def commitEnds (u v : State) (sid : Nat) (t : Strand) (w : Window) : Prop :=
  v.mem = u.mem ∧ v.disp = u.disp ∧ v.invals = u.invals ∧ v.walks = u.walks ∧ v.dies = u.dies ∧ v.marks = u.marks ∧ v.resv = u.resv ∧ v.held = u.held ∧
  v.board = u.board ∧ v.rings = u.rings ∧ v.clusters = u.clusters ∧ v.links = u.links ∧ v.ports = u.ports ∧ v.pkg = u.pkg ∧ v.ao = u.ao ∧ v.out = u.out ∧ v.seq = u.seq ∧ v.free = u.free ∧ v.now = u.now ∧
  (∀ c, c ≠ coreOf sid → v.core c = u.core c) ∧
  (∃ ws, v.core (coreOf sid) = { u.core (coreOf sid) with watches := ws, links := (u.core (coreOf sid)).links.map (fun k =>
      if k.sid = sid ∧ w.links.contains k.line = true then { k with usable := true } else k) } ∧
    ((∀ kv ∈ w.posts, ∀ c n, kv.2 ≠ .vwait c n) → ws = (u.core (coreOf sid)).watches)) ∧
  (∀ g x, u.gangs.get? g = some x → ∃ y, v.gangs.get? g = some { x with reclaim := y } ∧ (y = x.reclaim ∨ (y = none ∧ g = t.gang ∧ ∃ k, (k, Post.vrel) ∈ w.posts))) ∧
  (∀ c, v.contexts.get? c = (u.contexts.get? c).map fun x => if c = t.ctx then x.release sid else x) ∧
  (∀ k, k ≠ sid → v.strands.get? k = u.strands.get? k) ∧
  v.strands.get? sid = (((u.updStrand sid (·.mergeEvents w.events)).commitWait sid w).strands.get? sid).map fun x =>
    let x := if w.posts.any (·.2 == .vrel) then x.release else x
    { x with win := none, again := false, fetched := x.fetched.map w.passAhead }

/-- BLOCK_FETCH, BLOCK_START and the commit of BLOCK_QUIESCENT (R24 to R43, R52, R66 to R73, R86 to R89, R198). The model's choices in it: `scope.inv` clears every
field but GEN (log 48); the translations of a fetch are made in one step (log 60); of two writers of a register that of the highest index stands (log 77);
what a window's close leaves of an uncommitted `vacc` (log 110); what was read ahead (log 51). -/
def Obligations.BlocksStartAndCommit : Prop :=
  ∀ (s : State) (sid : Nat) (t : Strand), s.strands.get? sid = some t → s.clocked (coreOf sid) = true →
    (s.mayRun sid t = true → t.pc.toNat % 32 = 0 → s.fetchOpen (coreOf sid) t (s.fetchBlock (coreOf sid) t.asid (s.rootOf t.ctx) t.sup t.pc).1 = true →
      ∃ f s', exec (.blockFetch sid t.pc.toNat) s = .next s' ∧ s'.mem = s.mem ∧
      s'.strands.get? sid = some { t with fetched := some f } ∧ f.base = t.pc ∧ f.sup = t.sup ∧ f.at_ = s.now ∧ f.ahead = [] ∧
      (∀ xl u x, s.xlateAll (coreOf sid) t.asid.toNat (s.rootOf t.ctx) (if canonical t.pc.toNat && t.pc.toNat < spBase then [pageOf t.pc.toNat] else []) [] = (xl, u) →
        u.codeBytes (coreOf sid) t.sup xl t.pc.toNat 32 = .ok x →
        f.hdr = headerOf x ∧
        (∀ c, checkHeader (headerOf x) = some c → f.fault = some (heldFault 0x01 c 0xFF 0 0 0)) ∧
        (∀ ws len, checkHeader (headerOf x) = none → u.codeWords (coreOf sid) t.sup xl ((t.pc.toNat + 32) % 2 ^ 64) 0 (headerOf x).icount = .ok (ws, len) →
          f.body = ws ∧ f.len = len ∧ f.fault = (formatFault (headerOf x) ws).map fun p => heldFault 0x01 p.1 p.2 0 0 0))) ∧
    (∀ f, s.mayRun sid t = true → t.win = none → (s.core (coreOf sid)).fe.stepping s.now = false → t.fetched = some f → f.base = t.pc → f.sup = t.sup →
      s.crossedTo false f.at_ f.home = true →
      (∀ d ds, t.deferred = d :: ds → (s.core (coreOf sid)).queue.length < 32 → exec (.blockStart sid) s =
        .next ((s.updStrand sid fun t => { t with deferred := ds }).takeTrap sid { d with key := s.now } t.pc true)) ∧
      (∀ d, t.deferred = [] → f.fault = some d → exec (.blockStart sid) s = .next (s.takeTrap sid { d with key := s.now } t.pc true)) ∧
      (∀ x, t.deferred = [] → f.fault = none → s.startCheck (coreOf sid) t.gang f = some x → exec (.blockStart sid) s =
        .next (s.takeTrap sid (heldFault x.1 x.2.1 x.2.2 0 0 0) t.pc true)) ∧
      (t.deferred = [] → f.fault = none → s.startCheck (coreOf sid) t.gang f = none → ∃ s', exec (.blockStart sid) s = .next s' ∧ s'.mem = s.mem ∧
        s'.strands.get? sid = some { t with fetched := none, win := some (Window.start_ f s.now) } ∧
        ∀ k, k < 8 → (s'.core (coreOf sid)).tile k =
          if f.hdr.acmask.toNat.testBit k ∧ ((s.core (coreOf sid)).tile k).gang = none then { Tile.reset with gang := some t.gang } else (s.core (coreOf sid)).tile k)) ∧
    (∀ w₀ w e, t.win = some w₀ → w = s.dropLost sid t w₀ → t.runs = true → (s.core (coreOf sid)).fe.stepping s.now = false → w₀.fault = none →
      s.quiet sid t w₀ = true → w₀.complete = true → s.commitWaits sid t w₀ = false → w₀.exit = some e →
      (∃ u v : State, u = (w.posts.foldl (fun (s : State) kv => s.applyPost sid t w kv.2) (s.commitValues sid t w)).commitScopes sid t w ∧
        exec (.blockQuiescent sid) s = .next (v.takeExit sid e) ∧ (v.takeExit sid e).mem = s.mem ∧ commitEnds u v sid t w) ∧
      (∀ kv, kv ∈ w.posts ↔ kv ∈ w₀.posts ∧ (∀ l us q, kv.2 = .vacc l us q → s.liveWin sid t w₀ q = true) ∧
        ∀ b d xl q, kv.2 = .vamerge b d xl q → s.liveWin sid t w₀ q = true) ∧ w = { w₀ with posts := w.posts } ∧
      (NMap.sorted w.slots = true → NMap.sorted w.v = true → NMap.sorted w.m = true → NMap.sorted w.scl = true → NMap.sorted w.stores = true →
        ∃ t', (s.commitValues sid t w).strands.get? sid = some t' ∧ t'.mq = t.mq ++ w.tileOps.map (s.postTile (coreOf sid) t w) ∧
          t'.items.map (·.kind) = t.items.map (·.kind) ++ w.memOps ∧ (∀ i ∈ t'.items, i ∈ t.items ∨ i.sent = s.now) ∧
          (∀ g : BitVec 6, t'.reg g = match w.slots.get? g.toNat with | some h => (match h.tok with | .val x => x | _ => t.reg g) | none => t.reg g) ∧
          (∀ r, t'.v.getD r 0 = keepRen w.v (t.v.getD r 0) r ∧ t'.m.getD r 0 = keepRen w.m (t.m.getD r 0) r ∧ t'.scl.getD r 0 = keepRen w.scl (t.scl.getD r 0) r) ∧
          (∀ kv ∈ w.stores, kv.2.segs ≠ [] → (∀ kv' ∈ w.stores, kv'.2.lsid = kv.2.lsid → kv' = kv) → w.posts = [] →
            ∃ i ∈ t'.items, i.kind = .store kv.2.segs kv.2.ordered kv.2.stamp kv.2.sc) ∧
          t'.pc = t.pc ∧ t'.tcause = t.tcause ∧ t'.sup = t.sup ∧ t'.vl = t.vl ∧ t'.grant = t.grant) ∧
      (∀ (x : Strand) (evs : NMap Nat), eventsMerge x evs) ∧
      (∀ k, memoryPosts w k) ∧
      (∀ u, waitSleeps u sid w) ∧
      (∀ u tu, u.strands.get? sid = some tu → exitTakes u sid tu e ∧ postsApply sid tu w u (u.applyPost sid tu w) ∧
        ∀ k, streamPostsApply sid k tu u ((u.core (coreOf sid)).stream k) (u.applyPost sid tu w)) ∧
      (∀ (u : State) (x : Context) (k en : Nat) (d : Sedge), u.contexts.get? t.ctx = some x → w.posts = [(k, .scopeSet en d)] ∨ (w.posts = [(k, .scopeInv en)] ∧ d = Sedge.none) →
        ∃ (x' : Context) (d' : Sedge), (u.commitScopes sid t w).contexts.get? t.ctx = some x' ∧ d' = { d with gen := (u.sedgeMaster (coreOf sid) t.ctx en).gen + 1 } ∧
          x'.table.get? en = some d' ∧ (x'.copies.get? (coreOf sid)) = (x.copies.get? (coreOf sid)).map fun m => m.put en d'))

/-- The events of traps and of TLB invalidation (R293, R300 to R303, R362). The model's choices in it: INFO of the lost atomic is the port that carried it, with
sub-code 2 (log 40), its remote write is taken as not having happened (log 39), and a strand that replays holds the slot it replays for (log 118). -/
def Obligations.TrapEventsComplete : Prop :=
  ∀ (s : State),
    (∀ core ctxn t, core < 32 → ctxn < 8 → s.strands.get? (8 * core + ctxn) = some t → t.run = .parked → t.stopped = false →
      ((s.cluster (clusterOf core)).state = 0 →
        exec (.resumeGo core ctxn) s = .next (s.updStrand (8 * core + ctxn) fun t => { t with run := .active, parkKind := 0, parkInfo := 0, fetched := none }) ∧
        exec (.resumeRedirect core ctxn) s = .next (s.updStrand (8 * core + ctxn) fun t =>
          { t with pc := (s.core core).resumePc &&& ~~~31#64, run := .active, parkKind := 0, parkInfo := 0, fetched := none }) ∧
        exec (.resumeKill core ctxn) s = .next (s.kill t.gang)) ∧
      ((s.cluster (clusterOf core)).state ≠ 0 →
        exec (.resumeGo core ctxn) s = .next (s.updCore core fun c => { c with resumes := c.resumes ++ [(ctxn, 0, c.resumePc)] }) ∧
        exec (.resumeRedirect core ctxn) s = .next (s.updCore core fun c => { c with resumes := c.resumes ++ [(ctxn, 1, c.resumePc)] }) ∧
        exec (.resumeKill core ctxn) s = .next (s.updCore core fun c => { c with resumes := c.resumes ++ [(ctxn, 2, c.resumePc)] })) ∧
      (∀ g, s.gangs.get? t.gang = some g → ∃ g', (s.kill t.gang).gangs.get? t.gang = some g' ∧ g'.killed = true)) ∧
    (∀ core k t, (s.core core).queue.length + s.replaying core < 32 → k < 8 → s.strands.get? (8 * core + k) = some t → t.run = .pend → t.stopped = false →
      (∀ j t', j < k → s.strands.get? (8 * core + j) = some t' → t'.run ≠ .pend ∨ t'.stopped = true) →
      exec (.replayPendingReplay core) s = .next (s.updStrand (8 * core + k) fun t => { t with run := .active, again := true })) ∧
    (∀ gid sub pa g, s.gangs.get? gid = some g → g.resident = true → sub = 1 ∨ (sub = 2 ∧ placeOf pa ≠ .hbm ∧ placeOf pa ≠ .host) →
      ∃ s', exec (.fatalRecord gid sub pa) s = .next s' ∧ (s'.gangs.get? gid).map (·.stopped) = some (some sub) ∧
      (∀ sid t, s.strands.get? sid = some t → t.gang = gid → (s'.strands.get? sid).map (·.stopped) = some true) ∧
      ((s.core g.core).fatal = none → ∃ r, (s'.core g.core).fatal = some r ∧ r.kind = 0x40 ∧ r.sub = BitVec.ofNat 8 sub ∧ r.info = BitVec.ofNat 64 gid ∧ r.info2 = BitVec.ofNat 64 pa) ∧
      (∀ r, (s.core g.core).fatal = some r → (s'.core g.core).fatal = some { r with fovf := true })) ∧
    (∀ core r rest k g, (s.core core).fatal = none → (s.core core).notices = [] → (s.core core).queue = r :: rest → s.hostDown = false → Memory.wf s.mem = true →
      s.linkOpen [g.slot] = true → s.linkOpen [s.trtbase.toNat + r.asid.toNat] = true → s.lastNow 64 (bytesOf g.slot 64 0) = true → s.routerTurn = some core → k = (Memory.read s.mem (s.trtbase.toNat + r.asid.toNat)).toNat → s.ring k = g →
      ∃ s', exec (.routerRecordWrite core) s = .next s' ∧ (s'.core core).queue = rest ∧ s'.ring k = { g with rhead := g.rhead + 1 } ∧ s'.board.rrRouter = core ∧
        g.slot = g.rbase.toNat + 64 * (g.rhead.toNat % 2 ^ g.rsize.toNat) ∧
        (∀ b, b < 64 → Memory.read s'.mem (g.slot + b) = BitVec.ofNat 8 (r.bytes / 2 ^ (8 * b))) ∧
        ∀ p, p < g.slot ∨ g.slot + 64 ≤ p → Memory.read s'.mem p = Memory.read s.mem p) ∧
    (s.tlbBusy = false → s.board.tkind ≠ 3 → exec .tlbInvStart s = .next { s with seq := s.seq + 1, invals := s.invals ++
      [{ id := s.seq, kind := s.board.tkind.toNat, asid := s.board.tasid, va := s.board.taddr, sid := none, walks := s.seq }] }) ∧
    (∀ k i, s.invals.find? (·.id == k) = some i → NMap.sorted s.strands = true → (∀ kv ∈ s.walks, i.walks ≤ kv.1) →
      (∀ sid t, s.strands.get? sid = some t → ∀ p ∈ t.items.flatMap PItem.pins, i.namesPin t.asid p = false) →
      (∀ sid t, s.strands.get? sid = some t → i.hits t → s.commitDue sid = false) →
      ∃ s', exec (.tlbInvalidatePerform k) s = .next s' ∧ s'.mem = s.mem ∧ (∀ j ∈ s'.invals, j.id ≠ k) ∧
        (∀ c, (s'.core c).tlb = (s.core c).tlb.filter fun e => !i.names e) ∧ (∀ d, (s'.die d).tlb = (s.die d).tlb.filter fun e => !i.names e) ∧
        (∀ sid t, s.strands.get? sid = some t → i.sid ≠ some sid →
          (i.hits t → s'.strands.get? sid = some { t with win := none, fetched := none }) ∧ (¬i.hits t → s'.strands.get? sid = some t)) ∧
        (∀ sid t, i.sid = some sid → s.strands.get? sid = some t → ¬i.hits t → (∀ j ∈ s.invals, j.id ≠ k → j.sid ≠ some sid) →
          s'.strands.get? sid = some { t with tlbWait := none })) ∧
    (∀ sid t item xop size pa va r x reg sn pins sent port back from_, s.strands.get? sid = some t → t.run ≠ .halted →
      t.items = [⟨item, .atomic xop size pa va r x (some reg) sn pins, sent, some port⟩] → placeOf pa = .fabric → fabDev pa ≠ s.board.devnum.toNat →
      (s.port port).state = 5 → t.pend.get? reg = some ⟨item, true, none, back, from_⟩ →
      ∃ t', exec (.remoteLostDeferred sid) s = .next { s with strands := s.strands.put sid t' } ∧ t'.items = [] ∧
        t'.pend.get? reg = some ⟨item, true, some (BitVec.allOnes 64), s.now, pa⟩ ∧ t'.deferred = t.deferred ++
          [{ key := s.now, cls := classOf 0x11, kind := 0x11, sub := 2, index := 0xFF, vaddr := va, info := port, info2 := fabDev pa }])

/-- Windows, barriers, caches, walks and clocks (R194, R254, R255, R258, R268, R281, R282, R307). The model's choices here: which line leaves a full
cache is log 66, when a floor acts and a relock begins is log 33, a container written zero-extended is log 67, the links that a datum crosses log 108, what a
`vacc` does whose window is gone log 110, the turn that an update or a fold takes of its copy's bank log 14. -/
def Obligations.SharedUnitEventsComplete : Prop :=
  ∀ (s : State),
    (∀ sid t q u x sent port, s.strands.get? sid = some t → t.items = [⟨q, .vacc [u], sent, port⟩] → (s.core (coreOf sid)).accWin = some x → x.gang = t.gang → s.crossed sent = true → s.mergeBefore t.gang q = false →
      s.bankFree (coreOf sid) u.group = true →
      ∃ s' x' t' ev, exec (.vaccUpdatePerform sid q u.elem) s = .next s' ∧ s'.mem = s.mem ∧ s'.strands.get? sid = some t' ∧ t'.items = [] ∧
        t'.mstat = t.mstat ||| BitVec.ofNat 6 ev ∧
        (x.closed = false → (s'.core (coreOf sid)).accWin = some x' ∧
          (x'.copies.getD (32768 * u.group + u.index) 0, ev) =
            winPut x.desc (fwFrnd u.fw) (fwSat u.fw) u.draw (x.copy u.group u.index) (fmtOf (fwSrc1 u.fw)) u.bits ∧
          ∀ k, k ≠ 32768 * u.group + u.index → x'.copies.get? k = x.copies.get? k)) ∧
    (∀ sid t q x base desc xl next sent port, s.strands.get? sid = some t → t.items = [⟨q, .vamerge base desc xl next, sent, port⟩] →
      (∀ kv ∈ s.strands, kv.2.gang = t.gang → kv = (sid, t)) → (s.core (coreOf sid)).accWin = some x →
      t.lock = [⟨none, q, base, base + winLen (BitVec.ofNat 64 desc), true⟩] →
      (x.out.get? q = none → s.crossed sent = true → (∀ g, g < 64 → s.bankFree (coreOf sid) g = true) →
        ∃ s', exec (.vamergeFold sid q) s = .next s' ∧ s'.mem = s.mem ∧ (∀ g, g < 64 → g ∈ (s'.core (coreOf sid)).banks) ∧
          (s'.core (coreOf sid)).accWin = some { x with out := x.out.put q ((List.range 64).map fun g => x.copy g (next / 64)) } ∧
          s'.strands.get? sid = some { t with items := [⟨q, .vamerge base desc xl next, s.now, port⟩] }) ∧
      (∀ vals cb pas pa, x.out.get? q = some vals → cb = winCb (BitVec.ofNat 64 desc) →
        pas = ((List.range cb).map (base + next / 64 * cb + ·)).filterMap (physOf (coreOf sid) xl) → pas.length = cb → pas.headD 0 = pa → placeOf pa = .hbm →
        s.crossedTo true sent pas = true → (∀ p ∈ pas, s.chanOpen p = true) →
        s.lastNow (coreOf sid) (bytesOf pa cb 0) = true → s.resv = [] → s.poisoned pa = false → next + 1 < 64 * winCount (BitVec.ofNat 64 desc) →
        exec (.vamergeFold sid q) s = .next (((((s.l2Work pa 4).performBytes (coreOf sid) (some sid) (bytesOf pa cb
          (winPut (BitVec.ofNat 64 desc) 0 false 0 (s.homeLe pa cb % 2 ^ (winFmt (BitVec.ofNat 64 desc)).width) (winFmt (BitVec.ofNat 64 desc))
            (vals.getD (next % 64) 0)).1)).saw sid q pas).updCore (coreOf sid) fun c => { c with
              accWin := some (if (next + 1) % 64 = 0 then { x with out := x.out.erase q } else x) }).updStrand sid fun t => t.setItem q (.vamerge base desc xl (next + 1))))) ∧
    (∀ sid t g, s.strands.get? sid = some t → s.gangs.get? t.gang = some g → t.barWait = true → t.run ≠ .halted → t.cid ∉ g.arrived → t.mq = [] → t.items = [] →
      ((∃ kv ∈ s.strands, kv.2.gang = t.gang ∧ kv.2.run ≠ .halted ∧ kv.2.cid ≠ t.cid ∧ kv.2.cid ∉ g.arrived) →
        exec (.barrierArrival sid) s = .next (s.updGang t.gang fun g => { g with arrived := g.arrived ++ [t.cid] })) ∧
      ((∀ kv ∈ s.strands, kv.2.gang = t.gang → kv.2.run ≠ .halted → kv.2.cid = t.cid ∨ kv.2.cid ∈ g.arrived) →
        ∃ s', exec (.barrierArrival sid) s = .next s' ∧ (s'.gangs.get? t.gang).map (·.arrived) = some [] ∧
          (∀ k t', s'.strands.get? k = some t' → t'.gang = t.gang → t'.barWait = false))) ∧
    (∀ core line, (s.core core).l1.has line = true → exec (.l1LineInvalidate core line) s = .next (s.updCore core (·.dropL1 (· == line)))) ∧
    (∀ core line gl b, gl ∈ (s.core core).gl1 → b ∈ gl.bytes → lineOf b.1 = line →
      exec (.l1LineInvalidate core line) s = .next (s.updCore core (·.dropL1 (· == line))) ∧ gl ∉ ((s.core core).dropL1 (· == line)).gl1) ∧
    (∀ die line, line ∈ (s.die die).l2 →
      exec (.l2Eviction die line) s = .next (s.updDie die fun d => { d with l2 := d.l2.filter (· != line), slough := (line :: d.slough).take sloughLines })) ∧
    (∀ k w l, s.walks.get? k = some w → s.linkWait (· == tlbDie w.page) = false → s.linkOpen (walkPath s.mem w.page 3 w.root.toNat) = true → s.walk w.root.toNat w.page = .ok l →
      ∃ s', exec (.tlbWalkComplete k) s = .next s' ∧ s'.mem = s.mem ∧ s'.walks = s.walks.erase k ∧
        (∀ c, (c ∈ w.cores → (s'.core c).tlb = tlbPut (s.core c).tlb 256 w.asid.toNat l ∧ ∃ e ∈ (s'.core c).tlb, e.hit w.asid.toNat w.page = true ∧ e.leaf = l) ∧
          (c ∉ w.cores → s'.core c = s.core c)) ∧
        (w.cores ≠ [] → (s'.die (tlbDie w.page)).tlb = tlbPut (s.die (tlbDie w.page)).tlb 16384 w.asid.toNat l) ∧ ∀ d, d ≠ tlbDie w.page → s'.die d = s.die d) ∧
    (∀ k w, s.walks.get? k = some w → s.linkWait (· == tlbDie w.page) = false → s.linkOpen (walkPath s.mem w.page 3 w.root.toNat) = true → (∀ l, s.walk w.root.toNat w.page ≠ .ok l) →
      ∃ s', exec (.tlbWalkComplete k) s = .next s' ∧ s'.cores = s.cores ∧ ∀ d, (s'.die d).tlb = (s.die d).tlb) ∧
    (∀ k w sid t b idx a, s.walks.get? k = some w → s.linkWait (· == tlbDie w.page) = false → s.linkOpen (walkPath s.mem w.page 3 w.root.toNat) = true → s.strands.get? sid = some t → t.win = some b → b.accs.get? idx = some a → coreOf sid ∈ w.cores →
      t.asid = w.asid → a.phase = .probing → a.xl.has w.page = false → w.page ∈ partPages a.parts →
      ∃ s', exec (.tlbWalkComplete k) s = .next s' ∧ s'.mem = s.mem ∧ s'.walks = s.walks.erase k ∧
        ((s'.strands.get? sid).bind (·.win)).bind (·.accs.get? idx) = some { a with xl := a.xl.put w.page (s.walk w.root.toNat w.page) }) ∧
    (∀ region, s.now % 65536 = 0 → region < 32 →
      exec (.localCountCheck 0 region) s = .next (s.updCore region fun k => { k with fe := { k.fe with slew := k.fe.lag } }) ∧
      (∀ d, d < 8 →
        exec (.localCountCheck 1 (8 * region + d)) s = .next (s.updCore region fun k => { k with slices := k.slices.put d { k.slices.getD d .reset with slew := (k.slices.getD d .reset).lag } }) ∧
        exec (.localCountCheck 2 (8 * region + d)) s = .next (s.updCore region fun k => { k with slices := k.slices.put (8 + d) { k.slices.getD (8 + d) .reset with slew := (k.slices.getD (8 + d) .reset).lag } })) ∧
      (region < 8 → exec (.localCountCheck 3 region) s = .next (s.updDie region fun d => { d with clock := { d.clock with slew := d.clock.lag } }))) ∧
    (∀ k, k < 8 → (s.cluster k).state = 0 → (s.cluster k).stopAt = none → s.retraining = false → (s.cluster k).level ≠ levelOf (max s.pkg.floor (s.cluster k).floor) →
      (s.cluster k).eff = max s.pkg.floor (s.cluster k).floor ∨ s.effOpen k = true →
      ∃ s', exec (.pllRelockStop k) s = .next s' ∧ (s'.cluster k).stopAt = some s.now ∧
        ∀ j, j < 4 → (s'.core (4 * k + j)).fe.frozen = some (max s.now (s.core (4 * k + j)).fe.stop)) ∧
    (∀ d, d < 8 → s.retraining = false → exec (.pllRelockStop (8 + d)) s = .next s) ∧
    (∀ k, (s.cluster k).stopAt.isSome = true → (∀ j, j < 4 → (s.core (4 * k + j)).standing s.now = true) →
      ∃ s', exec (.pllRelockEnd k) s = .next s' ∧ (s'.cluster k).stopAt = none ∧ (s'.cluster k).eff = max s.pkg.floor (s.cluster k).floor ∧
        ∀ j, j < 4 → (s'.core (4 * k + j)).fe.frozen = none)

/-- Power, capping and the thermal response (R333 to R346). The model's choices here: AVG as the floor of the mean over the intervals that have passed is log
28, the ten-second floor apart from CAPF's log 29, the predictor log 30, hold and evict log 32, the hard trip log 34, the deepening of an idle cluster log 71, one
move of a floor in an interval log 72, and how long a draw may stay above the design power log 116. -/
def Obligations.PowerEventsComplete : Prop :=
  ∀ (s : State),
    (∀ now dl idles d, deepestRepaid now dl idles d ≤ d ∧ (2 ≤ deepestRepaid now dl idles d → repays now dl idles (deepestRepaid now dl idles d) = true) ∧
      ∀ e, deepestRepaid now dl idles d < e → e ≤ d → 2 ≤ e → repays now dl idles e = false) ∧
    (∀ k d, k < 8 → (s.cluster k).waking = false → (s.cluster k).state < d → (s.cluster k).stopAt = none → (s.board.reduced = false ∨ k = 0) → s.clusterIdle k (!(s.forced k)) = true →
      (s.forced k = true ∧ d = 3 ∨ s.forced k = false ∧ ((s.cluster k).state = 0 ∨ (s.cluster k).qreq = false) ∧ d = deepestRepaid s.now (earliest s.now (s.clusterStrands k)) (s.cluster k).idles (deepOf (s.cluster k).cltr.toNat)) →
      ∃ s', exec (.clusterIdleEntry k) s = .next s' ∧ s'.mem = s.mem ∧ s'.strands = s.strands ∧ (s'.cluster k).state = d ∧ (s'.cluster k).spilled = (d == 3) ∧
        (2 ≤ d → ∀ j, j < 4 → (s'.core (4 * k + j)).tlb = []) ∧ (d = 3 → ∀ j, j < 4 → (s'.core (4 * k + j)).l1 = [] ∧ (s'.core (4 * k + j)).gl1 = [])) ∧
    (∀ k, (s.cluster k).state ≠ 0 → (s.cluster k).waking = false → s.pkg.c4 = false → s.wakeDue k = true →
      exec (.clusterWake k) s = .next (s.updCluster k fun x => { x with
        waking := true, idles := (match x.idleSince with | some q => (s.now - q) :: x.idles.take 3 | none => x.idles), idleSince := none })) ∧
    (∀ k, (s.cluster k).waking = true → s.pkg.c4 = false → ∃ x, exec (.clusterExitDone k) s =
        .next ((List.range 4).foldl (fun (u : State) j => (u.applyResumes (4 * k + j)).updCore (4 * k + j) (·.admitNotice)) { s with clusters := s.clusters.put k x }) ∧
      x.state = 0 ∧ x.waking = false ∧ x.spilled = false ∧ x.quiesced = false ∧ x.underReq = false ∧
      x.eff = (if s.effOpen k = true ∧ (s.retraining = false ∨ (s.cluster k).eff ≤ max s.pkg.floor (s.cluster k).floor) then max s.pkg.floor (s.cluster k).floor
        else (s.cluster k).eff) ∧ (s.retraining = true → x.level = (s.cluster k).level) ∧
      x.wakes = (if (s.cluster k).underReq then (s.cluster k).wakes + 1 else (s.cluster k).wakes)) ∧
    (s.c4Ready = true →
      (repays s.now (earliest s.now s.strands) s.pkg.idles 4 = true → exec .packageC4Entry s = .next { s with pkg := { s.pkg with c4 := true, predRef := false, c4Since := some s.now } }) ∧
      (repays s.now (earliest s.now s.strands) s.pkg.idles 4 = false → exec .packageC4Entry s = .next { s with pkg := { s.pkg with predRef := true } })) ∧
    (s.pkg.c4 = true → ∃ s', exec .packageC4Exit s = .next s' ∧ s'.pkg.c4 = false) ∧
    (∀ k, k < 8 → (s.cluster k).qreq = false →
      exec (.quiesceDrain k) s = .next (s.updCluster k fun x => { x with qreq := true, mode := 0, quiesced := false }) ∧
      (∃ s', exec (.quiesceEvict k) s = .next s' ∧ (s'.cluster k).qreq = true ∧ (s'.cluster k).mode = 1 ∧ (s'.cluster k).quiesced = false ∧
        ∀ gid g, s.gangs.get? gid = some g → clusterOf g.core = k → g.resident = true → g.save = none →
          (s'.gangs.get? gid).map (·.save) = some (some { by_ := 2, scalarOnly := false, started := false })) ∧
      (∃ s', exec (.quiesceHold k) s = .next s' ∧ (s'.cluster k).qreq = true ∧ (s'.cluster k).mode = 2 ∧ (s'.cluster k).quiesced = false ∧
        ((∀ kv ∈ s.strands, clusterOf (coreOf kv.1) = k → ∀ w, kv.2.win = some w → w.complete = false) →
          ∀ sid t, s'.strands.get? sid = some t → clusterOf (coreOf sid) = k → t.win = none)) ∧
      (∀ (u : State) sid t w e, u.strands.get? sid = some t → t.win = some w → w.exit = some e →
        (u.commitDue sid = false → u.endBlock sid = u.abortBlock sid) ∧
        (u.commitDue sid = true → u.clocked (coreOf sid) = true → u.commits sid t w = true → u.endBlock sid = u.commitBlock sid t w e) ∧
        (u.commitDue sid = true → u.clocked (coreOf sid) = false ∨ u.commits sid t w = false → u.endBlock sid = u))) ∧
    (∀ k, k < 8 → (s.cluster k).qreq = true → (s.cluster k).mode ≠ 0 → ∃ s', exec (.quiesceDrain k) s = .next s' ∧ (s'.cluster k).mode = 0 ∧ (s'.cluster k).quiesced = false) ∧
    (∀ k v, k < 8 → v % 2 = 1 → (s.cluster k).qreq = true → ∃ s', exec (.quiesceRelease k) s = .next s' ∧ exec (.clusterWakeWrite k v) s = .next s' ∧
      (s'.cluster k).qreq = false ∧ (s'.cluster k).quiesced = false ∧ (s'.cluster k).waking = (decide ((s.cluster k).state ≠ 0) || (s.cluster k).waking)) ∧
    (∀ k, k < 8 → (s.cluster k).quiesced = false → s.quiesceDone k = true → ∃ s', exec (.clusterQuiesced k) s = .next s' ∧ (s'.cluster k).quiesced = true ∧
      ((s.cluster k).force = true → (s.cluster k).target ≠ 0 → (s'.cluster k).state = max (s.cluster k).state (s.cluster k).target.toNat)) ∧
    (∀ watts avg limit, s.pkg.mayDraw watts = true → s.pkg.ctlAt < s.now / 65536 → limit = (if s.pkg.capEn then min s.pkg.cap.toNat 1800 else 1800) →
      avg = (let l := ((watts :: s.pkg.watts).take 65535).take s.pkg.window; l.foldl (· + ·) 0 / l.length) →
      ∃ s', exec (.controlInterval watts) s = .next s' ∧ s'.pkg.ctlAt = s.now / 65536 ∧ s'.pkg.avg = BitVec.ofNat 16 avg ∧
        s'.pkg.peak.toNat = max s.pkg.peak.toNat watts ∧
        s'.pkg.capf = (if limit < avg then min 8 (s.pkg.capf + 1) else if avg * 100 < limit * 97 then max 2 (s.pkg.capf - 1) else s.pkg.capf) ∧
        s'.pkg.limf = (if s.pkg.limf = 8 ∧ watts < 1800 then 2 else s.pkg.limf)) ∧
    (∀ watts, 1900 < watts → watts ≤ 1950 → ∃ s', exec (.fastLimiterSample watts) s = .next s' ∧ s'.pkg = { s.pkg with limf := 8, limit := true }) ∧
    (∀ tmax slope, tmax < 256 → slope < 256 → s.pkg.thmAt < s.now / 65536 → ∃ s', exec (.thermalControlInterval tmax slope) s = .next s' ∧ s'.pkg.tmax.toNat = tmax ∧ s'.pkg.slope.toNat = slope ∧
      s'.pkg.thmf = (if s.pkg.warn.toNat ≤ tmax then min 8 (s.pkg.thmf + 1) else if tmax < s.pkg.warn.toNat - 5 then max 2 (s.pkg.thmf - 1) else s.pkg.thmf)) ∧
    (emergLevel ≤ s.pkg.tmax.toNat → s.pkg.emergency = false → ∃ s', exec .thermalEmergency s = .next s' ∧ s'.pkg.emergency = true ∧ s'.pkg.thmf = 8 ∧ s'.pkg.tsaved = true ∧ s'.ao.nsaved = 0 ∧
      ∀ gid g, s.gangs.get? gid = some g → g.resident = true → (∀ o, g.save = some o → o.started = false) →
        ∃ o, (s'.gangs.get? gid).bind (·.save) = some o ∧ o.by_ = 3 ∧ o.started = false) ∧
    (tripLevel ≤ s.pkg.tmax.toNat → ∃ m, exec .hardTrip s = .next { State.reset with
        plan := s.plan, free := s.free, mem := m, ao := { s.ao with trip := true, qtrip := BitVec.ofNat 32 s.now }, out := s.out,
        board := { State.reset.board with railsOn := false } } ∧
      m = s.mem.filter fun c => outsideByte c.1) ∧
    exec .peakClear s = .next { s with pkg := { s.pkg with peak := 0 } } ∧
    exec .aostatLogClear s = .next { s with ao := { s.ao with qtrip := 0, nsaved := 0 } }

/-- The launch dispatcher (R142, R315 to R330). The model's choices here: which work a completion waits for is R271's, with the stores that go on by themselves (log
117); a stop and the kept stream data go with a placed resumption (logs 89 and 46); the victim rule, which looks only at heads and at gangs with no reclaim or save
under way, is log 62; the count granted after a `vrel`, the largest that fits, log 98; what waits for a retraining link, log 108. -/
def Obligations.DispatcherEventsComplete : Prop :=
  ∀ (s : State),
    (∀ q v, q < 64 → v < 2 ^ 32 →
      (2 ^ (s.queue q).qsize.toNat < (BitVec.ofNat 32 v - (s.queue q).qrd).toNat →
        exec (.qwrWrite q v) s = .next ((s.updQueue q fun h => { h with qwr := BitVec.ofNat 32 v, ovr := true, en := false }).dropHead q)) ∧
      ((BitVec.ofNat 32 v - (s.queue q).qrd).toNat ≤ 2 ^ (s.queue q).qsize.toNat →
        exec (.qwrWrite q v) s = .next (s.updQueue q fun h => { h with qwr := BitVec.ofNat 32 v }))) ∧
    (∀ src r, s.dispatching = true → s.disp.heads.has src = false → s.sourceRec src = some r →
      (s.judge r = .good → exec (.dispatcherTakeRecord src) s = .next
        ({ s with seq := s.seq + 1 }.updDisp fun d => { d with heads := d.heads.put src { start := r, since := s.now, id := s.seq } })) ∧
      (∀ code, s.judge r = .skip code → src < 64 → ∃ s', exec (.dispatcherTakeRecord src) s = .next s' ∧ s'.mem = s.mem ∧
        (s'.queue src) = { s.queue src with qrd := (s.queue src).qrd + 1, bad := true, badIdx := (s.queue src).qrd, badCode := BitVec.ofNat 8 code }) ∧
      (∀ code pa, s.judge r = .reject code pa → Memory.wf s.mem = true → placeOf pa = .hbm → s.resv.has (lineOf pa) = false → (∀ k, k < 64 → (s.marks.getD (pa + k) ⟨0, 0⟩).before (s.stampAt pa) 83 = true) →
        ∃ s', exec (.dispatcherTakeRecord src) s = .next s' ∧ ∀ k, k < 64 → Memory.read s'.mem (pa + k) =
          BitVec.ofNat 8 ((3 + code * 2 ^ 8 + r.args.toNat * 2 ^ 64 + s.now % 2 ^ 64 * 2 ^ 192) / 2 ^ (8 * k))) ∧
      (∀ code, s.judge r = .skip code → 64 ≤ src → exec (.dispatcherTakeRecord src) s = .next (s.popSource src)) ∧
      (∀ code pa, s.judge r = .reject code pa → ∃ s', exec (.dispatcherTakeRecord src) s = .next s' ∧
        (src < 64 → s'.queue src = { s.queue src with qrd := (s.queue src).qrd + 1 }) ∧
        (64 ≤ src → (s'.core (src - 64)).spawn = (s.core (src - 64)).spawn.drop 1))) ∧
    (∀ o, s.dispatching = true → s.pickOffer = some o →
      (∀ h, o.cls ≠ 0 → s.disp.heads.get? o.src = some h → h.start.gsize.toNat ≤ (s.freeCtxs o.core).length → NMap.sorted s.disp.heads = true →
        ∃ s' g slabs, exec .dispatchPlace s = .next s' ∧ s'.gangs.get? o.gid = some g ∧ g.core = o.core ∧ g.resident = true ∧ g.asid = h.start.asid ∧
          g.members = ((s.freeCtxs o.core).take h.start.gsize.toNat).map (8 * o.core + ·) ∧ s'.disp.heads.has o.src = false ∧
          (∀ cid sid, g.members[cid]? = some sid → s'.strands.get? sid = some
            (Strand.start h.start.entry h.start.args o.gid cid h.start.asid h.start.ctx.toNat h.start.super h.start.vceil slabs))) ∧
      (∀ r, o.cls = 0 → s.disp.resumes[o.src]? = some r → r.gsize ≤ (s.freeCtxs o.core).length → ∃ s' g slabs, exec .dispatchPlace s = .next s' ∧ s'.mem = s.mem ∧ s'.gangs.get? r.gang = some g ∧
        g.resident = true ∧ g.restore = some (r.area.toNat, r.via) ∧ g.arrived = r.arrived ∧ g.stopped = r.stopped ∧ g.kept = r.kept ∧ s'.disp.resumes = s.disp.resumes.eraseIdx o.src ∧
        g.core = o.core ∧ g.members = ((s.freeCtxs o.core).take r.gsize).map (8 * o.core + ·) ∧
        ∀ cid sid, g.members[cid]? = some sid → s'.strands.get? sid = some { Strand.start 0 0 r.gang cid 0 r.ctx false 0 slabs with run := .held, barWait := r.bars.contains cid })) ∧
    (∀ src h gid g, s.disp.heads.get? src = some h → s.dispatching = true → (src < 64 → s.hostDown = false ∧ (s.queue src).en = true) → h.since + s.disp.pwait.toNat ≤ s.now →
      s.bestCore h.start.gsize.toNat h.start.slabMin.toNat h.start.affinity = none → s.freeGang.isSome = true →
      (∀ kv ∈ s.gangs, kv.2.reclaim = none ∧ kv.2.save = none) → s.victim h.id h.start.prio.toNat h.start.affinity = some (gid, g) → s.gangs.get? gid = some g →
      (s.disp.rcltmo = 0 → s.resumeRoom = true →
        exec (.preemptWaitExpiry src) s = .next (s.updGang gid fun g => { g with save := some { by_ := 1, scalarOnly := false, started := false }, forHead := some h.id })) ∧
      (∀ x, s.disp.rcltmo ≠ 0 → s.reclaimTo g h.start.gsize.toNat h.start.slabMin.toNat = some x → ∃ s', exec (.preemptWaitExpiry src) s = .next s' ∧
        s'.gangs.get? gid = some { g with reclaim := some (x, s.now), forHead := some h.id } ∧
        ∀ sid t, sid ∈ g.members → s.strands.get? sid = some t → t.grant ≠ 0 → s'.strands.get? sid = some { t with posted := some x })) ∧
    (∀ gid g x since, s.gangs.get? gid = some g → g.reclaim = some (x, since) → since + s.disp.rcltmo.toNat ≤ s.now → g.save = none → s.pkg.emergency = false → s.resumeRoom = true →
      ∃ s', exec (.reclaimTimeout gid) s = .next s' ∧
        s'.gangs.get? gid = some { g with reclaim := none, save := some { by_ := 1, scalarOnly := false, started := false } } ∧
        ∀ sid t, sid ∈ g.members → s'.strands.get? sid = some t → t.posted = none) ∧
    (∀ gid g sid t x, s.gangs.get? gid = some g → g.members = [sid] → g.resident = true → g.reclaim = none → g.save = none → s.strands.get? sid = some t →
      t.grant = 0 → t.wantsGrant = true → s.grantFor g.core 1 g.slabMin g.slabPref = x → x ≠ 0 → x ≤ s.freeSlabs g.core → dieOk (s.grants g.core ++ [x]) = true →
      ∃ s' t', exec (.laneGrant gid) s = .next s' ∧ s'.mem = s.mem ∧ s'.strands.get? sid = some t' ∧ t'.grant = x ∧ t'.g = t.g ∧ t'.win = t.win) ∧
    (∀ (e : Sedge) (t : Strand), (∀ i ∈ t.items, i.awaited e = false) ↔ ∀ i ∈ t.items, (∃ k sn, i.kind = .fence k sn) ∨ ∃ segs o r c, i.kind = .store segs o r c ∧
      ∀ x ∈ segs, e.meet.toNat < 2 ∧ ∀ b ∈ x.bytes, placeOf b.1 = .host) ∧
    (∀ gid g pa, s.gangs.get? gid = some g → g.resident = true → g.save = none → g.restore = none → g.stopped = none → g.donePa = some pa → placeOf pa = .hbm → s.resv.has (lineOf pa) = false →
      (∀ sid t, sid ∈ g.members → s.strands.get? sid = some t → t.run = .halted ∧ t.mq = [] ∧ t.fenced = false ∧ ∀ i ∈ t.items, i.awaited (s.doneEntry g) = false) →
      (∀ kv ∈ (s.core g.core).streams, kv.2.gang = some gid → kv.2.state ≠ 2) → s.linkOpen [pa] = true → s.homeFree pa = true →
      (∀ k, k < 64 → (s.marks.getD (pa + k) ⟨0, 0⟩).before (s.stampAt pa) g.core = true) → NMap.sorted s.gangs = true → Memory.wf s.mem = true →
      ∃ s', exec (.gangComplete gid) s = .next s' ∧ s'.gangs.get? gid = none ∧ (∀ sid ∈ g.members, s'.strands.get? sid = none) ∧
        ∀ k, k < 64 → Memory.read s'.mem (pa + k) = BitVec.ofNat 8
          (((if g.killed then 2 else 1) + gid * 2 ^ 16 + g.core * 2 ^ 24 + g.args.toNat * 2 ^ 64 + g.qstart.getD 0 % 2 ^ 64 * 2 ^ 128 + s.now % 2 ^ 64 * 2 ^ 192) / 2 ^ (8 * k)))

/-- The context-save engine (R80, R308 to R313, R328, R345): where it begins a save, refuses it, completes it, breaks it, and restores a gang. The model's choices
here: saving under one grant (`evenGrants`) is log 86, a stop that survives a restore and a refused emergency save log 89, what the dispatcher keeps beside the area
logs 46 and 111, the streams of a stopped gang log 113, the lines that a restore drops log 51. -/
def Obligations.ContextSwitchesComplete : Prop :=
  ∀ (s : State) (gid : Nat) (g : Gang), s.gangs.get? gid = some g → g.resident = true →
    (∀ op op' g' x u, g.save = some op → s.contexts.get? g.ctx = some x → op' = { op with scalarOnly := op.scalarOnly || (s.pkg.emergency && s.saveLate) } →
      u = s.hurrySaves → g' = { g with save := some op' } →
      u.gangs.get? gid = some g' ∧ u.mem = s.mem ∧ u.strands = s.strands ∧ u.cores = s.cores ∧
      (op.started = false → g.restore = none → (op.by_ = 0 ∨ s.listRoom = true) → (s.cluster (clusterOf g.core)).state = 0 →
      (op.by_ = 3 → s.saveFlies (clusterOf g.core) = false) → (∀ sid ∈ g.members, s.commitDue sid = false) →
      (x.broken = false → s.saveSize gid g' op'.scalarOnly ≤ x.sasize.toNat → ∃ s', exec (.contextSaveStart gid) s = .next s' ∧ s' = u.startSave gid g' op' ∧ s'.mem = s.mem ∧
        (s'.gangs.get? gid).map (fun g => (g.save, g.reclaim)) = some (some { op' with started := true }, none) ∧
        (op.by_ = 3 ∨ s.pkg.emergency = true → s'.ao.esave = true) ∧
        ∀ sid t, sid ∈ g.members → s'.strands.get? sid = some t → t.win = none ∧ t.fetched = none ∧ t.posted = none) ∧
      (x.broken = true ∨ x.sasize.toNat < s.saveSize gid g' op'.scalarOnly → ∃ s', exec (.contextSaveStart gid) s = .next s' ∧
        s' = u.refuseSave gid g' op' (s.saveSize gid g' op'.scalarOnly) ∧ s'.mem = s.mem ∧ (s'.gangs.get? gid).map (·.save) = some none ∧
        (g.killed = false → (s.core g.core).queueFull = false → ∃ r, (s'.core g.core).queue = (s.core g.core).queue ++ [r] ∧ r.kind = 0x31 ∧
          r.info = BitVec.ofNat 64 gid ∧ r.info2 = BitVec.ofNat 64 (s.saveSize gid g' op'.scalarOnly)) ∧
        (g.killed = false → op.by_ = 3 ∨ s.pkg.emergency = true → s'.ao.refused = true) ∧
        (g.killed = false → op.by_ = 3 → ∀ sid t, s'.strands.get? sid = some t → t.gang = gid → t.stopped = true)))) ∧
    (∀ op x, g.save = some op → op.started = true → s.contexts.get? g.ctx = some x →
      (∀ sid t, sid ∈ g.members → s.strands.get? sid = some t → t.pend = [] ∧ t.busy = false ∧ t.win = none ∧ t.tlbWait = none) → s.linkWait (fun l => l < 8) = false →
      (g.killed = true → ∀ pa, g.donePa = some pa → s.doneOpen g.core pa = true) → (g.stopped.isSome = true ∨ ∀ kv ∈ (s.core g.core).streams, kv.2.gang = some gid → kv.2.state = 2 → kv.2.written = [] ∧ kv.2.draining = false) →
      (∀ u, (s.evenGrants g).saveArea gid g op.scalarOnly = (.done, u) → NMap.sorted s.gangs = true →
        ∃ s', exec (.contextSaveComplete gid) s = .next s' ∧ (∀ sid ∈ g.members, s'.strands.get? sid = none) ∧
        (g.killed = true ∨ op.by_ = 0 → s'.gangs.get? gid = none) ∧
        (g.killed = false → s.pkg.emergency = true ∨ op.by_ = 3 → s'.ao.nsaved = s.ao.nsaved + 1) ∧
        (g.killed = false → op.by_ = 0 → ∃ e ∈ s'.disp.saved, e.gang = gid ∧ e.ctx = g.ctx ∧ e.area = x.sabase ∧ e.args = g.args ∧ e.qstart = g.qstart) ∧
        (g.killed = false → op.by_ ≠ 0 → (s'.gangs.get? gid).map (·.resident) = some false ∧
          ∃ e, s'.disp.resumes = s.disp.resumes ++ [e] ∧ e.gang = gid ∧ e.idKept = true ∧ e.area = x.sabase ∧ e.args = g.args ∧ e.qstart = g.qstart) ∧
        (op.scalarOnly = true → g.killed = false → s'.ao.vlost = true)) ∧
      (∀ pa u, (s.evenGrants g).saveArea gid g op.scalarOnly = (.failed pa, u) → ∃ s', exec (.saveBroken gid) s = .next s' ∧
        (s'.gangs.get? gid).map (·.save) = some none ∧ (s'.contexts.get? g.ctx).map (·.broken) = some true ∧
        (g.killed = false → (s'.gangs.get? gid).map (·.stopped) = some (some (stopCode g.stopped 3)) ∧
          ((u.core g.core).fatal = none → ∃ r, (s'.core g.core).fatal = some r ∧ r.kind = 0x40 ∧ r.sub = 3 ∧ r.gang = BitVec.ofNat 8 gid ∧ r.info = BitVec.ofNat 64 gid ∧
            r.info2 = BitVec.ofNat 64 pa) ∧
          (∀ r, (u.core g.core).fatal = some r → (s'.core g.core).fatal = some { r with fovf := true }) ∧
          ∀ sid t, sid ∈ g.members → s.strands.get? sid = some t → t.run ≠ .halted → (s'.strands.get? sid).map (fun t => (t.grant, t.pc, t.run)) = some (t.grant, t.pc, t.run)) ∧
        (g.killed = true → (s'.gangs.get? gid).map (·.killed) = some true))) ∧
    (∀ area via h n slabs len, g.restore = some (area, via) → g.members.length = n → s.areaNat (Memory.dword s.mem via).toNat area 32 = some h →
      getBits h 76 6 = slabs → (∀ k, k < 8 → h.testBit (88 + k) = true → h.testBit 1 = false → ((s.core g.core).tile k).gang = none) →
      (∀ k, k < 8 → h.testBit (96 + k) = true → ((s.core g.core).stream k).gang = none) → (h.testBit 104 = true → h.testBit 1 = false → (s.core g.core).accWin = none) →
      (s.core g.core).queue.length + s.savedParked (Memory.dword s.mem via).toNat area n ≤ 32 → (s.cluster (clusterOf g.core)).state = 0 → s.linkWait (fun l => l < 8) = false →
      len = 256 + 2048 * n + (if h.testBit 1 then 0 else n * (104 * vlenb slabs) + 8 * 524288 + 8 * 262400 + 64 * roundUp256 (winLen (BitVec.ofNat 64 (getBits h 384 64)))) →
      (Memory.dword s.mem via).toNat < 2 ^ 47 → area + len ≤ 2 ^ 64 → (∀ k, 8 * k < len → (s.areaNat (Memory.dword s.mem via).toNat (area + 8 * k) 1).isSome = true) →
      ∃ s' g', exec (.contextRestore gid) s = .next s' ∧ s'.gangs.get? gid = some g' ∧ g'.restore = none ∧ g'.resident = true ∧
        g'.asid = BitVec.ofNat 16 (getBits h 112 16) ∧ g'.super = h.testBit 108 ∧ g'.done = BitVec.ofNat 64 (getBits h 256 64) ∧ g'.doneScope = getBits h 320 4 ∧
        (∀ k, k < 8 → h.testBit (96 + k) = true → ((s'.core g.core).stream k).gang = some gid) ∧
        (h.testBit 1 = false → ∀ k, k < 8 → h.testBit (88 + k) = true → ((s'.core g.core).tile k).gang = some gid) ∧
        (h.testBit 1 = false → h.testBit 104 = true → ((s'.core g.core).accWin.map fun x => (x.gang, x.base, x.desc)) =
          some (gid, BitVec.ofNat 64 (getBits h 448 64), BitVec.ofNat 64 (getBits h 384 64)))) ∧
    (∀ area via sid old h b y slabs, g.restore = some (area, via) → g.members = [sid] → s.strands.get? sid = some old → old.run ≠ .halted →
      s.areaNat (Memory.dword s.mem via).toNat area 32 = some h → getBits h 0 8 = 1 → getBits h 88 16 = 0 → h.testBit 104 = false → getBits h 76 6 = slabs →
      (s.core g.core).owner = some (BitVec.ofNat 16 (getBits h 112 16)) → (s.core g.core).queue = [] → (s.cluster (clusterOf g.core)).state = 0 → s.linkWait (fun l => l < 8) = false →
      s.areaNat (Memory.dword s.mem via).toNat (area + 256) 256 = some b → b.testBit 65 = false → b.testBit 66 = false →
      s.areaNat (Memory.dword s.mem via).toNat (area + 256 + 2048) (13 * vlenb slabs) = some y →
      ∃ s' t', exec (.contextRestore gid) s = .next s' ∧ s'.mem = s.mem ∧ (s'.gangs.get? gid).map (·.restore) = some none ∧ s'.strands.get? sid = some t' ∧
        t'.run = .active ∧ t'.stopped = g.stopped.isSome ∧ t'.pc = BitVec.ofNat 64 b ∧ t'.sup = b.testBit 64 ∧ t'.cid = 0 ∧ t'.gang = gid ∧
        (∀ r : BitVec 6, t'.reg r = BitVec.ofNat 64 (getBits b (8 * 0x40 + 64 * r.toNat) 64)) ∧
        (t'.grant = slabs → ∀ r, r < 32 → t'.v.getD r 0 = getBits y (8 * vlenb slabs * r) (8 * vlenb slabs)))

/-- Channels, die links, bring-up and the reference clock (R283, R349 to R354, R365, R366). The model's choices here: FAILINFO = 2 after a failed verification is log
69, memory that reads 0 after a reset log 4, what a reset keeps log 35, lane repair by a link number of 16 or more log 114. -/
def Obligations.BoardEventsComplete : Prop :=
  ∀ (s : State),
    (∀ d, d < 8 → exec (.hbmCorrectedError d) s = .next (s.updDie d fun x => { x with cecnt := if x.cecnt = BitVec.allOnes _ then x.cecnt else x.cecnt + 1 })) ∧
    (∀ pa, pa < hbmTop → ∃ s', exec (.hbmUncorrectableError (homeDie pa) pa) s = .next s' ∧ s'.mem = s.mem ∧ s'.poisoned pa = true ∧
      (∀ c, (s'.core c).l1.has (pa / 64) = false ∧ ∀ gl ∈ (s'.core c).gl1, ∀ b ∈ gl.bytes, lineOf b.1 ≠ pa / 64)) ∧
    (∀ d, d < 8 → exec (.patrolScrub d) s = .next s) ∧
    (∀ d c, d < 8 → c < 32 → (s.die d).lend = true → (s.die d).lent = 0 → (s.die d).handshake = [] → (s.die d).chanIdle s.now c = true →
      (s.die d).chanIdle s.now (c ^^^ 1) = false → exec (.channelIdleLend d c) s = .next (s.updDie d fun x => { x with handshake := [(c, 1)] })) ∧
    (∀ d c k, c < 32 → (s.die d).handshake = [(c, k)] → ∃ x, exec (.lendHandshakeDone d c) s = .next { s with dies := s.dies.put d x } ∧ x.handshake = [] ∧
      ∀ j, j < 32 → x.lent.getLsbD j = if j = c then (decide (k = 1) && (s.die d).chanIdle s.now c && !(s.die d).chanIdle s.now (c ^^^ 1) && !s.asks d c) else (s.die d).lent.getLsbD j) ∧
    (∀ d c, (s.die d).lent.getLsbD c = true → (s.die d).handshake.has c = false →
      (s.die d).chanIdle s.now c = false ∨ (s.die d).chanIdle s.now (c ^^^ 1) = true ∨ s.asks d c = true ∨ (∀ k, k < 8 → (s.cluster k).state = 3) →
      exec (.lendReverse d c) s = .next (s.updDie d fun x => { x with handshake := x.handshake.put c 2 })) ∧
    (∀ d, d < 8 → ∃ s', exec (.lendDisable d) s = .next s' ∧ (s'.die d).lend = false ∧ (s'.die d).lent = (s.die d).lent ∧
      ∀ c, c < 32 → (s.die d).lent.getLsbD c = true → (s'.die d).handshake.get? c = some 2) ∧
    (∀ d c pa, pa < hbmTop → homeDie pa = d → homeChan pa = c → (s.die d).cached (lineOf pa) = false → (s.die d).lent.getLsbD c = true ∨ (s.die d).handshake.has c = true →
      s.chanOpen pa = false) ∧
    (∀ l, l < 16 → (s.link l).lost = false → (s.link l).retraining = false →
      ((s.link l).mods ≠ 1 → exec (.dieLinkLaneError l) s =
        .next ((((s.updLink l fun k => { k with mods := k.mods >>> 1, repaired := true, retraining := true }).undoRelocks).notify 6).settleFloors) ∧
        ∀ k, k < 8 → (s.undoRelocks.cluster k).stopAt = if (s.cluster k).stopAt = some s.now then none else (s.cluster k).stopAt) ∧
      ((s.link l).mods = 1 → NMap.sorted s.gangs = true → ∃ s', exec (.dieLinkLaneError l) s = .next s' ∧ (s'.link l).lost = true ∧
        ∀ gid g, s.gangs.get? gid = some g → g.resident = true → (s'.gangs.get? gid).map (·.stopped) = some (some 2)) ∧
      exec (.dieLinkLaneError (16 + l)) s = .next (s.updLink l fun k => { k with repaired := true })) ∧
    (∀ l, (s.link l).retraining = true → ∃ s', exec (.linkRetrainDone l) s = .next s' ∧ (s'.link l).retraining = false ∧ (s'.link l).mods = (s.link l).mods ∧ s'.mem = s.mem) ∧
    (Memory.wf s.mem = true → ∃ m r, r = { State.reset with plan := s.plan, free := s.free, mem := m, ao := s.ao, out := s.out } ∧ Memory.wf m = true ∧
      exec .packageReset s = .next (if s.ao.trip = true then r.notify 2 else r) ∧ exec .hotReset s = .next (if s.ao.trip = true then r.notify 2 else r) ∧
      ∀ a, (placeOf a = .host ∨ placeOf a = .fabric → Memory.read m a = Memory.read s.mem a) ∧ (placeOf a = .hbm ∨ placeOf a = .scratch → Memory.read m a = 0)) ∧
    (s.board.phase = 2 →
      exec (.firmwareVerifyDone 1) s = .next (s.updBoard fun b => { b with phase := 3 }) ∧
      exec (.firmwareVerifyDone 0) s = .next (s.updBoard fun b => { b with phase := 0xE, failInfo := 2, romOnly := true })) ∧
    (∀ l, s.board.phase = 3 →
      (l < 16 → exec (.dieLinksTrained l) s = .next (s.updBoard fun b => { b with phase := 0xE, failInfo := BitVec.ofNat 8 l })) ∧
      (16 ≤ l → exec (.dieLinksTrained l) s = .next (s.updBoard fun b => { b with phase := 4 }))) ∧
    (s.board.phase = 4 → ∃ s', exec .hostPortTrained s = .next s' ∧ s'.board = { s.board with phase := 5, reduced := true } ∧ (s'.cluster 0).floor = 8 ∧ (s'.cluster 0).eff = max 8 s.pkg.floor ∧ (∀ c, 4 ≤ c → s'.clocked c = false) ∧
      ∀ p, p < 18 → (s.port p).en = true → (s.port p).state = 0 → (s'.port p).state = 1) ∧
    (∀ d, s.board.phase = 5 →
      (d < 8 → exec (.hbmTrained d) s = .next (s.updBoard fun b => { b with phase := 0xF, failInfo := BitVec.ofNat 8 d })) ∧
      (8 ≤ d → ∃ s', exec (.hbmTrained d) s = .next s' ∧ s'.board.phase = 6 ∧ s'.board.reduced = false ∧ (s'.cluster 0).floor = 2 ∧ s'.mem = s.mem ∧
        ∀ k, k < 8 → (s'.die k).trained = true)) ∧
    (s.board.refClock = true → exec .referenceClockLoss s = .next ((s.updBoard fun b => { b with refClock := false }).notify 0)) ∧
    (s.board.refClock = false → exec .referenceClockReturn s = .next (s.updBoard fun b => { b with refClock := true })) ∧
    exec .marginWarning s = .next (s.notify 1) ∧
    (∀ b, b < 8 → (s.notify b).board.notif = s.board.notif ||| BitVec.ofNat 8 (2 ^ b) ∧ (s.notify b).out.events = b :: s.out.events)

/-- The host port, the ports, the fabric, management and registers (R245, R355 to R364, R368). The model's choices here: undefined values are log 3, the parameters
of the CRC log 36 (outside the spec), the refusal mark 2^512 log 38, byte-wise register writes log 44, the MSI-X table log 80, reads by the host log 93, what waits
for a retraining link log 108. -/
def Obligations.OutsideEventsComplete : Prop :=
  ∀ (s : State),
    (∀ pa v, Memory.wf s.mem = true → pa < hbmTop → s.hostOpen = true → s.linkOpen [pa] = true → s.board.reduced = false → s.resv = [] → s.poisoned pa = false →
      (s.marks.getD pa ⟨0, 0⟩).before (s.stampAt pa) 64 = true → s.homeFree pa = true → ∃ s', exec (.hostPostedWrite pa 1 v) s = .next s' ∧
        Memory.read s'.mem pa = BitVec.ofNat 8 v ∧ ∀ a, a ≠ pa → Memory.read s'.mem a = Memory.read s.mem a) ∧
    (∀ op pa v cmp x, op < 3 → pa % 8 = 0 → pa < hbmTop → s.hostOpen = true → s.linkOpen [pa] = true → s.board.reduced = false → s.resv = [] → s.poisoned pa = false → s.lastNow 64 (bytesOf pa 8 0) = true →
      (if op = 0 then some ((s.homeLe pa 8 + v) % 2 ^ 64) else if op = 1 then some (v % 2 ^ 64)
        else if s.homeLe pa 8 % 2 ^ 64 = cmp % 2 ^ 64 then some (v % 2 ^ 64) else none) = x →
      exec (.hostAtomicop op 8 pa v cmp) s = .next (let u := match x with | some y => (s.l2Work pa 4).performBytes 64 none (bytesOf pa 8 y) | none => s.l2Work pa 4
        { u with out := { u.out with replies := s.homeLe pa 8 :: u.out.replies } })) ∧
    (s.out.linkUp = true → ∃ s', exec .hostLinkDown s = .next s' ∧ s'.out.linkUp = false ∧ s'.hostDown = true ∧ s'.mem = s.mem ∧ s'.strands = s.strands) ∧
    (s.out.linkUp = false → exec .hostLinkUp s = .next { s with free := s.free + 1, out := { s.out with linkUp := true, atomicEn := freeValue s.free % 2 == 1 } }) ∧
    (∃ s', exec .hostdnClear s = .next s' ∧ s'.hostDown = false ∧ ∀ k, k ≠ 3 → s'.board.notif.getLsbD k = s.board.notif.getLsbD k) ∧
    (∀ p f, p < 18 → (s.port p).up = true → f < 2 ^ 2048 →
      (crc32c f 252 ≠ f / 2 ^ 2016 → exec (.flitReceive p f) s = .next (s.updPort p fun x => { x with naks := (x.expect + 4095) % 4096 :: x.naks })) ∧
      (crc32c f 252 = f / 2 ^ 2016 → (s.port p).unacked = [] → f % 4096 = (s.port p).expect →
        exec (.flitReceive p f) s = .next (s.updPort p fun x => { x with expect := (f % 4096 + 1) % 4096, received := f :: x.received }))) ∧
    (∀ p good u, p < 18 → (s.port p).up = true → (s.port p).unacked = [u] → u.1 ≠ good → u.2 < 63 → ∃ x,
      exec (.flitNakReplay p good) s = .next { s with ports := s.ports.put p x } ∧ x.unacked = [(u.1, u.2 + 1)] ∧
      x.replays.toNat = min (2 ^ 32 - 1) ((s.port p).replays.toNat + 1)) ∧
    (∀ p, (s.port p).up = true → (s.port p).unacked ≠ [] → (s.port p).sentAt + 8192 ≤ s.now →
      ((∀ u ∈ (s.port p).unacked, u.2 < 63) → ∃ x, exec (.flitReplayTimeout p) s = .next { s with ports := s.ports.put p x } ∧ x.sentAt = s.now ∧
        x.unacked = (s.port p).unacked.map fun u => (u.1, u.2 + 1)) ∧
      ((∃ u ∈ (s.port p).unacked, 63 ≤ u.2) → exec (.flitReplayTimeout p) s = .next (s.losePort p))) ∧
    (∀ p lane, p < 18 → lane < 9 → (s.port p).up = true →
      ((s.port p).state = 2 → exec (.laneErrorInterval p lane) s =
        .next (s.updPort p fun x => { x with state := 1, pending := 3, retraining := true, since := s.now, badLane := BitVec.ofNat 4 lane })) ∧
      ((s.port p).state = 3 → exec (.laneErrorInterval p lane) s = .next (s.updPort p fun x => { x with state := 1, pending := 4, retraining := true, since := s.now })) ∧
      ((s.port p).state = 4 → exec (.laneErrorInterval p lane) s = .next (s.losePort p))) ∧
    (∀ p, (s.port p).retraining = true → (s.port p).pending ≠ 2 →
      exec (.portRetrainDone p) s = .next (s.updPort p fun x => { x with state := x.pending, pending := 0, retraining := false })) ∧
    (∀ p, (s.port p).retraining = true →
      ((s.port p).since + 800000000 ≤ s.now → exec (.portTrainingTimeout p) s = .next (s.losePort p)) ∧
      (s.now < (s.port p).since + 800000000 → exec (.portTrainingTimeout p) s = .next s)) ∧
    (∀ p, p < 18 → exec (.portDisable p) s = .next ((s.updPort p fun x => { x with en := false }).losePort p)) ∧
    (∀ p, p < 18 → (s.port p).state ≠ 5 → ((s.losePort p).port p).state = 5 ∧ (s.losePort p).board.notif = s.board.notif ||| 16 ∧
      ∀ d m, (s.losePort p).board.route.get? d = some m → m.getLsbD p = false) ∧
    (∀ p c k st t e, (s.port p).state ≠ 5 → (s.core c).streams.get? k = some st → st.state = 2 → st.snap.fabric = true → st.failKind = 0 →
      s.strands.get? st.issuer = some t → s.portElem c st t p = some e →
      ((s.losePort p).core c).streams.get? k = some { st with failKind := 0x11, failAt := e }) ∧
    (∀ p kind n o v, p < 18 → (s.port p).up = true → s.board.phase = 6 → s.pkg.c4 = false → s.linkOpen [s.board.fxbase.toNat + o] = true → 2 ≤ kind → kind < 17 → n = (if 14 ≤ kind then 4 else 8) → o % n = 0 →
      o < s.board.fxsize.toNat → s.board.fxbase.toNat + o + n ≤ hbmTop → s.poisoned (s.board.fxbase.toNat + o) = false → s.resv = [] →
      s.lastNow (65 + p) (bytesOf (s.board.fxbase.toNat + o) n 0) = true →
      exec (.fabricAccessArrival p kind n o v) s =
        .next (let u := ((s.l2Work (s.board.fxbase.toNat + o) 4).rmw (65 + p) none (s.board.fxbase.toNat + o) n (kind - 2) (v % 2 ^ 64) (v / 2 ^ 64)).2
          { u with out := { u.out with replies := s.homeLe (s.board.fxbase.toNat + o) n :: u.out.replies } })) ∧
    (∀ pa, pa < hbmTop → s.hostRead pa = if s.board.reduced = true ∧ 2 ^ 30 ≤ pa then 0xFF else s.homeByte pa) ∧
    (∀ k v, k < 0x1000 → v < 2 ^ 64 → exec (.registerWrite (devBase + 0x2000000 + 8 * k) 8 v) s =
      .next (s.updBoard fun b => { b with msixTable := b.msixTable.put k (BitVec.ofNat 64 v) })) ∧
    (∀ p o v, p < 18 → (s.port p).up = true → s.board.phase = 6 → s.pkg.c4 = false → s.linkOpen [s.board.fxbase.toNat + o] = true →
      (o % 64 ≤ 56 → o < s.board.fxsize.toNat → s.board.fxbase.toNat + o + 8 ≤ hbmTop → s.poisoned (s.board.fxbase.toNat + o) = false →
        exec (.fabricAccessArrival p 0 8 o v) s = .next { s with out := { s.out with replies := s.homeLe (s.board.fxbase.toNat + o) 8 :: s.out.replies } }) ∧
      (o % 64 ≤ 56 → o < s.board.fxsize.toNat → s.board.fxbase.toNat + o + 8 ≤ hbmTop → s.arriveOpen (65 + p) (bytesOf (s.board.fxbase.toNat + o) 8 v) = true →
        exec (.fabricAccessArrival p 1 8 o v) s = .next (s.arrive (65 + p) (bytesOf (s.board.fxbase.toNat + o) 8 v))) ∧
      (o % 64 ≤ 56 → s.board.fxsize.toNat ≤ o →
        exec (.fabricAccessArrival p 0 8 o v) s = .next { s with out := { s.out with replies := 2 ^ 512 :: s.out.replies } })) ∧
    (∀ m, s.board.romOnly = false → exec (.mctpMessage m) s =
      .next { s with free := s.free + 1, out := { s.out with replies := freeValue s.free % 2 ^ 64 :: s.out.replies } }) ∧
    (s.board.romOnly = true → exec (.mctpMessage 1) s = .next (s.updBoard fun b => { b with phase := 2, failInfo := 0, romOnly := false })) ∧
    (∀ v, v < 2 ^ 64 → exec (.registerWrite (devBase + 0x200000) 8 v) s = .next { s with trtbase := BitVec.ofNat 64 v }) ∧
    (∀ k v, k < 8 → v < 256 → ∃ x : Dword, exec (.registerWrite (devBase + 0x200000 + k) 1 v) s = .next { s with trtbase := x } ∧
      ∀ j, j < 64 → x.getLsbD j = if j / 8 = k then v.testBit (j % 8) else s.trtbase.getLsbD j) ∧
    (∀ v, exec (.registerWrite (devBase + 0x600000) 8 v) s = .next s)

/-- Words of the spec's tables (R26 to R37). -/
def Obligations.DecodeWords : Prop :=
  decodeTableWord 32 0x0590006C = some (.aadd ⟨.always, 0, 2, .reg 11⟩) ∧
  decodeTableWord 32 0xCB656440 = some (.and ⟨.always, .third 21, .third 22⟩) ∧
  decodeTableWord 32 0x42981C4C = some (.andi ⟨.always, 0x607, .left 5⟩) ∧
  decodeTableWord 32 0x42808CC0 = some (.cpsAvail ⟨.always, 2, .left 5⟩) ∧
  decodeTableWord 32 0x3F824078 = some (.ctlRd ⟨.always, .reg 9, .none⟩) ∧
  decodeTableWord 32 0x00000A24 = some (.halt ⟨.onNonzero, 0⟩) ∧
  decodeTableWord 32 0x03889864 = some (.ldd ⟨.always, 2, 1, .reg 7⟩) ∧
  decodeTableWord 32 0x20412080 = some (.vadd ⟨1, 0, 2, 1, 4⟩) ∧
  decodeTableWord 32 0x000537B0 = some (.vldcs ⟨0, 0, 0, 5, 6⟩) ∧
  decodeTableWord 32 0x2C2231B8 = some (.vsc ⟨1, 3, 1, 2, 6⟩) ∧
  decodeTableWord 16 0x8621 = some (.cZero ⟨.right 12⟩) ∧
  decodeTableWord 64 0x0040087F10000316 = some (.mld ⟨0, 2, 0, 0, 0, 0, 3, 0x20, 0, 4, .none⟩) ∧
  decodeTableWord 32 0x00000003 = none ∧ decodeTableWord 32 0x000003FC = none

/-- Decoding inverts encoding (R26 to R37). -/
def Obligations.DecodeEncode : Prop :=
  ∀ (i : Instr) (rest : List Byte), i.wf = true → isEvent i = false →
    ∃ n w, encode i = some (n, w) ∧ w < 2 ^ n ∧ lengthOf w = some n ∧ decodeWord w = .ok i ∧ decode (encodeBytes i ++ rest) = .ok (i, rest)

/-- One step (R26, R69, R345). The plan of what happens next is the model's choice (log 1), and so are the time that work holds back (log 15), the default schedule (log
2) and the fault `railsOff` after a hard trip (log 34). -/
def Obligations.StepRunsTheInstruction : Prop :=
  ∀ (s : State) (rest : List Activity),
    (∀ sid idx t w x, s.plan = .fire sid idx :: rest → s.board.railsOn = true → s.strands.get? sid = some t → t.win = some w → w.blk.body[idx]? = some x →
      (∀ i, decodeWord x = .ok i → step s = exec i { s with plan := rest, cursor := ⟨sid, idx⟩ }) ∧
      (∀ e, decodeWord x = .error e → step s = .refused .noInstruction)) ∧
    (∀ i, s.plan = .event i :: rest → isEvent i = true → s.board.railsOn = true ∨ i = .packageReset → step s = exec i { s with plan := rest }) ∧
    (∀ q, s.plan = .tick q :: rest → s.board.railsOn = true → step s =
      .next (if State.pressing { s with plan := rest } then { s with plan := rest } else State.tick { s with plan := rest } q)) ∧
    (s.plan = [] → step s = perform s.schedule s) ∧
    (∀ a, s.plan = a :: rest → a ≠ .event .packageReset → s.board.railsOn = false → step s = .fault .railsOff)

/-- The state after reset (R302, R315, R338, R342, R364, R365). That every byte of memory reads 0 is the model's choice (log 4), no value that the spec gives. -/
def Obligations.ResetState : Prop :=
  Memory.wf State.reset.mem = true ∧ State.reset.strands = [] ∧ State.reset.gangs = [] ∧ State.reset.contexts = [] ∧ (∀ a, Memory.read State.reset.mem a = 0) ∧
    State.reset.now = 0 ∧ State.reset.board.phase = 1 ∧ State.reset.board.notif = 0 ∧ State.reset.board.devnum = 0 ∧ State.reset.board.fxbase = 0 ∧
    State.reset.board.fxsize = 0 ∧ State.reset.trtbase = 0 ∧
    (∀ c, (State.reset.core c).queue = [] ∧ (State.reset.core c).fatal = none ∧ (State.reset.core c).seq = 0 ∧ (State.reset.core c).resumePc = 0) ∧
    (State.reset.pkg.cap = 1800 ∧ State.reset.pkg.capEn = false ∧ State.reset.pkg.win = 122 ∧ State.reset.pkg.peak = 0 ∧ State.reset.pkg.avg = 0 ∧
      State.reset.pkg.floor = 2 ∧ State.reset.pkg.warn = 95 ∧ State.reset.pkg.pltr = 0 ∧ State.reset.pkg.tsaved = false ∧ State.reset.pkg.limit = false ∧ State.reset.pkg.unmet = false) ∧
    (∀ k, (State.reset.cluster k).cltr = 0 ∧ (State.reset.cluster k).qreq = false ∧ (State.reset.cluster k).eff = 2 ∧ (State.reset.cluster k).wakes = 0) ∧
    (∀ q, (State.reset.queue q).en = false ∧ (State.reset.queue q).qwr = 0 ∧ (State.reset.queue q).qrd = 0) ∧
    (∀ r, (State.reset.ring r).en = false ∧ (State.reset.ring r).rhead = 0 ∧ (State.reset.ring r).rtail = 0) ∧
    (∀ d, (State.reset.die d).lend = true ∧ (State.reset.die d).lent = 0 ∧ (State.reset.die d).cecnt = 0 ∧ (State.reset.die d).uecnt = 0) ∧
    (∀ p, (State.reset.port p).en = true ∧ (State.reset.port p).state = 0 ∧ (State.reset.port p).badLane = 15)

/-- The canonical form of memory is an invariant of every step. -/
def Obligations.StepKeepsMemoryForm : Prop :=
  ∀ s s' : State, Memory.wf s.mem = true → step s = .next s' → Memory.wf s'.mem = true

/-- An instruction changes nothing that is committed (R66, R72, R73, R77). The lines that a record read drops from the L1 are log 51. -/
def Obligations.NothingCommitsBeforeTheBlock : Prop :=
  ∀ (i : Instr) (s s' : State), isEvent i = false → exec i s = .next s' →
    s'.mem = s.mem ∧ s'.marks = s.marks ∧ s'.now = s.now ∧ s'.gangs = s.gangs ∧ s'.held = s.held ∧ s'.resv = s.resv ∧ s'.links = s.links ∧ s'.ports = s.ports ∧
    s'.clusters = s.clusters ∧ s'.pkg = s.pkg ∧ s'.ao = s.ao ∧ s'.trtbase = s.trtbase ∧ s'.rings = s.rings ∧ s'.disp = s.disp ∧ s'.invals = s.invals ∧
    s'.walks = s.walks ∧ (∀ sid, sid ≠ s.cursor.sid → s'.strands.get? sid = s.strands.get? sid) ∧
    (∀ sid, (s'.strands.get? sid).map (fun (t : Strand) => { t with win := none, fetched := t.fetched.map fun (f : Fetched) => { f with ahead := [] } }) =
      (s.strands.get? sid).map (fun (t : Strand) => { t with win := none, fetched := t.fetched.map fun (f : Fetched) => { f with ahead := [] } })) ∧
    (∀ c, (s'.contexts.get? c).map (fun x => { x with resv := [] }) = (s.contexts.get? c).map (fun x => { x with resv := [] })) ∧
    (∀ c, c ≠ coreOf s.cursor.sid → s'.core c = s.core c) ∧
    (∀ c, { s'.core c with ex := none, idivWait := [], fdivWait := [], tlb := [], l1 := [], gl1 := [] } =
        { s.core c with ex := none, idivWait := [], fdivWait := [], tlb := [], l1 := [], gl1 := [] } ∧
      (∀ e ∈ (s'.core c).l1, e ∈ (s.core c).l1) ∧ ∀ g ∈ (s'.core c).gl1, g ∈ (s.core c).gl1) ∧
    (∀ d, { s'.die d with tlb := [], uecnt := 0 } = { s.die d with tlb := [], uecnt := 0 } ∧ (s.die d).uecnt.toNat ≤ (s'.die d).uecnt.toNat) ∧
    ∃ n m, (n = 0 → s'.board = s.board ∧ m = 0 ∧ ∀ d, (s'.die d).uecnt = (s.die d).uecnt) ∧ (n ≠ 0 → s'.board = { s.board with notif := s.board.notif ||| 32 }) ∧
      s'.out = { s.out with events := List.replicate n 5 ++ s.out.events, msix := List.replicate m s.board.nvec.toNat ++ s.out.msix }

/-- R208. -/
def Obligations.MzeroZeroes : Prop :=
  (∀ (o : TOp) (x : OpState) (q : Nat), (Instr.mzero o).view.slots = ⟨false, false, false⟩ ∧ x.tokensBy (Instr.mzero o).view q = true ∧ x.anyNull (Instr.mzero o).view = false) ∧
  (∀ (o : TOp) (s : State) (t : Strand) (w : Window), s.fires (Instr.mzero o).view t w →
    (s.shapeFor s.cursor.sid w s.cursor.idx o.acc.toNat = none → exec (.mzero o) s = .next (s.faulted 0x07 0x02 0 0)) ∧
    (∀ sh, s.shapeFor s.cursor.sid w s.cursor.idx o.acc.toNat = some sh → ∃ op, op.op = 1 ∧ op.tile = o.acc.toNat ∧
      exec (.mzero o) s = .next (s.answeredPosting (Instr.mzero o).view (.tile op) (.val 0)))) ∧
  (∀ (core sid : Nat) (s : State) (t : Strand) (op : TileOp), op.op = 1 → s.clocked core = true → (s.core core).plane.stepping s.now = false → s.planeReady core = some (sid, t, op) →
    ∃ s', exec (.matrixPerformDone core) s = .next s' ∧ ∀ k, k < 131072 → ((s'.core core).tile op.tile).bits k = 0) ∧
  (∀ c, c = 0 ∨ c = 2 → ∀ rows cols, ∃ e, elemValue (⟨rows, cols, c⟩ : Shape).fmt 0 0 = .fin false 0 e)
end

