-- ==== Sys2Proof/Laws/Dispatch.lean ====
section
/-! SUPPORT. What `exec` and `Instr.view` are on each constructor, each true by definition: a proof cites these and never unfolds the
dispatch. -/

namespace Sys2Proof.Machine

open Sys2Proof

@[simp] theorem exec_blockFetch (sid addr : Nat) (s : State) : exec (.blockFetch sid addr) s = execBlockFetch sid addr s := rfl
@[simp] theorem exec_blockStart (sid : Nat) (s : State) : exec (.blockStart sid) s = execBlockStart sid s := rfl
@[simp] theorem exec_blockQuiescent (sid : Nat) (s : State) : exec (.blockQuiescent sid) s = execBlockQuiescent sid s := rfl
@[simp] theorem exec_blockTimeout (sid : Nat) (s : State) : exec (.blockTimeout sid) s = execBlockTimeout sid s := rfl
@[simp] theorem exec_scalarProbeComplete (sid idx : Nat) (s : State) : exec (.scalarProbeComplete sid idx) s = execScalarProbeComplete sid idx s := rfl
@[simp] theorem exec_loadDataReturn (sid idx seg : Nat) (s : State) : exec (.loadDataReturn sid idx seg) s = execLoadDataReturn sid idx seg s := rfl
@[simp] theorem exec_storePerform (sid item seg : Nat) (s : State) : exec (.storePerform sid item seg) s = execStorePerform sid item seg s := rfl
@[simp] theorem exec_stampReturn (sid reg : Nat) (s : State) : exec (.stampReturn sid reg) s = execStampReturn sid reg s := rfl
@[simp] theorem exec_divideStart (core : Nat) (s : State) : exec (.divideStart core) s = execDivideStart core s := rfl
@[simp] theorem exec_divideComplete (core unit : Nat) (s : State) : exec (.divideComplete core unit) s = execDivideComplete core unit s := rfl
@[simp] theorem exec_fpDivideStart (core : Nat) (s : State) : exec (.fpDivideStart core) s = execFpDivideStart core s := rfl
@[simp] theorem exec_fpDivideComplete (core : Nat) (s : State) : exec (.fpDivideComplete core) s = execFpDivideComplete core s := rfl
@[simp] theorem exec_vectorDispatch (core : Nat) (s : State) : exec (.vectorDispatch core) s = execVectorDispatch core s := rfl
@[simp] theorem exec_vectorExecuteStart (core : Nat) (s : State) : exec (.vectorExecuteStart core) s = execVectorExecuteStart core s := rfl
@[simp] theorem exec_vectorExecuteDone (core : Nat) (s : State) : exec (.vectorExecuteDone core) s = execVectorExecuteDone core s := rfl
@[simp] theorem exec_fifoAccept (core side : Nat) (s : State) : exec (.fifoAccept core side) s = execFifoAccept core side s := rfl
@[simp] theorem exec_laneSliceGate (core die : Nat) (s : State) : exec (.laneSliceGate core die) s = execLaneSliceGate core die s := rfl
@[simp] theorem exec_localCountCheck (kind region : Nat) (s : State) : exec (.localCountCheck kind region) s = execLocalCountCheck kind region s := rfl
@[simp] theorem exec_pllRelockStop (cluster : Nat) (s : State) : exec (.pllRelockStop cluster) s = execPllRelockStop cluster s := rfl
@[simp] theorem exec_pllRelockEnd (cluster : Nat) (s : State) : exec (.pllRelockEnd cluster) s = execPllRelockEnd cluster s := rfl
@[simp] theorem exec_referenceClockLoss (s : State) : exec (.referenceClockLoss) s = execReferenceClockLoss s := rfl
@[simp] theorem exec_referenceClockReturn (s : State) : exec (.referenceClockReturn) s = execReferenceClockReturn s := rfl
@[simp] theorem exec_marginWarning (s : State) : exec (.marginWarning) s = execMarginWarning s := rfl
@[simp] theorem exec_matrixIssue (core : Nat) (s : State) : exec (.matrixIssue core) s = execMatrixIssue core s := rfl
@[simp] theorem exec_matrixPerformDone (core : Nat) (s : State) : exec (.matrixPerformDone core) s = execMatrixPerformDone core s := rfl
@[simp] theorem exec_tileMemoryMoveDone (core : Nat) (s : State) : exec (.tileMemoryMoveDone core) s = execTileMemoryMoveDone core s := rfl
@[simp] theorem exec_streamStripFetch (core stream : Nat) (s : State) : exec (.streamStripFetch core stream) s = execStreamStripFetch core stream s := rfl
@[simp] theorem exec_streamElementArrival (core stream elem : Nat) (s : State) : exec (.streamElementArrival core stream elem) s = execStreamElementArrival core stream elem s := rfl
@[simp] theorem exec_streamRed2FinalWrite (core stream elem : Nat) (s : State) : exec (.streamRed2FinalWrite core stream elem) s = execStreamRed2FinalWrite core stream elem s := rfl
@[simp] theorem exec_streamDone (core stream : Nat) (s : State) : exec (.streamDone core stream) s = execStreamDone core stream s := rfl
@[simp] theorem exec_streamAccessFault (core stream elem : Nat) (s : State) : exec (.streamAccessFault core stream elem) s = execStreamAccessFault core stream elem s := rfl
@[simp] theorem exec_interlockWaitEnd (sid : Nat) (s : State) : exec (.interlockWaitEnd sid) s = execInterlockWaitEnd sid s := rfl
@[simp] theorem exec_scopeAcknowledge (core ctx entry : Nat) (s : State) : exec (.scopeAcknowledge core ctx entry) s = execScopeAcknowledge core ctx entry s := rfl
@[simp] theorem exec_atomicPerform (sid item : Nat) (s : State) : exec (.atomicPerform sid item) s = execAtomicPerform sid item s := rfl
@[simp] theorem exec_atomicOldValueReturn (sid reg : Nat) (s : State) : exec (.atomicOldValueReturn sid reg) s = execAtomicOldValueReturn sid reg s := rfl
@[simp] theorem exec_heldWriteRelease (line : Nat) (s : State) : exec (.heldWriteRelease line) s = execHeldWriteRelease line s := rfl
@[simp] theorem exec_vaccUpdatePerform (sid item elem : Nat) (s : State) : exec (.vaccUpdatePerform sid item elem) s = execVaccUpdatePerform sid item elem s := rfl
@[simp] theorem exec_vamergeFold (sid item : Nat) (s : State) : exec (.vamergeFold sid item) s = execVamergeFold sid item s := rfl
@[simp] theorem exec_watchedLineWrite (core line : Nat) (s : State) : exec (.watchedLineWrite core line) s = execWatchedLineWrite core line s := rfl
@[simp] theorem exec_qdlDeadlinePass (sid : Nat) (s : State) : exec (.qdlDeadlinePass sid) s = execQdlDeadlinePass sid s := rfl
@[simp] theorem exec_sleepExpiry (sid : Nat) (s : State) : exec (.sleepExpiry sid) s = execSleepExpiry sid s := rfl
@[simp] theorem exec_barrierArrival (sid : Nat) (s : State) : exec (.barrierArrival sid) s = execBarrierArrival sid s := rfl
@[simp] theorem exec_l1LineInvalidate (core line : Nat) (s : State) : exec (.l1LineInvalidate core line) s = execL1LineInvalidate core line s := rfl
@[simp] theorem exec_l2Eviction (die line : Nat) (s : State) : exec (.l2Eviction die line) s = execL2Eviction die line s := rfl
@[simp] theorem exec_tlbWalkComplete (walk : Nat) (s : State) : exec (.tlbWalkComplete walk) s = execTlbWalkComplete walk s := rfl
@[simp] theorem exec_tlbInvalidatePerform (inv : Nat) (s : State) : exec (.tlbInvalidatePerform inv) s = execTlbInvalidatePerform inv s := rfl
@[simp] theorem exec_replayPendingReplay (core : Nat) (s : State) : exec (.replayPendingReplay core) s = execReplayPendingReplay core s := rfl
@[simp] theorem exec_fatalRecord (gang sub pa : Nat) (s : State) : exec (.fatalRecord gang sub pa) s = execFatalRecord gang sub pa s := rfl
@[simp] theorem exec_routerRecordWrite (core : Nat) (s : State) : exec (.routerRecordWrite core) s = execRouterRecordWrite core s := rfl
@[simp] theorem exec_resumeGo (core ctxn : Nat) (s : State) : exec (.resumeGo core ctxn) s = execResumeGo core ctxn s := rfl
@[simp] theorem exec_resumeRedirect (core ctxn : Nat) (s : State) : exec (.resumeRedirect core ctxn) s = execResumeRedirect core ctxn s := rfl
@[simp] theorem exec_resumeKill (core ctxn : Nat) (s : State) : exec (.resumeKill core ctxn) s = execResumeKill core ctxn s := rfl
@[simp] theorem exec_contextSaveStart (gang : Nat) (s : State) : exec (.contextSaveStart gang) s = execContextSaveStart gang s := rfl
@[simp] theorem exec_contextSaveComplete (gang : Nat) (s : State) : exec (.contextSaveComplete gang) s = execContextSaveComplete gang s := rfl
@[simp] theorem exec_saveBroken (gang : Nat) (s : State) : exec (.saveBroken gang) s = execSaveBroken gang s := rfl
@[simp] theorem exec_contextRestore (gang : Nat) (s : State) : exec (.contextRestore gang) s = execContextRestore gang s := rfl
@[simp] theorem exec_qwrWrite (queue value : Nat) (s : State) : exec (.qwrWrite queue value) s = execQwrWrite queue value s := rfl
@[simp] theorem exec_dispatcherTakeRecord (src : Nat) (s : State) : exec (.dispatcherTakeRecord src) s = execDispatcherTakeRecord src s := rfl
@[simp] theorem exec_dispatchPlace (s : State) : exec (.dispatchPlace) s = execDispatchPlace s := rfl
@[simp] theorem exec_preemptWaitExpiry (src : Nat) (s : State) : exec (.preemptWaitExpiry src) s = execPreemptWaitExpiry src s := rfl
@[simp] theorem exec_reclaimTimeout (gang : Nat) (s : State) : exec (.reclaimTimeout gang) s = execReclaimTimeout gang s := rfl
@[simp] theorem exec_laneGrant (gang : Nat) (s : State) : exec (.laneGrant gang) s = execLaneGrant gang s := rfl
@[simp] theorem exec_gangComplete (gang : Nat) (s : State) : exec (.gangComplete gang) s = execGangComplete gang s := rfl
@[simp] theorem exec_clusterIdleEntry (cluster : Nat) (s : State) : exec (.clusterIdleEntry cluster) s = execClusterIdleEntry cluster s := rfl
@[simp] theorem exec_clusterWake (cluster : Nat) (s : State) : exec (.clusterWake cluster) s = execClusterWake cluster s := rfl
@[simp] theorem exec_clusterExitDone (cluster : Nat) (s : State) : exec (.clusterExitDone cluster) s = execClusterExitDone cluster s := rfl
@[simp] theorem exec_packageC4Entry (s : State) : exec (.packageC4Entry) s = execPackageC4Entry s := rfl
@[simp] theorem exec_packageC4Exit (s : State) : exec (.packageC4Exit) s = execPackageC4Exit s := rfl
@[simp] theorem exec_quiesceDrain (cluster : Nat) (s : State) : exec (.quiesceDrain cluster) s = execQuiesceDrain cluster s := rfl
@[simp] theorem exec_quiesceEvict (cluster : Nat) (s : State) : exec (.quiesceEvict cluster) s = execQuiesceEvict cluster s := rfl
@[simp] theorem exec_quiesceHold (cluster : Nat) (s : State) : exec (.quiesceHold cluster) s = execQuiesceHold cluster s := rfl
@[simp] theorem exec_quiesceRelease (cluster : Nat) (s : State) : exec (.quiesceRelease cluster) s = execQuiesceRelease cluster s := rfl
@[simp] theorem exec_clusterQuiesced (cluster : Nat) (s : State) : exec (.clusterQuiesced cluster) s = execClusterQuiesced cluster s := rfl
@[simp] theorem exec_clusterWakeWrite (cluster value : Nat) (s : State) : exec (.clusterWakeWrite cluster value) s = execClusterWakeWrite cluster value s := rfl
@[simp] theorem exec_controlInterval (watts : Nat) (s : State) : exec (.controlInterval watts) s = execControlInterval watts s := rfl
@[simp] theorem exec_fastLimiterSample (watts : Nat) (s : State) : exec (.fastLimiterSample watts) s = execFastLimiterSample watts s := rfl
@[simp] theorem exec_thermalControlInterval (tmax slope : Nat) (s : State) : exec (.thermalControlInterval tmax slope) s = execThermalControlInterval tmax slope s := rfl
@[simp] theorem exec_thermalEmergency (s : State) : exec (.thermalEmergency) s = execThermalEmergency s := rfl
@[simp] theorem exec_hardTrip (s : State) : exec (.hardTrip) s = execHardTrip s := rfl
@[simp] theorem exec_peakClear (s : State) : exec (.peakClear) s = execPeakClear s := rfl
@[simp] theorem exec_aostatLogClear (s : State) : exec (.aostatLogClear) s = execAostatLogClear s := rfl
@[simp] theorem exec_hbmCorrectedError (stack : Nat) (s : State) : exec (.hbmCorrectedError stack) s = execHbmCorrectedError stack s := rfl
@[simp] theorem exec_hbmUncorrectableError (stack pa : Nat) (s : State) : exec (.hbmUncorrectableError stack pa) s = execHbmUncorrectableError stack pa s := rfl
@[simp] theorem exec_patrolScrub (stack : Nat) (s : State) : exec (.patrolScrub stack) s = execPatrolScrub stack s := rfl
@[simp] theorem exec_channelIdleLend (stack chan : Nat) (s : State) : exec (.channelIdleLend stack chan) s = execChannelIdleLend stack chan s := rfl
@[simp] theorem exec_lendHandshakeDone (stack chan : Nat) (s : State) : exec (.lendHandshakeDone stack chan) s = execLendHandshakeDone stack chan s := rfl
@[simp] theorem exec_lendReverse (stack chan : Nat) (s : State) : exec (.lendReverse stack chan) s = execLendReverse stack chan s := rfl
@[simp] theorem exec_dieLinkLaneError (link : Nat) (s : State) : exec (.dieLinkLaneError link) s = execDieLinkLaneError link s := rfl
@[simp] theorem exec_linkRetrainDone (link : Nat) (s : State) : exec (.linkRetrainDone link) s = execLinkRetrainDone link s := rfl
@[simp] theorem exec_hostAtomicop (op size addr value cmp : Nat) (s : State) : exec (.hostAtomicop op size addr value cmp) s = execHostAtomicop op size addr value cmp s := rfl
@[simp] theorem exec_hostLinkDown (s : State) : exec (.hostLinkDown) s = execHostLinkDown s := rfl
@[simp] theorem exec_hostLinkUp (s : State) : exec (.hostLinkUp) s = execHostLinkUp s := rfl
@[simp] theorem exec_hotReset (s : State) : exec (.hotReset) s = execHotReset s := rfl
@[simp] theorem exec_flitReceive (port flit : Nat) (s : State) : exec (.flitReceive port flit) s = execFlitReceive port flit s := rfl
@[simp] theorem exec_flitNakReplay (port good : Nat) (s : State) : exec (.flitNakReplay port good) s = execFlitNakReplay port good s := rfl
@[simp] theorem exec_flitReplayTimeout (port : Nat) (s : State) : exec (.flitReplayTimeout port) s = execFlitReplayTimeout port s := rfl
@[simp] theorem exec_laneErrorInterval (port lane : Nat) (s : State) : exec (.laneErrorInterval port lane) s = execLaneErrorInterval port lane s := rfl
@[simp] theorem exec_portRetrainDone (port : Nat) (s : State) : exec (.portRetrainDone port) s = execPortRetrainDone port s := rfl
@[simp] theorem exec_portTrainingTimeout (port : Nat) (s : State) : exec (.portTrainingTimeout port) s = execPortTrainingTimeout port s := rfl
@[simp] theorem exec_fabricAccessArrival (port kind size offset value : Nat) (s : State) : exec (.fabricAccessArrival port kind size offset value) s = execFabricAccessArrival port kind size offset value s := rfl
@[simp] theorem exec_remoteLostDeferred (sid : Nat) (s : State) : exec (.remoteLostDeferred sid) s = execRemoteLostDeferred sid s := rfl
@[simp] theorem exec_mctpMessage (message : Nat) (s : State) : exec (.mctpMessage message) s = execMctpMessage message s := rfl
@[simp] theorem exec_tlbInvStart (s : State) : exec (.tlbInvStart) s = execTlbInvStart s := rfl
@[simp] theorem exec_portDisable (port : Nat) (s : State) : exec (.portDisable port) s = execPortDisable port s := rfl
@[simp] theorem exec_registerWrite (addr size value : Nat) (s : State) : exec (.registerWrite addr size value) s = execRegisterWrite addr size value s := rfl
@[simp] theorem exec_packageReset (s : State) : exec (.packageReset) s = execPackageReset s := rfl
@[simp] theorem exec_firmwareVerifyDone (ok : Nat) (s : State) : exec (.firmwareVerifyDone ok) s = execFirmwareVerifyDone ok s := rfl
@[simp] theorem exec_dieLinksTrained (failed : Nat) (s : State) : exec (.dieLinksTrained failed) s = execDieLinksTrained failed s := rfl
@[simp] theorem exec_hostPortTrained (s : State) : exec (.hostPortTrained) s = execHostPortTrained s := rfl
@[simp] theorem exec_hbmTrained (failed : Nat) (s : State) : exec (.hbmTrained failed) s = execHbmTrained failed s := rfl
@[simp] theorem exec_hostdnClear (s : State) : exec (.hostdnClear) s = execHostdnClear s := rfl
@[simp] theorem exec_lendDisable (stack : Nat) (s : State) : exec (.lendDisable stack) s = execLendDisable stack s := rfl
@[simp] theorem exec_hostPostedWrite (addr size value : Nat) (s : State) : exec (.hostPostedWrite addr size value) s = execHostPostedWrite addr size value s := rfl
@[simp] theorem exec_read (o : RDOp) (s : State) : exec (.read o) s = execRead o s := rfl
@[simp] theorem exec_mov (o : GOp) (s : State) : exec (.mov o) s = execMov o s := rfl
@[simp] theorem exec_null (o : GOp) (s : State) : exec (.null o) s = execNull o s := rfl
@[simp] theorem exec_sel (o : G3Op) (s : State) : exec (.sel o) s = execSel o s := rfl
@[simp] theorem exec_movi (o : IOp) (s : State) : exec (.movi o) s = execMovi o s := rfl
@[simp] theorem exec_orhi (o : IOp) (s : State) : exec (.orhi o) s = execOrhi o s := rfl
@[simp] theorem exec_lpci (o : IOp) (s : State) : exec (.lpci o) s = execLpci o s := rfl
@[simp] theorem exec_teq (o : GOp) (s : State) : exec (.teq o) s = execTeq o s := rfl
@[simp] theorem exec_tne (o : GOp) (s : State) : exec (.tne o) s = execTne o s := rfl
@[simp] theorem exec_tlt (o : GOp) (s : State) : exec (.tlt o) s = execTlt o s := rfl
@[simp] theorem exec_tltu (o : GOp) (s : State) : exec (.tltu o) s = execTltu o s := rfl
@[simp] theorem exec_tle (o : GOp) (s : State) : exec (.tle o) s = execTle o s := rfl
@[simp] theorem exec_tleu (o : GOp) (s : State) : exec (.tleu o) s = execTleu o s := rfl
@[simp] theorem exec_tgt (o : GOp) (s : State) : exec (.tgt o) s = execTgt o s := rfl
@[simp] theorem exec_tgtu (o : GOp) (s : State) : exec (.tgtu o) s = execTgtu o s := rfl
@[simp] theorem exec_tge (o : GOp) (s : State) : exec (.tge o) s = execTge o s := rfl
@[simp] theorem exec_tgeu (o : GOp) (s : State) : exec (.tgeu o) s = execTgeu o s := rfl
@[simp] theorem exec_tbit (o : GOp) (s : State) : exec (.tbit o) s = execTbit o s := rfl
@[simp] theorem exec_teqi (o : ITOp) (s : State) : exec (.teqi o) s = execTeqi o s := rfl
@[simp] theorem exec_tnei (o : ITOp) (s : State) : exec (.tnei o) s = execTnei o s := rfl
@[simp] theorem exec_tlti (o : ITOp) (s : State) : exec (.tlti o) s = execTlti o s := rfl
@[simp] theorem exec_tltui (o : ITOp) (s : State) : exec (.tltui o) s = execTltui o s := rfl
@[simp] theorem exec_tlei (o : ITOp) (s : State) : exec (.tlei o) s = execTlei o s := rfl
@[simp] theorem exec_tleui (o : ITOp) (s : State) : exec (.tleui o) s = execTleui o s := rfl
@[simp] theorem exec_tgti (o : ITOp) (s : State) : exec (.tgti o) s = execTgti o s := rfl
@[simp] theorem exec_tgtui (o : ITOp) (s : State) : exec (.tgtui o) s = execTgtui o s := rfl
@[simp] theorem exec_tgei (o : ITOp) (s : State) : exec (.tgei o) s = execTgei o s := rfl
@[simp] theorem exec_tgeui (o : ITOp) (s : State) : exec (.tgeui o) s = execTgeui o s := rfl
@[simp] theorem exec_tbiti (o : ITOp) (s : State) : exec (.tbiti o) s = execTbiti o s := rfl
@[simp] theorem exec_br (o : BOp) (s : State) : exec (.br o) s = execBr o s := rfl
@[simp] theorem exec_call (o : BOp) (s : State) : exec (.call o) s = execCall o s := rfl
@[simp] theorem exec_bro (o : BXOp) (s : State) : exec (.bro o) s = execBro o s := rfl
@[simp] theorem exec_callo (o : BXOp) (s : State) : exec (.callo o) s = execCallo o s := rfl
@[simp] theorem exec_halt (o : BXOp) (s : State) : exec (.halt o) s = execHalt o s := rfl
@[simp] theorem exec_yld (o : BXOp) (s : State) : exec (.yld o) s = execYld o s := rfl
@[simp] theorem exec_sys (o : BXOp) (s : State) : exec (.sys o) s = execSys o s := rfl
@[simp] theorem exec_brk (o : BXOp) (s : State) : exec (.brk o) s = execBrk o s := rfl
@[simp] theorem exec_spawn (o : GOp) (s : State) : exec (.spawn o) s = execSpawn o s := rfl
@[simp] theorem exec_bar (o : GOp) (s : State) : exec (.bar o) s = execBar o s := rfl
@[simp] theorem exec_gid (o : GOp) (s : State) : exec (.gid o) s = execGid o s := rfl
@[simp] theorem exec_gsize (o : GOp) (s : State) : exec (.gsize o) s = execGsize o s := rfl
@[simp] theorem exec_cid (o : GOp) (s : State) : exec (.cid o) s = execCid o s := rfl
@[simp] theorem exec_sleep (o : GOp) (s : State) : exec (.sleep o) s = execSleep o s := rfl
@[simp] theorem exec_add (o : GOp) (s : State) : exec (.add o) s = execAdd o s := rfl
@[simp] theorem exec_sub (o : GOp) (s : State) : exec (.sub o) s = execSub o s := rfl
@[simp] theorem exec_mul (o : GOp) (s : State) : exec (.mul o) s = execMul o s := rfl
@[simp] theorem exec_mulh (o : GOp) (s : State) : exec (.mulh o) s = execMulh o s := rfl
@[simp] theorem exec_mulhu (o : GOp) (s : State) : exec (.mulhu o) s = execMulhu o s := rfl
@[simp] theorem exec_div (o : GOp) (s : State) : exec (.div o) s = execDiv o s := rfl
@[simp] theorem exec_divu (o : GOp) (s : State) : exec (.divu o) s = execDivu o s := rfl
@[simp] theorem exec_rem (o : GOp) (s : State) : exec (.rem o) s = execRem o s := rfl
@[simp] theorem exec_remu (o : GOp) (s : State) : exec (.remu o) s = execRemu o s := rfl
@[simp] theorem exec_and (o : GOp) (s : State) : exec (.and o) s = execAnd o s := rfl
@[simp] theorem exec_or (o : GOp) (s : State) : exec (.or o) s = execOr o s := rfl
@[simp] theorem exec_xor (o : GOp) (s : State) : exec (.xor o) s = execXor o s := rfl
@[simp] theorem exec_andn (o : GOp) (s : State) : exec (.andn o) s = execAndn o s := rfl
@[simp] theorem exec_shl (o : GOp) (s : State) : exec (.shl o) s = execShl o s := rfl
@[simp] theorem exec_shr (o : GOp) (s : State) : exec (.shr o) s = execShr o s := rfl
@[simp] theorem exec_sra (o : GOp) (s : State) : exec (.sra o) s = execSra o s := rfl
@[simp] theorem exec_rotl (o : GOp) (s : State) : exec (.rotl o) s = execRotl o s := rfl
@[simp] theorem exec_rotr (o : GOp) (s : State) : exec (.rotr o) s = execRotr o s := rfl
@[simp] theorem exec_min (o : GOp) (s : State) : exec (.min o) s = execMin o s := rfl
@[simp] theorem exec_max (o : GOp) (s : State) : exec (.max o) s = execMax o s := rfl
@[simp] theorem exec_minu (o : GOp) (s : State) : exec (.minu o) s = execMinu o s := rfl
@[simp] theorem exec_maxu (o : GOp) (s : State) : exec (.maxu o) s = execMaxu o s := rfl
@[simp] theorem exec_clz (o : GOp) (s : State) : exec (.clz o) s = execClz o s := rfl
@[simp] theorem exec_ctz (o : GOp) (s : State) : exec (.ctz o) s = execCtz o s := rfl
@[simp] theorem exec_popc (o : GOp) (s : State) : exec (.popc o) s = execPopc o s := rfl
@[simp] theorem exec_sextb (o : GOp) (s : State) : exec (.sextb o) s = execSextb o s := rfl
@[simp] theorem exec_sexth (o : GOp) (s : State) : exec (.sexth o) s = execSexth o s := rfl
@[simp] theorem exec_sextw (o : GOp) (s : State) : exec (.sextw o) s = execSextw o s := rfl
@[simp] theorem exec_zextb (o : GOp) (s : State) : exec (.zextb o) s = execZextb o s := rfl
@[simp] theorem exec_zexth (o : GOp) (s : State) : exec (.zexth o) s = execZexth o s := rfl
@[simp] theorem exec_zextw (o : GOp) (s : State) : exec (.zextw o) s = execZextw o s := rfl
@[simp] theorem exec_abs (o : GOp) (s : State) : exec (.abs o) s = execAbs o s := rfl
@[simp] theorem exec_addi (o : IOp) (s : State) : exec (.addi o) s = execAddi o s := rfl
@[simp] theorem exec_andi (o : IOp) (s : State) : exec (.andi o) s = execAndi o s := rfl
@[simp] theorem exec_ori (o : IOp) (s : State) : exec (.ori o) s = execOri o s := rfl
@[simp] theorem exec_xori (o : IOp) (s : State) : exec (.xori o) s = execXori o s := rfl
@[simp] theorem exec_shli (o : ITOp) (s : State) : exec (.shli o) s = execShli o s := rfl
@[simp] theorem exec_shri (o : ITOp) (s : State) : exec (.shri o) s = execShri o s := rfl
@[simp] theorem exec_srai (o : ITOp) (s : State) : exec (.srai o) s = execSrai o s := rfl
@[simp] theorem exec_rotli (o : ITOp) (s : State) : exec (.rotli o) s = execRotli o s := rfl
@[simp] theorem exec_muli (o : ITOp) (s : State) : exec (.muli o) s = execMuli o s := rfl
@[simp] theorem exec_leai (o : ITOp) (s : State) : exec (.leai o) s = execLeai o s := rfl
@[simp] theorem exec_faddS (o : GOp) (s : State) : exec (.faddS o) s = execFaddS o s := rfl
@[simp] theorem exec_fsubS (o : GOp) (s : State) : exec (.fsubS o) s = execFsubS o s := rfl
@[simp] theorem exec_fmulS (o : GOp) (s : State) : exec (.fmulS o) s = execFmulS o s := rfl
@[simp] theorem exec_fdivS (o : GOp) (s : State) : exec (.fdivS o) s = execFdivS o s := rfl
@[simp] theorem exec_fsqrtS (o : GOp) (s : State) : exec (.fsqrtS o) s = execFsqrtS o s := rfl
@[simp] theorem exec_fmaS (o : G3Op) (s : State) : exec (.fmaS o) s = execFmaS o s := rfl
@[simp] theorem exec_fminS (o : GOp) (s : State) : exec (.fminS o) s = execFminS o s := rfl
@[simp] theorem exec_fmaxS (o : GOp) (s : State) : exec (.fmaxS o) s = execFmaxS o s := rfl
@[simp] theorem exec_frsqrtS (o : GOp) (s : State) : exec (.frsqrtS o) s = execFrsqrtS o s := rfl
@[simp] theorem exec_fcvtfiS (o : GOp) (s : State) : exec (.fcvtfiS o) s = execFcvtfiS o s := rfl
@[simp] theorem exec_fcvtifS (o : GOp) (s : State) : exec (.fcvtifS o) s = execFcvtifS o s := rfl
@[simp] theorem exec_fcvtffS (o : GOp) (s : State) : exec (.fcvtffS o) s = execFcvtffS o s := rfl
@[simp] theorem exec_fteqS (o : GOp) (s : State) : exec (.fteqS o) s = execFteqS o s := rfl
@[simp] theorem exec_ftltS (o : GOp) (s : State) : exec (.ftltS o) s = execFtltS o s := rfl
@[simp] theorem exec_ftleS (o : GOp) (s : State) : exec (.ftleS o) s = execFtleS o s := rfl
@[simp] theorem exec_fclassS (o : GOp) (s : State) : exec (.fclassS o) s = execFclassS o s := rfl
@[simp] theorem exec_faddD (o : GOp) (s : State) : exec (.faddD o) s = execFaddD o s := rfl
@[simp] theorem exec_fsubD (o : GOp) (s : State) : exec (.fsubD o) s = execFsubD o s := rfl
@[simp] theorem exec_fmulD (o : GOp) (s : State) : exec (.fmulD o) s = execFmulD o s := rfl
@[simp] theorem exec_fdivD (o : GOp) (s : State) : exec (.fdivD o) s = execFdivD o s := rfl
@[simp] theorem exec_fsqrtD (o : GOp) (s : State) : exec (.fsqrtD o) s = execFsqrtD o s := rfl
@[simp] theorem exec_fmaD (o : G3Op) (s : State) : exec (.fmaD o) s = execFmaD o s := rfl
@[simp] theorem exec_fminD (o : GOp) (s : State) : exec (.fminD o) s = execFminD o s := rfl
@[simp] theorem exec_fmaxD (o : GOp) (s : State) : exec (.fmaxD o) s = execFmaxD o s := rfl
@[simp] theorem exec_frsqrtD (o : GOp) (s : State) : exec (.frsqrtD o) s = execFrsqrtD o s := rfl
@[simp] theorem exec_fcvtfiD (o : GOp) (s : State) : exec (.fcvtfiD o) s = execFcvtfiD o s := rfl
@[simp] theorem exec_fcvtifD (o : GOp) (s : State) : exec (.fcvtifD o) s = execFcvtifD o s := rfl
@[simp] theorem exec_fcvtffD (o : GOp) (s : State) : exec (.fcvtffD o) s = execFcvtffD o s := rfl
@[simp] theorem exec_fteqD (o : GOp) (s : State) : exec (.fteqD o) s = execFteqD o s := rfl
@[simp] theorem exec_ftltD (o : GOp) (s : State) : exec (.ftltD o) s = execFtltD o s := rfl
@[simp] theorem exec_ftleD (o : GOp) (s : State) : exec (.ftleD o) s = execFtleD o s := rfl
@[simp] theorem exec_fclassD (o : GOp) (s : State) : exec (.fclassD o) s = execFclassD o s := rfl
@[simp] theorem exec_ldb (o : MOp) (s : State) : exec (.ldb o) s = execLdb o s := rfl
@[simp] theorem exec_ldbu (o : MOp) (s : State) : exec (.ldbu o) s = execLdbu o s := rfl
@[simp] theorem exec_ldh (o : MOp) (s : State) : exec (.ldh o) s = execLdh o s := rfl
@[simp] theorem exec_ldhu (o : MOp) (s : State) : exec (.ldhu o) s = execLdhu o s := rfl
@[simp] theorem exec_ldw (o : MOp) (s : State) : exec (.ldw o) s = execLdw o s := rfl
@[simp] theorem exec_ldwu (o : MOp) (s : State) : exec (.ldwu o) s = execLdwu o s := rfl
@[simp] theorem exec_ldd (o : MOp) (s : State) : exec (.ldd o) s = execLdd o s := rfl
@[simp] theorem exec_stb (o : MOp) (s : State) : exec (.stb o) s = execStb o s := rfl
@[simp] theorem exec_sth (o : MOp) (s : State) : exec (.sth o) s = execSth o s := rfl
@[simp] theorem exec_stw (o : MOp) (s : State) : exec (.stw o) s = execStw o s := rfl
@[simp] theorem exec_std (o : MOp) (s : State) : exec (.std o) s = execStd o s := rfl
@[simp] theorem exec_stqw (o : MOp) (s : State) : exec (.stqw o) s = execStqw o s := rfl
@[simp] theorem exec_stqd (o : MOp) (s : State) : exec (.stqd o) s = execStqd o s := rfl
@[simp] theorem exec_aadd (o : AOp) (s : State) : exec (.aadd o) s = execAadd o s := rfl
@[simp] theorem exec_aand (o : AOp) (s : State) : exec (.aand o) s = execAand o s := rfl
@[simp] theorem exec_aor (o : AOp) (s : State) : exec (.aor o) s = execAor o s := rfl
@[simp] theorem exec_axor (o : AOp) (s : State) : exec (.axor o) s = execAxor o s := rfl
@[simp] theorem exec_amin (o : AOp) (s : State) : exec (.amin o) s = execAmin o s := rfl
@[simp] theorem exec_amax (o : AOp) (s : State) : exec (.amax o) s = execAmax o s := rfl
@[simp] theorem exec_aminu (o : AOp) (s : State) : exec (.aminu o) s = execAminu o s := rfl
@[simp] theorem exec_amaxu (o : AOp) (s : State) : exec (.amaxu o) s = execAmaxu o s := rfl
@[simp] theorem exec_aswap (o : AOp) (s : State) : exec (.aswap o) s = execAswap o s := rfl
@[simp] theorem exec_acas (o : A3Op) (s : State) : exec (.acas o) s = execAcas o s := rfl
@[simp] theorem exec_ainc (o : AOp) (s : State) : exec (.ainc o) s = execAinc o s := rfl
@[simp] theorem exec_abfa (o : A3Op) (s : State) : exec (.abfa o) s = execAbfa o s := rfl
@[simp] theorem exec_aaddw (o : AOp) (s : State) : exec (.aaddw o) s = execAaddw o s := rfl
@[simp] theorem exec_acasw (o : A3Op) (s : State) : exec (.acasw o) s = execAcasw o s := rfl
@[simp] theorem exec_aincw (o : AOp) (s : State) : exec (.aincw o) s = execAincw o s := rfl
@[simp] theorem exec_fenceAcq (o : AOp) (s : State) : exec (.fenceAcq o) s = execFenceAcq o s := rfl
@[simp] theorem exec_fenceRel (o : AOp) (s : State) : exec (.fenceRel o) s = execFenceRel o s := rfl
@[simp] theorem exec_fenceAr (o : AOp) (s : State) : exec (.fenceAr o) s = execFenceAr o s := rfl
@[simp] theorem exec_fenceSc (o : AOp) (s : State) : exec (.fenceSc o) s = execFenceSc o s := rfl
@[simp] theorem exec_scopeSet (o : AOp) (s : State) : exec (.scopeSet o) s = execScopeSet o s := rfl
@[simp] theorem exec_scopeGet (o : AOp) (s : State) : exec (.scopeGet o) s = execScopeGet o s := rfl
@[simp] theorem exec_scopeInv (o : AOp) (s : State) : exec (.scopeInv o) s = execScopeInv o s := rfl
@[simp] theorem exec_scopeGen (o : AOp) (s : State) : exec (.scopeGen o) s = execScopeGen o s := rfl
@[simp] theorem exec_qtime (o : GOp) (s : State) : exec (.qtime o) s = execQtime o s := rfl
@[simp] theorem exec_qlocal (o : GOp) (s : State) : exec (.qlocal o) s = execQlocal o s := rfl
@[simp] theorem exec_qdl (o : GOp) (s : State) : exec (.qdl o) s = execQdl o s := rfl
@[simp] theorem exec_qper (o : GOp) (s : State) : exec (.qper o) s = execQper o s := rfl
@[simp] theorem exec_ctlRd (o : GOp) (s : State) : exec (.ctlRd o) s = execCtlRd o s := rfl
@[simp] theorem exec_ctlWr (o : GOp) (s : State) : exec (.ctlWr o) s = execCtlWr o s := rfl
@[simp] theorem exec_tret (o : GOp) (s : State) : exec (.tret o) s = execTret o s := rfl
@[simp] theorem exec_tlbInv (o : GOp) (s : State) : exec (.tlbInv o) s = execTlbInv o s := rfl
@[simp] theorem exec_ctxSave (o : GOp) (s : State) : exec (.ctxSave o) s = execCtxSave o s := rfl
@[simp] theorem exec_ctxLoad (o : GOp) (s : State) : exec (.ctxLoad o) s = execCtxLoad o s := rfl
@[simp] theorem exec_vlset (o : GOp) (s : State) : exec (.vlset o) s = execVlset o s := rfl
@[simp] theorem exec_vlget (o : GOp) (s : State) : exec (.vlget o) s = execVlget o s := rfl
@[simp] theorem exec_vlmax (o : GOp) (s : State) : exec (.vlmax o) s = execVlmax o s := rfl
@[simp] theorem exec_vrel (o : GOp) (s : State) : exec (.vrel o) s = execVrel o s := rfl
@[simp] theorem exec_vgrant (o : GOp) (s : State) : exec (.vgrant o) s = execVgrant o s := rfl
@[simp] theorem exec_vawin (o : GOp) (s : State) : exec (.vawin o) s = execVawin o s := rfl
@[simp] theorem exec_vamerge (o : GOp) (s : State) : exec (.vamerge o) s = execVamerge o s := rfl
@[simp] theorem exec_vawclr (o : GOp) (s : State) : exec (.vawclr o) s = execVawclr o s := rfl
@[simp] theorem exec_cpsCfg (o : CPOp) (s : State) : exec (.cpsCfg o) s = execCpsCfg o s := rfl
@[simp] theorem exec_cpsGo (o : CPOp) (s : State) : exec (.cpsGo o) s = execCpsGo o s := rfl
@[simp] theorem exec_cpsStep (o : CPOp) (s : State) : exec (.cpsStep o) s = execCpsStep o s := rfl
@[simp] theorem exec_cpsAvail (o : CPOp) (s : State) : exec (.cpsAvail o) s = execCpsAvail o s := rfl
@[simp] theorem exec_cpsWait (o : CPOp) (s : State) : exec (.cpsWait o) s = execCpsWait o s := rfl
@[simp] theorem exec_cpsKill (o : CPOp) (s : State) : exec (.cpsKill o) s = execCpsKill o s := rfl
@[simp] theorem exec_cMov (o : COp) (s : State) : exec (.cMov o) s = execCMov o s := rfl
@[simp] theorem exec_cNull (o : COp) (s : State) : exec (.cNull o) s = execCNull o s := rfl
@[simp] theorem exec_cInc (o : COp) (s : State) : exec (.cInc o) s = execCInc o s := rfl
@[simp] theorem exec_cDec (o : COp) (s : State) : exec (.cDec o) s = execCDec o s := rfl
@[simp] theorem exec_cNot (o : COp) (s : State) : exec (.cNot o) s = execCNot o s := rfl
@[simp] theorem exec_cNeg (o : COp) (s : State) : exec (.cNeg o) s = execCNeg o s := rfl
@[simp] theorem exec_cZextw (o : COp) (s : State) : exec (.cZextw o) s = execCZextw o s := rfl
@[simp] theorem exec_cSextw (o : COp) (s : State) : exec (.cSextw o) s = execCSextw o s := rfl
@[simp] theorem exec_cZero (o : COp) (s : State) : exec (.cZero o) s = execCZero o s := rfl
@[simp] theorem exec_cOne (o : COp) (s : State) : exec (.cOne o) s = execCOne o s := rfl
@[simp] theorem exec_vadd (o : VOp) (s : State) : exec (.vadd o) s = execVadd o s := rfl
@[simp] theorem exec_vsub (o : VOp) (s : State) : exec (.vsub o) s = execVsub o s := rfl
@[simp] theorem exec_vrsub (o : VOp) (s : State) : exec (.vrsub o) s = execVrsub o s := rfl
@[simp] theorem exec_vmul (o : VOp) (s : State) : exec (.vmul o) s = execVmul o s := rfl
@[simp] theorem exec_vmulh (o : VOp) (s : State) : exec (.vmulh o) s = execVmulh o s := rfl
@[simp] theorem exec_vmadd (o : VOp) (s : State) : exec (.vmadd o) s = execVmadd o s := rfl
@[simp] theorem exec_vmsub (o : VOp) (s : State) : exec (.vmsub o) s = execVmsub o s := rfl
@[simp] theorem exec_vnmadd (o : VOp) (s : State) : exec (.vnmadd o) s = execVnmadd o s := rfl
@[simp] theorem exec_vdiv (o : VOp) (s : State) : exec (.vdiv o) s = execVdiv o s := rfl
@[simp] theorem exec_vrem (o : VOp) (s : State) : exec (.vrem o) s = execVrem o s := rfl
@[simp] theorem exec_vsqrt (o : VOp) (s : State) : exec (.vsqrt o) s = execVsqrt o s := rfl
@[simp] theorem exec_vrsqrt (o : VOp) (s : State) : exec (.vrsqrt o) s = execVrsqrt o s := rfl
@[simp] theorem exec_vrecip (o : VOp) (s : State) : exec (.vrecip o) s = execVrecip o s := rfl
@[simp] theorem exec_vmin (o : VOp) (s : State) : exec (.vmin o) s = execVmin o s := rfl
@[simp] theorem exec_vmax (o : VOp) (s : State) : exec (.vmax o) s = execVmax o s := rfl
@[simp] theorem exec_vabs (o : VOp) (s : State) : exec (.vabs o) s = execVabs o s := rfl
@[simp] theorem exec_vand (o : VOp) (s : State) : exec (.vand o) s = execVand o s := rfl
@[simp] theorem exec_vor (o : VOp) (s : State) : exec (.vor o) s = execVor o s := rfl
@[simp] theorem exec_vxor (o : VOp) (s : State) : exec (.vxor o) s = execVxor o s := rfl
@[simp] theorem exec_vnot (o : VOp) (s : State) : exec (.vnot o) s = execVnot o s := rfl
@[simp] theorem exec_vshl (o : VOp) (s : State) : exec (.vshl o) s = execVshl o s := rfl
@[simp] theorem exec_vshr (o : VOp) (s : State) : exec (.vshr o) s = execVshr o s := rfl
@[simp] theorem exec_vsra (o : VOp) (s : State) : exec (.vsra o) s = execVsra o s := rfl
@[simp] theorem exec_vneg (o : VOp) (s : State) : exec (.vneg o) s = execVneg o s := rfl
@[simp] theorem exec_vsadd (o : VOp) (s : State) : exec (.vsadd o) s = execVsadd o s := rfl
@[simp] theorem exec_vssub (o : VOp) (s : State) : exec (.vssub o) s = execVssub o s := rfl
@[simp] theorem exec_vaadd (o : VOp) (s : State) : exec (.vaadd o) s = execVaadd o s := rfl
@[simp] theorem exec_vsmul (o : VOp) (s : State) : exec (.vsmul o) s = execVsmul o s := rfl
@[simp] theorem exec_vnclip (o : VOp) (s : State) : exec (.vnclip o) s = execVnclip o s := rfl
@[simp] theorem exec_vnsra (o : VOp) (s : State) : exec (.vnsra o) s = execVnsra o s := rfl
@[simp] theorem exec_vclass (o : VOp) (s : State) : exec (.vclass o) s = execVclass o s := rfl
@[simp] theorem exec_vcvt (o : VOp) (s : State) : exec (.vcvt o) s = execVcvt o s := rfl
@[simp] theorem exec_vcvtmx (o : VOp) (s : State) : exec (.vcvtmx o) s = execVcvtmx o s := rfl
@[simp] theorem exec_vmerge (o : VOp) (s : State) : exec (.vmerge o) s = execVmerge o s := rfl
@[simp] theorem exec_vid (o : VOp) (s : State) : exec (.vid o) s = execVid o s := rfl
@[simp] theorem exec_vperm (o : VOp) (s : State) : exec (.vperm o) s = execVperm o s := rfl
@[simp] theorem exec_vslup (o : VOp) (s : State) : exec (.vslup o) s = execVslup o s := rfl
@[simp] theorem exec_vsldn (o : VOp) (s : State) : exec (.vsldn o) s = execVsldn o s := rfl
@[simp] theorem exec_vcompress (o : VOp) (s : State) : exec (.vcompress o) s = execVcompress o s := rfl
@[simp] theorem exec_vceq (o : VOp) (s : State) : exec (.vceq o) s = execVceq o s := rfl
@[simp] theorem exec_vcne (o : VOp) (s : State) : exec (.vcne o) s = execVcne o s := rfl
@[simp] theorem exec_vclt (o : VOp) (s : State) : exec (.vclt o) s = execVclt o s := rfl
@[simp] theorem exec_vcle (o : VOp) (s : State) : exec (.vcle o) s = execVcle o s := rfl
@[simp] theorem exec_vcgt (o : VOp) (s : State) : exec (.vcgt o) s = execVcgt o s := rfl
@[simp] theorem exec_vcge (o : VOp) (s : State) : exec (.vcge o) s = execVcge o s := rfl
@[simp] theorem exec_vcun (o : VOp) (s : State) : exec (.vcun o) s = execVcun o s := rfl
@[simp] theorem exec_vrsum (o : VOp) (s : State) : exec (.vrsum o) s = execVrsum o s := rfl
@[simp] theorem exec_vrosum (o : VOp) (s : State) : exec (.vrosum o) s = execVrosum o s := rfl
@[simp] theorem exec_vrmax (o : VOp) (s : State) : exec (.vrmax o) s = execVrmax o s := rfl
@[simp] theorem exec_vrmin (o : VOp) (s : State) : exec (.vrmin o) s = execVrmin o s := rfl
@[simp] theorem exec_vrand (o : VOp) (s : State) : exec (.vrand o) s = execVrand o s := rfl
@[simp] theorem exec_vror (o : VOp) (s : State) : exec (.vror o) s = execVror o s := rfl
@[simp] theorem exec_vrxor (o : VOp) (s : State) : exec (.vrxor o) s = execVrxor o s := rfl
@[simp] theorem exec_vrsummx (o : VOp) (s : State) : exec (.vrsummx o) s = execVrsummx o s := rfl
@[simp] theorem exec_vadds (o : VOp) (s : State) : exec (.vadds o) s = execVadds o s := rfl
@[simp] theorem exec_vsubs (o : VOp) (s : State) : exec (.vsubs o) s = execVsubs o s := rfl
@[simp] theorem exec_vmuls (o : VOp) (s : State) : exec (.vmuls o) s = execVmuls o s := rfl
@[simp] theorem exec_vmadds (o : VOp) (s : State) : exec (.vmadds o) s = execVmadds o s := rfl
@[simp] theorem exec_vmins (o : VOp) (s : State) : exec (.vmins o) s = execVmins o s := rfl
@[simp] theorem exec_vmaxs (o : VOp) (s : State) : exec (.vmaxs o) s = execVmaxs o s := rfl
@[simp] theorem exec_vshls (o : VOp) (s : State) : exec (.vshls o) s = execVshls o s := rfl
@[simp] theorem exec_vbcast (o : VOp) (s : State) : exec (.vbcast o) s = execVbcast o s := rfl
@[simp] theorem exec_vext (o : VXOp) (s : State) : exec (.vext o) s = execVext o s := rfl
@[simp] theorem exec_vcnt (o : VXOp) (s : State) : exec (.vcnt o) s = execVcnt o s := rfl
@[simp] theorem exec_mpop (o : VXOp) (s : State) : exec (.mpop o) s = execMpop o s := rfl
@[simp] theorem exec_mfirst (o : VXOp) (s : State) : exec (.mfirst o) s = execMfirst o s := rfl
@[simp] theorem exec_vins (o : VOp) (s : State) : exec (.vins o) s = execVins o s := rfl
@[simp] theorem exec_mand (o : VOp) (s : State) : exec (.mand o) s = execMand o s := rfl
@[simp] theorem exec_mor (o : VOp) (s : State) : exec (.mor o) s = execMor o s := rfl
@[simp] theorem exec_mxor (o : VOp) (s : State) : exec (.mxor o) s = execMxor o s := rfl
@[simp] theorem exec_mandn (o : VOp) (s : State) : exec (.mandn o) s = execMandn o s := rfl
@[simp] theorem exec_mnot (o : VOp) (s : State) : exec (.mnot o) s = execMnot o s := rfl
@[simp] theorem exec_mset (o : VOp) (s : State) : exec (.mset o) s = execMset o s := rfl
@[simp] theorem exec_mclr (o : VOp) (s : State) : exec (.mclr o) s = execMclr o s := rfl
@[simp] theorem exec_mfromv (o : VOp) (s : State) : exec (.mfromv o) s = execMfromv o s := rfl
@[simp] theorem exec_vld (o : VMOp) (s : State) : exec (.vld o) s = execVld o s := rfl
@[simp] theorem exec_vlds (o : VMOp) (s : State) : exec (.vlds o) s = execVlds o s := rfl
@[simp] theorem exec_vldx (o : VMOp) (s : State) : exec (.vldx o) s = execVldx o s := rfl
@[simp] theorem exec_vldseg (o : VMOp) (s : State) : exec (.vldseg o) s = execVldseg o s := rfl
@[simp] theorem exec_vldff (o : VMOp) (s : State) : exec (.vldff o) s = execVldff o s := rfl
@[simp] theorem exec_vldxo (o : VMOp) (s : State) : exec (.vldxo o) s = execVldxo o s := rfl
@[simp] theorem exec_vldmx (o : VMOp) (s : State) : exec (.vldmx o) s = execVldmx o s := rfl
@[simp] theorem exec_vldcs (o : VMOp) (s : State) : exec (.vldcs o) s = execVldcs o s := rfl
@[simp] theorem exec_vst (o : VMOp) (s : State) : exec (.vst o) s = execVst o s := rfl
@[simp] theorem exec_vsts (o : VMOp) (s : State) : exec (.vsts o) s = execVsts o s := rfl
@[simp] theorem exec_vstx (o : VMOp) (s : State) : exec (.vstx o) s = execVstx o s := rfl
@[simp] theorem exec_vstseg (o : VMOp) (s : State) : exec (.vstseg o) s = execVstseg o s := rfl
@[simp] theorem exec_vstxo (o : VMOp) (s : State) : exec (.vstxo o) s = execVstxo o s := rfl
@[simp] theorem exec_vsto (o : VMOp) (s : State) : exec (.vsto o) s = execVsto o s := rfl
@[simp] theorem exec_vstmx (o : VMOp) (s : State) : exec (.vstmx o) s = execVstmx o s := rfl
@[simp] theorem exec_vgl (o : VMOp) (s : State) : exec (.vgl o) s = execVgl o s := rfl
@[simp] theorem exec_vsc (o : VMOp) (s : State) : exec (.vsc o) s = execVsc o s := rfl
@[simp] theorem exec_vacc (o : VMOp) (s : State) : exec (.vacc o) s = execVacc o s := rfl
@[simp] theorem exec_vwait (o : VMOp) (s : State) : exec (.vwait o) s = execVwait o s := rfl
@[simp] theorem exec_mshape (o : TOp) (s : State) : exec (.mshape o) s = execMshape o s := rfl
@[simp] theorem exec_mzero (o : TOp) (s : State) : exec (.mzero o) s = execMzero o s := rfl
@[simp] theorem exec_mop (o : TOp) (s : State) : exec (.mop o) s = execMop o s := rfl
@[simp] theorem exec_mopmx (o : TOp) (s : State) : exec (.mopmx o) s = execMopmx o s := rfl
@[simp] theorem exec_mopd (o : TOp) (s : State) : exec (.mopd o) s = execMopd o s := rfl
@[simp] theorem exec_mld (o : TOp) (s : State) : exec (.mld o) s = execMld o s := rfl
@[simp] theorem exec_mst (o : TOp) (s : State) : exec (.mst o) s = execMst o s := rfl
@[simp] theorem exec_mrowv (o : TOp) (s : State) : exec (.mrowv o) s = execMrowv o s := rfl
@[simp] theorem exec_mvrow (o : TOp) (s : State) : exec (.mvrow o) s = execMvrow o s := rfl
@[simp] theorem exec_mcolv (o : TOp) (s : State) : exec (.mcolv o) s = execMcolv o s := rfl

@[simp] theorem view_read (o : RDOp) : (Instr.read o).view = .rd o := rfl
@[simp] theorem view_mov (o : GOp) : (Instr.mov o).view = .g 0x02 0 o := rfl
@[simp] theorem view_null (o : GOp) : (Instr.null o).view = .g 0x02 1 o := rfl
@[simp] theorem view_sel (o : G3Op) : (Instr.sel o).view = .g3 0x02 2 o := rfl
@[simp] theorem view_movi (o : IOp) : (Instr.movi o).view = .i 0x03 o := rfl
@[simp] theorem view_orhi (o : IOp) : (Instr.orhi o).view = .i 0x04 o := rfl
@[simp] theorem view_lpci (o : IOp) : (Instr.lpci o).view = .i 0x0B o := rfl
@[simp] theorem view_teq (o : GOp) : (Instr.teq o).view = .g 0x05 0 o := rfl
@[simp] theorem view_tne (o : GOp) : (Instr.tne o).view = .g 0x05 1 o := rfl
@[simp] theorem view_tlt (o : GOp) : (Instr.tlt o).view = .g 0x05 2 o := rfl
@[simp] theorem view_tltu (o : GOp) : (Instr.tltu o).view = .g 0x05 3 o := rfl
@[simp] theorem view_tle (o : GOp) : (Instr.tle o).view = .g 0x05 4 o := rfl
@[simp] theorem view_tleu (o : GOp) : (Instr.tleu o).view = .g 0x05 5 o := rfl
@[simp] theorem view_tgt (o : GOp) : (Instr.tgt o).view = .g 0x05 6 o := rfl
@[simp] theorem view_tgtu (o : GOp) : (Instr.tgtu o).view = .g 0x05 7 o := rfl
@[simp] theorem view_tge (o : GOp) : (Instr.tge o).view = .g 0x05 8 o := rfl
@[simp] theorem view_tgeu (o : GOp) : (Instr.tgeu o).view = .g 0x05 9 o := rfl
@[simp] theorem view_tbit (o : GOp) : (Instr.tbit o).view = .g 0x05 10 o := rfl
@[simp] theorem view_teqi (o : ITOp) : (Instr.teqi o).view = .it 0x06 0 o := rfl
@[simp] theorem view_tnei (o : ITOp) : (Instr.tnei o).view = .it 0x06 1 o := rfl
@[simp] theorem view_tlti (o : ITOp) : (Instr.tlti o).view = .it 0x06 2 o := rfl
@[simp] theorem view_tltui (o : ITOp) : (Instr.tltui o).view = .it 0x06 3 o := rfl
@[simp] theorem view_tlei (o : ITOp) : (Instr.tlei o).view = .it 0x06 4 o := rfl
@[simp] theorem view_tleui (o : ITOp) : (Instr.tleui o).view = .it 0x06 5 o := rfl
@[simp] theorem view_tgti (o : ITOp) : (Instr.tgti o).view = .it 0x06 6 o := rfl
@[simp] theorem view_tgtui (o : ITOp) : (Instr.tgtui o).view = .it 0x06 7 o := rfl
@[simp] theorem view_tgei (o : ITOp) : (Instr.tgei o).view = .it 0x06 8 o := rfl
@[simp] theorem view_tgeui (o : ITOp) : (Instr.tgeui o).view = .it 0x06 9 o := rfl
@[simp] theorem view_tbiti (o : ITOp) : (Instr.tbiti o).view = .it 0x06 10 o := rfl
@[simp] theorem view_br (o : BOp) : (Instr.br o).view = .b 0x07 o := rfl
@[simp] theorem view_call (o : BOp) : (Instr.call o).view = .b 0x08 o := rfl
@[simp] theorem view_bro (o : BXOp) : (Instr.bro o).view = .bx 0 o := rfl
@[simp] theorem view_callo (o : BXOp) : (Instr.callo o).view = .bx 1 o := rfl
@[simp] theorem view_halt (o : BXOp) : (Instr.halt o).view = .bx 2 o := rfl
@[simp] theorem view_yld (o : BXOp) : (Instr.yld o).view = .bx 3 o := rfl
@[simp] theorem view_sys (o : BXOp) : (Instr.sys o).view = .bx 4 o := rfl
@[simp] theorem view_brk (o : BXOp) : (Instr.brk o).view = .bx 5 o := rfl
@[simp] theorem view_spawn (o : GOp) : (Instr.spawn o).view = .g 0x0A 0 o := rfl
@[simp] theorem view_bar (o : GOp) : (Instr.bar o).view = .g 0x0A 1 o := rfl
@[simp] theorem view_gid (o : GOp) : (Instr.gid o).view = .g 0x0A 2 o := rfl
@[simp] theorem view_gsize (o : GOp) : (Instr.gsize o).view = .g 0x0A 3 o := rfl
@[simp] theorem view_cid (o : GOp) : (Instr.cid o).view = .g 0x0A 4 o := rfl
@[simp] theorem view_sleep (o : GOp) : (Instr.sleep o).view = .g 0x0A 5 o := rfl
@[simp] theorem view_add (o : GOp) : (Instr.add o).view = .g 0x10 0 o := rfl
@[simp] theorem view_sub (o : GOp) : (Instr.sub o).view = .g 0x10 1 o := rfl
@[simp] theorem view_mul (o : GOp) : (Instr.mul o).view = .g 0x10 2 o := rfl
@[simp] theorem view_mulh (o : GOp) : (Instr.mulh o).view = .g 0x10 3 o := rfl
@[simp] theorem view_mulhu (o : GOp) : (Instr.mulhu o).view = .g 0x10 4 o := rfl
@[simp] theorem view_div (o : GOp) : (Instr.div o).view = .g 0x10 5 o := rfl
@[simp] theorem view_divu (o : GOp) : (Instr.divu o).view = .g 0x10 6 o := rfl
@[simp] theorem view_rem (o : GOp) : (Instr.rem o).view = .g 0x10 7 o := rfl
@[simp] theorem view_remu (o : GOp) : (Instr.remu o).view = .g 0x10 8 o := rfl
@[simp] theorem view_and (o : GOp) : (Instr.and o).view = .g 0x10 9 o := rfl
@[simp] theorem view_or (o : GOp) : (Instr.or o).view = .g 0x10 10 o := rfl
@[simp] theorem view_xor (o : GOp) : (Instr.xor o).view = .g 0x10 11 o := rfl
@[simp] theorem view_andn (o : GOp) : (Instr.andn o).view = .g 0x10 12 o := rfl
@[simp] theorem view_shl (o : GOp) : (Instr.shl o).view = .g 0x10 13 o := rfl
@[simp] theorem view_shr (o : GOp) : (Instr.shr o).view = .g 0x10 14 o := rfl
@[simp] theorem view_sra (o : GOp) : (Instr.sra o).view = .g 0x10 15 o := rfl
@[simp] theorem view_rotl (o : GOp) : (Instr.rotl o).view = .g 0x11 0 o := rfl
@[simp] theorem view_rotr (o : GOp) : (Instr.rotr o).view = .g 0x11 1 o := rfl
@[simp] theorem view_min (o : GOp) : (Instr.min o).view = .g 0x11 2 o := rfl
@[simp] theorem view_max (o : GOp) : (Instr.max o).view = .g 0x11 3 o := rfl
@[simp] theorem view_minu (o : GOp) : (Instr.minu o).view = .g 0x11 4 o := rfl
@[simp] theorem view_maxu (o : GOp) : (Instr.maxu o).view = .g 0x11 5 o := rfl
@[simp] theorem view_clz (o : GOp) : (Instr.clz o).view = .g 0x11 6 o := rfl
@[simp] theorem view_ctz (o : GOp) : (Instr.ctz o).view = .g 0x11 7 o := rfl
@[simp] theorem view_popc (o : GOp) : (Instr.popc o).view = .g 0x11 8 o := rfl
@[simp] theorem view_sextb (o : GOp) : (Instr.sextb o).view = .g 0x11 9 o := rfl
@[simp] theorem view_sexth (o : GOp) : (Instr.sexth o).view = .g 0x11 10 o := rfl
@[simp] theorem view_sextw (o : GOp) : (Instr.sextw o).view = .g 0x11 11 o := rfl
@[simp] theorem view_zextb (o : GOp) : (Instr.zextb o).view = .g 0x11 12 o := rfl
@[simp] theorem view_zexth (o : GOp) : (Instr.zexth o).view = .g 0x11 13 o := rfl
@[simp] theorem view_zextw (o : GOp) : (Instr.zextw o).view = .g 0x11 14 o := rfl
@[simp] theorem view_abs (o : GOp) : (Instr.abs o).view = .g 0x11 15 o := rfl
@[simp] theorem view_addi (o : IOp) : (Instr.addi o).view = .i 0x12 o := rfl
@[simp] theorem view_andi (o : IOp) : (Instr.andi o).view = .i 0x13 o := rfl
@[simp] theorem view_ori (o : IOp) : (Instr.ori o).view = .i 0x14 o := rfl
@[simp] theorem view_xori (o : IOp) : (Instr.xori o).view = .i 0x15 o := rfl
@[simp] theorem view_shli (o : ITOp) : (Instr.shli o).view = .it 0x16 0 o := rfl
@[simp] theorem view_shri (o : ITOp) : (Instr.shri o).view = .it 0x16 1 o := rfl
@[simp] theorem view_srai (o : ITOp) : (Instr.srai o).view = .it 0x16 2 o := rfl
@[simp] theorem view_rotli (o : ITOp) : (Instr.rotli o).view = .it 0x16 3 o := rfl
@[simp] theorem view_muli (o : ITOp) : (Instr.muli o).view = .it 0x16 4 o := rfl
@[simp] theorem view_leai (o : ITOp) : (Instr.leai o).view = .it 0x16 5 o := rfl
@[simp] theorem view_faddS (o : GOp) : (Instr.faddS o).view = .g 0x17 0 o := rfl
@[simp] theorem view_fsubS (o : GOp) : (Instr.fsubS o).view = .g 0x17 1 o := rfl
@[simp] theorem view_fmulS (o : GOp) : (Instr.fmulS o).view = .g 0x17 2 o := rfl
@[simp] theorem view_fdivS (o : GOp) : (Instr.fdivS o).view = .g 0x17 3 o := rfl
@[simp] theorem view_fsqrtS (o : GOp) : (Instr.fsqrtS o).view = .g 0x17 4 o := rfl
@[simp] theorem view_fmaS (o : G3Op) : (Instr.fmaS o).view = .g3 0x17 5 o := rfl
@[simp] theorem view_fminS (o : GOp) : (Instr.fminS o).view = .g 0x17 6 o := rfl
@[simp] theorem view_fmaxS (o : GOp) : (Instr.fmaxS o).view = .g 0x17 7 o := rfl
@[simp] theorem view_frsqrtS (o : GOp) : (Instr.frsqrtS o).view = .g 0x17 8 o := rfl
@[simp] theorem view_fcvtfiS (o : GOp) : (Instr.fcvtfiS o).view = .g 0x17 9 o := rfl
@[simp] theorem view_fcvtifS (o : GOp) : (Instr.fcvtifS o).view = .g 0x17 10 o := rfl
@[simp] theorem view_fcvtffS (o : GOp) : (Instr.fcvtffS o).view = .g 0x17 11 o := rfl
@[simp] theorem view_fteqS (o : GOp) : (Instr.fteqS o).view = .g 0x17 12 o := rfl
@[simp] theorem view_ftltS (o : GOp) : (Instr.ftltS o).view = .g 0x17 13 o := rfl
@[simp] theorem view_ftleS (o : GOp) : (Instr.ftleS o).view = .g 0x17 14 o := rfl
@[simp] theorem view_fclassS (o : GOp) : (Instr.fclassS o).view = .g 0x17 15 o := rfl
@[simp] theorem view_faddD (o : GOp) : (Instr.faddD o).view = .g 0x18 0 o := rfl
@[simp] theorem view_fsubD (o : GOp) : (Instr.fsubD o).view = .g 0x18 1 o := rfl
@[simp] theorem view_fmulD (o : GOp) : (Instr.fmulD o).view = .g 0x18 2 o := rfl
@[simp] theorem view_fdivD (o : GOp) : (Instr.fdivD o).view = .g 0x18 3 o := rfl
@[simp] theorem view_fsqrtD (o : GOp) : (Instr.fsqrtD o).view = .g 0x18 4 o := rfl
@[simp] theorem view_fmaD (o : G3Op) : (Instr.fmaD o).view = .g3 0x18 5 o := rfl
@[simp] theorem view_fminD (o : GOp) : (Instr.fminD o).view = .g 0x18 6 o := rfl
@[simp] theorem view_fmaxD (o : GOp) : (Instr.fmaxD o).view = .g 0x18 7 o := rfl
@[simp] theorem view_frsqrtD (o : GOp) : (Instr.frsqrtD o).view = .g 0x18 8 o := rfl
@[simp] theorem view_fcvtfiD (o : GOp) : (Instr.fcvtfiD o).view = .g 0x18 9 o := rfl
@[simp] theorem view_fcvtifD (o : GOp) : (Instr.fcvtifD o).view = .g 0x18 10 o := rfl
@[simp] theorem view_fcvtffD (o : GOp) : (Instr.fcvtffD o).view = .g 0x18 11 o := rfl
@[simp] theorem view_fteqD (o : GOp) : (Instr.fteqD o).view = .g 0x18 12 o := rfl
@[simp] theorem view_ftltD (o : GOp) : (Instr.ftltD o).view = .g 0x18 13 o := rfl
@[simp] theorem view_ftleD (o : GOp) : (Instr.ftleD o).view = .g 0x18 14 o := rfl
@[simp] theorem view_fclassD (o : GOp) : (Instr.fclassD o).view = .g 0x18 15 o := rfl
@[simp] theorem view_ldb (o : MOp) : (Instr.ldb o).view = .mem 0x19 0 o := rfl
@[simp] theorem view_ldbu (o : MOp) : (Instr.ldbu o).view = .mem 0x19 1 o := rfl
@[simp] theorem view_ldh (o : MOp) : (Instr.ldh o).view = .mem 0x19 2 o := rfl
@[simp] theorem view_ldhu (o : MOp) : (Instr.ldhu o).view = .mem 0x19 3 o := rfl
@[simp] theorem view_ldw (o : MOp) : (Instr.ldw o).view = .mem 0x19 4 o := rfl
@[simp] theorem view_ldwu (o : MOp) : (Instr.ldwu o).view = .mem 0x19 5 o := rfl
@[simp] theorem view_ldd (o : MOp) : (Instr.ldd o).view = .mem 0x19 6 o := rfl
@[simp] theorem view_stb (o : MOp) : (Instr.stb o).view = .mem 0x1A 0 o := rfl
@[simp] theorem view_sth (o : MOp) : (Instr.sth o).view = .mem 0x1A 1 o := rfl
@[simp] theorem view_stw (o : MOp) : (Instr.stw o).view = .mem 0x1A 2 o := rfl
@[simp] theorem view_std (o : MOp) : (Instr.std o).view = .mem 0x1A 3 o := rfl
@[simp] theorem view_stqw (o : MOp) : (Instr.stqw o).view = .mem 0x1A 5 o := rfl
@[simp] theorem view_stqd (o : MOp) : (Instr.stqd o).view = .mem 0x1A 6 o := rfl
@[simp] theorem view_aadd (o : AOp) : (Instr.aadd o).view = .amo 0x1B 0 o := rfl
@[simp] theorem view_aand (o : AOp) : (Instr.aand o).view = .amo 0x1B 1 o := rfl
@[simp] theorem view_aor (o : AOp) : (Instr.aor o).view = .amo 0x1B 2 o := rfl
@[simp] theorem view_axor (o : AOp) : (Instr.axor o).view = .amo 0x1B 3 o := rfl
@[simp] theorem view_amin (o : AOp) : (Instr.amin o).view = .amo 0x1B 4 o := rfl
@[simp] theorem view_amax (o : AOp) : (Instr.amax o).view = .amo 0x1B 5 o := rfl
@[simp] theorem view_aminu (o : AOp) : (Instr.aminu o).view = .amo 0x1B 6 o := rfl
@[simp] theorem view_amaxu (o : AOp) : (Instr.amaxu o).view = .amo 0x1B 7 o := rfl
@[simp] theorem view_aswap (o : AOp) : (Instr.aswap o).view = .amo 0x1B 8 o := rfl
@[simp] theorem view_acas (o : A3Op) : (Instr.acas o).view = .amo3 9 o := rfl
@[simp] theorem view_ainc (o : AOp) : (Instr.ainc o).view = .amo 0x1B 10 o := rfl
@[simp] theorem view_abfa (o : A3Op) : (Instr.abfa o).view = .amo3 11 o := rfl
@[simp] theorem view_aaddw (o : AOp) : (Instr.aaddw o).view = .amo 0x1B 12 o := rfl
@[simp] theorem view_acasw (o : A3Op) : (Instr.acasw o).view = .amo3 13 o := rfl
@[simp] theorem view_aincw (o : AOp) : (Instr.aincw o).view = .amo 0x1B 14 o := rfl
@[simp] theorem view_fenceAcq (o : AOp) : (Instr.fenceAcq o).view = .amo 0x1C 0 o := rfl
@[simp] theorem view_fenceRel (o : AOp) : (Instr.fenceRel o).view = .amo 0x1C 1 o := rfl
@[simp] theorem view_fenceAr (o : AOp) : (Instr.fenceAr o).view = .amo 0x1C 2 o := rfl
@[simp] theorem view_fenceSc (o : AOp) : (Instr.fenceSc o).view = .amo 0x1C 3 o := rfl
@[simp] theorem view_scopeSet (o : AOp) : (Instr.scopeSet o).view = .amo 0x1C 4 o := rfl
@[simp] theorem view_scopeGet (o : AOp) : (Instr.scopeGet o).view = .amo 0x1C 5 o := rfl
@[simp] theorem view_scopeInv (o : AOp) : (Instr.scopeInv o).view = .amo 0x1C 6 o := rfl
@[simp] theorem view_scopeGen (o : AOp) : (Instr.scopeGen o).view = .amo 0x1C 7 o := rfl
@[simp] theorem view_qtime (o : GOp) : (Instr.qtime o).view = .g 0x1D 0 o := rfl
@[simp] theorem view_qlocal (o : GOp) : (Instr.qlocal o).view = .g 0x1D 1 o := rfl
@[simp] theorem view_qdl (o : GOp) : (Instr.qdl o).view = .g 0x1D 2 o := rfl
@[simp] theorem view_qper (o : GOp) : (Instr.qper o).view = .g 0x1D 3 o := rfl
@[simp] theorem view_ctlRd (o : GOp) : (Instr.ctlRd o).view = .g 0x1E 0 o := rfl
@[simp] theorem view_ctlWr (o : GOp) : (Instr.ctlWr o).view = .g 0x1E 1 o := rfl
@[simp] theorem view_tret (o : GOp) : (Instr.tret o).view = .g 0x1E 2 o := rfl
@[simp] theorem view_tlbInv (o : GOp) : (Instr.tlbInv o).view = .g 0x1E 3 o := rfl
@[simp] theorem view_ctxSave (o : GOp) : (Instr.ctxSave o).view = .g 0x1E 4 o := rfl
@[simp] theorem view_ctxLoad (o : GOp) : (Instr.ctxLoad o).view = .g 0x1E 5 o := rfl
@[simp] theorem view_vlset (o : GOp) : (Instr.vlset o).view = .g 0x2A 0 o := rfl
@[simp] theorem view_vlget (o : GOp) : (Instr.vlget o).view = .g 0x2A 1 o := rfl
@[simp] theorem view_vlmax (o : GOp) : (Instr.vlmax o).view = .g 0x2A 2 o := rfl
@[simp] theorem view_vrel (o : GOp) : (Instr.vrel o).view = .g 0x2A 3 o := rfl
@[simp] theorem view_vgrant (o : GOp) : (Instr.vgrant o).view = .g 0x2A 4 o := rfl
@[simp] theorem view_vawin (o : GOp) : (Instr.vawin o).view = .g 0x2F 0 o := rfl
@[simp] theorem view_vamerge (o : GOp) : (Instr.vamerge o).view = .g 0x2F 1 o := rfl
@[simp] theorem view_vawclr (o : GOp) : (Instr.vawclr o).view = .g 0x2F 2 o := rfl
@[simp] theorem view_cpsCfg (o : CPOp) : (Instr.cpsCfg o).view = .cp 0 o := rfl
@[simp] theorem view_cpsGo (o : CPOp) : (Instr.cpsGo o).view = .cp 1 o := rfl
@[simp] theorem view_cpsStep (o : CPOp) : (Instr.cpsStep o).view = .cp 2 o := rfl
@[simp] theorem view_cpsAvail (o : CPOp) : (Instr.cpsAvail o).view = .cp 3 o := rfl
@[simp] theorem view_cpsWait (o : CPOp) : (Instr.cpsWait o).view = .cp 4 o := rfl
@[simp] theorem view_cpsKill (o : CPOp) : (Instr.cpsKill o).view = .cp 5 o := rfl
@[simp] theorem view_cMov (o : COp) : (Instr.cMov o).view = .c 0 o := rfl
@[simp] theorem view_cNull (o : COp) : (Instr.cNull o).view = .c 1 o := rfl
@[simp] theorem view_cInc (o : COp) : (Instr.cInc o).view = .c 2 o := rfl
@[simp] theorem view_cDec (o : COp) : (Instr.cDec o).view = .c 3 o := rfl
@[simp] theorem view_cNot (o : COp) : (Instr.cNot o).view = .c 4 o := rfl
@[simp] theorem view_cNeg (o : COp) : (Instr.cNeg o).view = .c 5 o := rfl
@[simp] theorem view_cZextw (o : COp) : (Instr.cZextw o).view = .c 6 o := rfl
@[simp] theorem view_cSextw (o : COp) : (Instr.cSextw o).view = .c 7 o := rfl
@[simp] theorem view_cZero (o : COp) : (Instr.cZero o).view = .c 8 o := rfl
@[simp] theorem view_cOne (o : COp) : (Instr.cOne o).view = .c 9 o := rfl
@[simp] theorem view_vadd (o : VOp) : (Instr.vadd o).view = .v 0x20 0 o := rfl
@[simp] theorem view_vsub (o : VOp) : (Instr.vsub o).view = .v 0x20 1 o := rfl
@[simp] theorem view_vrsub (o : VOp) : (Instr.vrsub o).view = .v 0x20 2 o := rfl
@[simp] theorem view_vmul (o : VOp) : (Instr.vmul o).view = .v 0x20 3 o := rfl
@[simp] theorem view_vmulh (o : VOp) : (Instr.vmulh o).view = .v 0x20 4 o := rfl
@[simp] theorem view_vmadd (o : VOp) : (Instr.vmadd o).view = .v 0x20 5 o := rfl
@[simp] theorem view_vmsub (o : VOp) : (Instr.vmsub o).view = .v 0x20 6 o := rfl
@[simp] theorem view_vnmadd (o : VOp) : (Instr.vnmadd o).view = .v 0x20 7 o := rfl
@[simp] theorem view_vdiv (o : VOp) : (Instr.vdiv o).view = .v 0x21 0 o := rfl
@[simp] theorem view_vrem (o : VOp) : (Instr.vrem o).view = .v 0x21 1 o := rfl
@[simp] theorem view_vsqrt (o : VOp) : (Instr.vsqrt o).view = .v 0x21 2 o := rfl
@[simp] theorem view_vrsqrt (o : VOp) : (Instr.vrsqrt o).view = .v 0x21 3 o := rfl
@[simp] theorem view_vrecip (o : VOp) : (Instr.vrecip o).view = .v 0x21 4 o := rfl
@[simp] theorem view_vmin (o : VOp) : (Instr.vmin o).view = .v 0x21 5 o := rfl
@[simp] theorem view_vmax (o : VOp) : (Instr.vmax o).view = .v 0x21 6 o := rfl
@[simp] theorem view_vabs (o : VOp) : (Instr.vabs o).view = .v 0x21 7 o := rfl
@[simp] theorem view_vand (o : VOp) : (Instr.vand o).view = .v 0x22 0 o := rfl
@[simp] theorem view_vor (o : VOp) : (Instr.vor o).view = .v 0x22 1 o := rfl
@[simp] theorem view_vxor (o : VOp) : (Instr.vxor o).view = .v 0x22 2 o := rfl
@[simp] theorem view_vnot (o : VOp) : (Instr.vnot o).view = .v 0x22 3 o := rfl
@[simp] theorem view_vshl (o : VOp) : (Instr.vshl o).view = .v 0x22 4 o := rfl
@[simp] theorem view_vshr (o : VOp) : (Instr.vshr o).view = .v 0x22 5 o := rfl
@[simp] theorem view_vsra (o : VOp) : (Instr.vsra o).view = .v 0x22 6 o := rfl
@[simp] theorem view_vneg (o : VOp) : (Instr.vneg o).view = .v 0x22 7 o := rfl
@[simp] theorem view_vsadd (o : VOp) : (Instr.vsadd o).view = .v 0x23 0 o := rfl
@[simp] theorem view_vssub (o : VOp) : (Instr.vssub o).view = .v 0x23 1 o := rfl
@[simp] theorem view_vaadd (o : VOp) : (Instr.vaadd o).view = .v 0x23 2 o := rfl
@[simp] theorem view_vsmul (o : VOp) : (Instr.vsmul o).view = .v 0x23 3 o := rfl
@[simp] theorem view_vnclip (o : VOp) : (Instr.vnclip o).view = .v 0x23 4 o := rfl
@[simp] theorem view_vnsra (o : VOp) : (Instr.vnsra o).view = .v 0x23 5 o := rfl
@[simp] theorem view_vclass (o : VOp) : (Instr.vclass o).view = .v 0x23 6 o := rfl
@[simp] theorem view_vcvt (o : VOp) : (Instr.vcvt o).view = .v 0x24 0 o := rfl
@[simp] theorem view_vcvtmx (o : VOp) : (Instr.vcvtmx o).view = .v 0x24 1 o := rfl
@[simp] theorem view_vmerge (o : VOp) : (Instr.vmerge o).view = .v 0x24 2 o := rfl
@[simp] theorem view_vid (o : VOp) : (Instr.vid o).view = .v 0x24 3 o := rfl
@[simp] theorem view_vperm (o : VOp) : (Instr.vperm o).view = .v 0x24 4 o := rfl
@[simp] theorem view_vslup (o : VOp) : (Instr.vslup o).view = .v 0x24 5 o := rfl
@[simp] theorem view_vsldn (o : VOp) : (Instr.vsldn o).view = .v 0x24 6 o := rfl
@[simp] theorem view_vcompress (o : VOp) : (Instr.vcompress o).view = .v 0x24 7 o := rfl
@[simp] theorem view_vceq (o : VOp) : (Instr.vceq o).view = .v 0x25 0 o := rfl
@[simp] theorem view_vcne (o : VOp) : (Instr.vcne o).view = .v 0x25 1 o := rfl
@[simp] theorem view_vclt (o : VOp) : (Instr.vclt o).view = .v 0x25 2 o := rfl
@[simp] theorem view_vcle (o : VOp) : (Instr.vcle o).view = .v 0x25 3 o := rfl
@[simp] theorem view_vcgt (o : VOp) : (Instr.vcgt o).view = .v 0x25 4 o := rfl
@[simp] theorem view_vcge (o : VOp) : (Instr.vcge o).view = .v 0x25 5 o := rfl
@[simp] theorem view_vcun (o : VOp) : (Instr.vcun o).view = .v 0x25 6 o := rfl
@[simp] theorem view_vrsum (o : VOp) : (Instr.vrsum o).view = .v 0x26 0 o := rfl
@[simp] theorem view_vrosum (o : VOp) : (Instr.vrosum o).view = .v 0x26 1 o := rfl
@[simp] theorem view_vrmax (o : VOp) : (Instr.vrmax o).view = .v 0x26 2 o := rfl
@[simp] theorem view_vrmin (o : VOp) : (Instr.vrmin o).view = .v 0x26 3 o := rfl
@[simp] theorem view_vrand (o : VOp) : (Instr.vrand o).view = .v 0x26 4 o := rfl
@[simp] theorem view_vror (o : VOp) : (Instr.vror o).view = .v 0x26 5 o := rfl
@[simp] theorem view_vrxor (o : VOp) : (Instr.vrxor o).view = .v 0x26 6 o := rfl
@[simp] theorem view_vrsummx (o : VOp) : (Instr.vrsummx o).view = .v 0x26 7 o := rfl
@[simp] theorem view_vadds (o : VOp) : (Instr.vadds o).view = .v 0x27 0 o := rfl
@[simp] theorem view_vsubs (o : VOp) : (Instr.vsubs o).view = .v 0x27 1 o := rfl
@[simp] theorem view_vmuls (o : VOp) : (Instr.vmuls o).view = .v 0x27 2 o := rfl
@[simp] theorem view_vmadds (o : VOp) : (Instr.vmadds o).view = .v 0x27 3 o := rfl
@[simp] theorem view_vmins (o : VOp) : (Instr.vmins o).view = .v 0x27 4 o := rfl
@[simp] theorem view_vmaxs (o : VOp) : (Instr.vmaxs o).view = .v 0x27 5 o := rfl
@[simp] theorem view_vshls (o : VOp) : (Instr.vshls o).view = .v 0x27 6 o := rfl
@[simp] theorem view_vbcast (o : VOp) : (Instr.vbcast o).view = .v 0x27 7 o := rfl
@[simp] theorem view_vext (o : VXOp) : (Instr.vext o).view = .vx 0 o := rfl
@[simp] theorem view_vcnt (o : VXOp) : (Instr.vcnt o).view = .vx 1 o := rfl
@[simp] theorem view_mpop (o : VXOp) : (Instr.mpop o).view = .vx 2 o := rfl
@[simp] theorem view_mfirst (o : VXOp) : (Instr.mfirst o).view = .vx 3 o := rfl
@[simp] theorem view_vins (o : VOp) : (Instr.vins o).view = .v 0x29 0 o := rfl
@[simp] theorem view_mand (o : VOp) : (Instr.mand o).view = .v 0x2B 0 o := rfl
@[simp] theorem view_mor (o : VOp) : (Instr.mor o).view = .v 0x2B 1 o := rfl
@[simp] theorem view_mxor (o : VOp) : (Instr.mxor o).view = .v 0x2B 2 o := rfl
@[simp] theorem view_mandn (o : VOp) : (Instr.mandn o).view = .v 0x2B 3 o := rfl
@[simp] theorem view_mnot (o : VOp) : (Instr.mnot o).view = .v 0x2B 4 o := rfl
@[simp] theorem view_mset (o : VOp) : (Instr.mset o).view = .v 0x2B 5 o := rfl
@[simp] theorem view_mclr (o : VOp) : (Instr.mclr o).view = .v 0x2B 6 o := rfl
@[simp] theorem view_mfromv (o : VOp) : (Instr.mfromv o).view = .v 0x2B 7 o := rfl
@[simp] theorem view_vld (o : VMOp) : (Instr.vld o).view = .vm 0x2C 0 o := rfl
@[simp] theorem view_vlds (o : VMOp) : (Instr.vlds o).view = .vm 0x2C 1 o := rfl
@[simp] theorem view_vldx (o : VMOp) : (Instr.vldx o).view = .vm 0x2C 2 o := rfl
@[simp] theorem view_vldseg (o : VMOp) : (Instr.vldseg o).view = .vm 0x2C 3 o := rfl
@[simp] theorem view_vldff (o : VMOp) : (Instr.vldff o).view = .vm 0x2C 4 o := rfl
@[simp] theorem view_vldxo (o : VMOp) : (Instr.vldxo o).view = .vm 0x2C 5 o := rfl
@[simp] theorem view_vldmx (o : VMOp) : (Instr.vldmx o).view = .vm 0x2C 6 o := rfl
@[simp] theorem view_vldcs (o : VMOp) : (Instr.vldcs o).view = .vm 0x2C 7 o := rfl
@[simp] theorem view_vst (o : VMOp) : (Instr.vst o).view = .vm 0x2D 0 o := rfl
@[simp] theorem view_vsts (o : VMOp) : (Instr.vsts o).view = .vm 0x2D 1 o := rfl
@[simp] theorem view_vstx (o : VMOp) : (Instr.vstx o).view = .vm 0x2D 2 o := rfl
@[simp] theorem view_vstseg (o : VMOp) : (Instr.vstseg o).view = .vm 0x2D 3 o := rfl
@[simp] theorem view_vstxo (o : VMOp) : (Instr.vstxo o).view = .vm 0x2D 4 o := rfl
@[simp] theorem view_vsto (o : VMOp) : (Instr.vsto o).view = .vm 0x2D 5 o := rfl
@[simp] theorem view_vstmx (o : VMOp) : (Instr.vstmx o).view = .vm 0x2D 6 o := rfl
@[simp] theorem view_vgl (o : VMOp) : (Instr.vgl o).view = .vm 0x2E 0 o := rfl
@[simp] theorem view_vsc (o : VMOp) : (Instr.vsc o).view = .vm 0x2E 1 o := rfl
@[simp] theorem view_vacc (o : VMOp) : (Instr.vacc o).view = .vm 0x2E 2 o := rfl
@[simp] theorem view_vwait (o : VMOp) : (Instr.vwait o).view = .vm 0x2E 3 o := rfl
@[simp] theorem view_mshape (o : TOp) : (Instr.mshape o).view = .tile 0 o := rfl
@[simp] theorem view_mzero (o : TOp) : (Instr.mzero o).view = .tile 1 o := rfl
@[simp] theorem view_mop (o : TOp) : (Instr.mop o).view = .tile 2 o := rfl
@[simp] theorem view_mopmx (o : TOp) : (Instr.mopmx o).view = .tile 3 o := rfl
@[simp] theorem view_mopd (o : TOp) : (Instr.mopd o).view = .tile 4 o := rfl
@[simp] theorem view_mld (o : TOp) : (Instr.mld o).view = .tile 5 o := rfl
@[simp] theorem view_mst (o : TOp) : (Instr.mst o).view = .tile 6 o := rfl
@[simp] theorem view_mrowv (o : TOp) : (Instr.mrowv o).view = .tile 7 o := rfl
@[simp] theorem view_mvrow (o : TOp) : (Instr.mvrow o).view = .tile 8 o := rfl
@[simp] theorem view_mcolv (o : TOp) : (Instr.mcolv o).view = .tile 9 o := rfl

end Sys2Proof.Machine
end

