-- ==== Sys2Proof/Laws/Map.lean ====
section
/-! SUPPORT. Laws of the sparse maps: reading after writing, after removing and after changing, and that every operation keeps the keys
strictly rising. -/

namespace Sys2Proof

variable {α : Type}

theorem NMap.get?_put_self (m : NMap α) (n : Nat) (x : α) : (m.put n x).get? n = some x := by
  induction m with
  | nil => simp [NMap.put, NMap.get?]
  | cons kv m ih =>
    obtain ⟨k, v⟩ := kv
    by_cases h : n = k
    · simp [NMap.put, NMap.get?, h]
    · by_cases h' : n < k
      · simp [NMap.put, NMap.get?, h, h']
      · simp [NMap.put, NMap.get?, h, h', ih]

theorem NMap.get?_put_other (m : NMap α) (n k : Nat) (x : α) (h : k ≠ n) : (m.put n x).get? k = m.get? k := by
  induction m with
  | nil => simp [NMap.put, NMap.get?, h]
  | cons kv m ih =>
    obtain ⟨j, v⟩ := kv
    simp only [NMap.put]
    split
    · subst_vars
      simp only [NMap.get?, h, if_false]
    · split
      · rename_i h1 h2
        simp only [NMap.get?, h, if_false]
        split
        · split
          · omega
          · split
            · rfl
            · omega
        · rfl
      · simp only [NMap.get?, ih]

/-- A map whose keys strictly rise, said of its head. -/
theorem NMap.sorted_cons (a : Nat × α) (m : NMap α) : NMap.sorted (a :: m) = true ↔ (∀ b ∈ m.head?, a.1 < b.1) ∧ NMap.sorted m = true := by
  cases m with
  | nil => simp [NMap.sorted]
  | cons b m => simp [NMap.sorted]

theorem NMap.lt_of_sorted (a : Nat × α) (m : NMap α) (h : NMap.sorted (a :: m) = true) : ∀ b ∈ m, a.1 < b.1 := by
  induction m generalizing a with
  | nil => simp
  | cons b m ih =>
    rw [NMap.sorted_cons] at h
    obtain ⟨h1, h2⟩ := h
    have hab : a.1 < b.1 := h1 b (by simp)
    intro c hc
    rcases List.mem_cons.1 hc with rfl | hc
    · exact hab
    · exact Nat.lt_trans hab (ih b h2 c hc)

theorem NMap.sorted_of_lt (a : Nat × α) (m : NMap α) (h : ∀ b ∈ m, a.1 < b.1) (hm : NMap.sorted m = true) : NMap.sorted (a :: m) = true := by
  rw [NMap.sorted_cons]
  exact ⟨fun b hb => h b (List.mem_of_head? hb), hm⟩

theorem NMap.sorted_tail (a : Nat × α) (m : NMap α) (h : NMap.sorted (a :: m) = true) : NMap.sorted m = true := ((NMap.sorted_cons a m).1 h).2

theorem NMap.mem_put (m : NMap α) (n : Nat) (x : α) : ∀ b ∈ m.put n x, b = (n, x) ∨ b ∈ m := by
  induction m with
  | nil => simp [NMap.put]
  | cons kv m ih =>
    obtain ⟨k, v⟩ := kv
    intro b hb
    simp only [NMap.put] at hb
    split at hb
    · rcases List.mem_cons.1 hb with h | h
      · exact .inl h
      · exact .inr (List.mem_cons_of_mem _ h)
    · split at hb
      · rcases List.mem_cons.1 hb with h | h
        · exact .inl h
        · exact .inr h
      · rcases List.mem_cons.1 hb with h | h
        · exact .inr (by simp [h])
        · rcases ih b h with h | h
          · exact .inl h
          · exact .inr (List.mem_cons_of_mem _ h)

theorem NMap.sorted_put (m : NMap α) (n : Nat) (x : α) (h : NMap.sorted m = true) : NMap.sorted (m.put n x) = true := by
  induction m with
  | nil => simp [NMap.put, NMap.sorted]
  | cons kv m ih =>
    obtain ⟨k, v⟩ := kv
    have hlt := NMap.lt_of_sorted _ _ h
    have ht := NMap.sorted_tail _ _ h
    simp only [NMap.put]
    split
    · subst_vars; exact NMap.sorted_of_lt _ _ hlt ht
    · split
      · rename_i h2
        refine NMap.sorted_of_lt _ _ (fun b hb => ?_) h
        rcases List.mem_cons.1 hb with rfl | hb
        · exact h2
        · exact Nat.lt_trans h2 (hlt b hb)
      · refine NMap.sorted_of_lt _ _ (fun b hb => ?_) (ih ht)
        rcases NMap.mem_put m n x b hb with rfl | hb
        · show k < n; omega
        · exact hlt b hb

theorem NMap.mem_erase (m : NMap α) (n : Nat) : ∀ b ∈ m.erase n, b ∈ m := by
  induction m with
  | nil => simp [NMap.erase]
  | cons kv m ih =>
    obtain ⟨k, v⟩ := kv
    intro b hb
    simp only [NMap.erase] at hb
    split at hb
    · exact List.mem_cons_of_mem _ hb
    · split at hb
      · exact hb
      · rcases List.mem_cons.1 hb with h | h
        · simp [h]
        · exact List.mem_cons_of_mem _ (ih b h)

theorem NMap.sorted_erase (m : NMap α) (n : Nat) (h : NMap.sorted m = true) : NMap.sorted (m.erase n) = true := by
  induction m with
  | nil => simp [NMap.erase, NMap.sorted]
  | cons kv m ih =>
    obtain ⟨k, v⟩ := kv
    have hlt := NMap.lt_of_sorted _ _ h
    have ht := NMap.sorted_tail _ _ h
    simp only [NMap.erase]
    split
    · exact ht
    · split
      · exact h
      · exact NMap.sorted_of_lt _ _ (fun b hb => hlt b (NMap.mem_erase m n b hb)) (ih ht)

theorem NMap.sorted_filter (m : NMap α) (p : Nat × α → Bool) (h : NMap.sorted m = true) : NMap.sorted (m.filter p) = true := by
  induction m with
  | nil => simp [NMap.sorted]
  | cons a m ih =>
    have hlt := NMap.lt_of_sorted _ _ h
    have ht := NMap.sorted_tail _ _ h
    rw [List.filter_cons]
    split
    · exact NMap.sorted_of_lt _ _ (fun b hb => hlt b (List.mem_filter.1 hb).1) (ih ht)
    · exact ih ht

theorem NMap.get?_of_lt (m : NMap α) (n : Nat) (h : ∀ b ∈ m, n < b.1) : m.get? n = none := by
  cases m with
  | nil => rfl
  | cons kv m =>
    obtain ⟨k, v⟩ := kv
    have : n < k := h (k, v) (by simp)
    simp [NMap.get?, Nat.ne_of_lt this, this]

theorem NMap.get?_erase_self (m : NMap α) (n : Nat) (h : NMap.sorted m = true) : (m.erase n).get? n = none := by
  induction m with
  | nil => rfl
  | cons kv m ih =>
    obtain ⟨k, v⟩ := kv
    have hlt := NMap.lt_of_sorted _ _ h
    simp only [NMap.erase]
    split
    · subst_vars; exact NMap.get?_of_lt m _ hlt
    · split
      · rename_i h1 h2; simp [NMap.get?, h1, h2]
      · rename_i h1 h2; simp [NMap.get?, h1, h2, ih (NMap.sorted_tail _ _ h)]

theorem NMap.get?_erase_other (m : NMap α) (n k : Nat) (h : NMap.sorted m = true) (hk : k ≠ n) : (m.erase n).get? k = m.get? k := by
  induction m with
  | nil => rfl
  | cons kv m ih =>
    obtain ⟨j, v⟩ := kv
    have hlt := NMap.lt_of_sorted _ _ h
    have ht := NMap.sorted_tail _ _ h
    simp only [NMap.erase]
    split
    · rename_i hn
      subst hn
      by_cases hj : k < n
      · rw [NMap.get?_of_lt m k (fun b hb => Nat.lt_trans hj (hlt b hb))]
        simp [NMap.get?, hk, hj]
      · simp [NMap.get?, hk, hj]
    · split
      · rfl
      · simp only [NMap.get?, ih ht]

theorem NMap.get?_adjust_other (m : NMap α) (n k : Nat) (f : α → α) (h : k ≠ n) : (m.adjust n f).get? k = m.get? k := by
  unfold NMap.adjust
  split
  · exact NMap.get?_put_other m n k _ h
  · rfl

theorem NMap.get?_adjust_self (m : NMap α) (n : Nat) (f : α → α) : (m.adjust n f).get? n = (m.get? n).map f := by
  unfold NMap.adjust
  cases h : m.get? n with
  | none => simp [h]
  | some x => simp [NMap.get?_put_self]

/-- The second of two writes at a key is the one that stands. -/
theorem NMap.put_put (m : NMap α) (n : Nat) (x y : α) : (m.put n x).put n y = m.put n y := by
  induction m with
  | nil => simp [NMap.put]
  | cons a m ih =>
    obtain ⟨k, v⟩ := a
    by_cases h : n = k
    · simp [NMap.put, h]
    · by_cases h2 : n < k
      · simp [NMap.put, h, h2]
      · simp [NMap.put, h, h2, ih]

/-- Two changes at a key one after the other are one. -/
theorem NMap.adjust_adjust (m : NMap α) (n : Nat) (f g : α → α) : (m.adjust n f).adjust n g = m.adjust n (g ∘ f) := by
  cases h : m.get? n with
  | none => simp [NMap.adjust, h]
  | some x => simp [NMap.adjust, h, NMap.get?_put_self, NMap.put_put]

theorem NMap.get?_mapVals (m : NMap α) (f : Nat → α → α) (n : Nat) : (m.mapVals f).get? n = (m.get? n).map (f n) := by
  induction m with
  | nil => rfl
  | cons kv m ih =>
    obtain ⟨k, v⟩ := kv
    simp only [NMap.mapVals, List.map_cons, NMap.get?]
    split
    · subst_vars; rfl
    · split
      · rfl
      · exact ih

end Sys2Proof
end

