-- ==== Sys2Proof/Laws/Instr.lean ====
section
/-! SUPPORT. What the shared operations of the front-end meanings do when the instruction at the cursor fires (R69 to R71): one lemma for
each, which the statements about single instructions cite. -/

namespace Sys2Proof.Machine

open Sys2Proof

/-- What a meaning has at hand when its instruction fires. -/
def State.ctxOf (s : State) (v : View) (t : Strand) (w : Window) : Ctx := mkCtx s.cursor.sid s.cursor.idx t w v s.front.stop

theorem ready_of_fires {s : State} {v : View} {t : Strand} {w : Window} (h : s.fires v t w) : s.ready? v = some (s.ctxOf v t w) := by
  obtain ⟨⟨h1, h2, -⟩, h3, h4, h5, h6, h7, h8, h9, h10⟩ := h
  simp only [State.front] at h4 h5 h8
  simp [State.ready?, State.strand?, State.allows, h1, h2, h3, Region.stepping, h4, h5, h6, Window.live, h7, h8, h9, h10, State.ctxOf, State.front]

theorem null_of_fires {s : State} {v : View} {t : Strand} {w : Window} (h : s.fires v t w) : (s.ctxOf v t w).null = false := h.2.2.2.2.2.2.2.1

theorem ready_of_firesNull {s : State} {v : View} {t : Strand} {w : Window} (h : s.firesNull v t w) : s.ready? v = some (s.ctxOf v t w) := by
  obtain ⟨⟨h1, h2, -⟩, h3, h4, h5, h6, h7, h8, h9, h10⟩ := h
  simp only [State.front] at h4 h5 h8
  simp only [Bool.and_eq_false_iff] at h10
  simp [State.ready?, State.strand?, State.allows, h10, h1, h2, h3, Region.stepping, h4, h5, h6, Window.live, h7, h8, h9, State.ctxOf, State.front]

theorem run_of_fires {s : State} {v : View} {t : Strand} {w : Window} (body : State → Ctx → State) (h : s.fires v t w) :
    s.run v body = .next (body s.didFire (s.ctxOf v t w)) := by
  simp only [State.run, ready_of_fires h, null_of_fires h, Bool.false_eq_true, if_false]
  rfl

theorem run_of_firesNull {s : State} {v : View} {t : Strand} {w : Window} (body : State → Ctx → State) (h : s.firesNull v t w) :
    s.run v body = .next (s.nullInstr (s.ctxOf v t w) v) := by
  have hn : (s.ctxOf v t w).null = true := h.2.2.2.2.2.2.2.1
  simp [State.run, ready_of_firesNull h, hn]

theorem runWhen_of_fires {s : State} {v : View} {t : Strand} {w : Window} (cond : State → Ctx → Bool) (body : State → Ctx → State)
    (h : s.fires v t w) (hc : cond s (s.ctxOf v t w) = true) : s.runWhen v cond body = .next (body s.didFire (s.ctxOf v t w)) := by
  simp only [State.runWhen, ready_of_fires h, null_of_fires h, hc, Bool.false_eq_true, if_false, if_true]
  rfl

@[simp] theorem updWin_cores (s : State) (sid : Nat) (f : Window → Window) : (s.updWin sid f).cores = s.cores := rfl
@[simp] theorem updWin_core (s : State) (sid c : Nat) (f : Window → Window) : (s.updWin sid f).core c = s.core c := rfl
@[simp] theorem updWin_now (s : State) (sid : Nat) (f : Window → Window) : (s.updWin sid f).now = s.now := rfl
@[simp] theorem updWin_cursor (s : State) (sid : Nat) (f : Window → Window) : (s.updWin sid f).cursor = s.cursor := rfl
@[simp] theorem didFire_core (s : State) (c : Nat) : s.didFire.core c = s.core c := rfl
@[simp] theorem didFire_now (s : State) : s.didFire.now = s.now := rfl
@[simp] theorem didFire_cursor (s : State) : s.didFire.cursor = s.cursor := rfl
@[simp] theorem ctxOf_sid (s : State) (v : View) (t : Strand) (w : Window) : (s.ctxOf v t w).sid = s.cursor.sid := rfl
@[simp] theorem ctxOf_idx (s : State) (v : View) (t : Strand) (w : Window) : (s.ctxOf v t w).idx = s.cursor.idx := rfl
@[simp] theorem ctxOf_t (s : State) (v : View) (t : Strand) (w : Window) : (s.ctxOf v t w).t = t := rfl
@[simp] theorem ctxOf_w (s : State) (v : View) (t : Strand) (w : Window) : (s.ctxOf v t w).w = w := rfl
@[simp] theorem ctxOf_l (s : State) (v : View) (t : Strand) (w : Window) : (s.ctxOf v t w).l = s.left w := rfl
@[simp] theorem ctxOf_r (s : State) (v : View) (t : Strand) (w : Window) : (s.ctxOf v t w).r = s.right w := rfl
@[simp] theorem ctxOf_x (s : State) (v : View) (t : Strand) (w : Window) : (s.ctxOf v t w).x = s.third w := rfl
@[simp] theorem ctxOf_at (s : State) (v : View) (t : Strand) (w : Window) : (s.ctxOf v t w).at_ = s.front.stop := rfl

/-- Two updates of the running block one after the other are one. -/
theorem updWin_updWin (s : State) (sid : Nat) (f g : Window → Window) : (s.updWin sid f).updWin sid g = s.updWin sid fun w => g (f w) := by
  have e : ((fun t : Strand => t.updWin g) ∘ fun t : Strand => t.updWin f) = fun t : Strand => t.updWin fun w => g (f w) := by
    funext t; simp [Strand.updWin, Option.map_map, Function.comp_def]
  simp only [State.updWin, State.updStrand, NMap.adjust_adjust, e]

/-- Changing the running block of a strand that is known with it. -/
theorem updWin_eq {s : State} {sid : Nat} {t : Strand} {w : Window} (h : s.strands.get? sid = some t) (hw : t.win = some w) (f : Window → Window) :
    s.updWin sid f = s.updStrand sid (·.withWin (f w)) := by
  simp [State.updWin, State.updStrand, NMap.adjust, h, Strand.updWin, Strand.withWin, hw]

@[simp] theorem updCore_core (s : State) (c : Nat) (f : Core → Core) : (s.updCore c f).core c = f (s.core c) := by
  simp [State.core, State.updCore, NMap.getD, NMap.get?_put_self]

/-- Two updates of a core one after the other are one. -/
theorem updCore_updCore (s : State) (c : Nat) (f g : Core → Core) : (s.updCore c f).updCore c g = s.updCore c fun k => g (f k) := by
  have h := updCore_core s c f
  simp only [State.updCore] at *
  simp [h, NMap.put_put]

/-- The token of a step under way is the same on every later state of the meaning that has the same cores and the same time. -/
theorem tokAt_of_fires {s u : State} {v : View} {t : Strand} {w : Window} (x : Tok) (h : s.fires v t w) (hc : u.cores = s.cores)
    (hn : u.now = s.now) : u.tokAt (coreOf s.cursor.sid) x = s.token x := by
  have h5 : s.now < (s.core (coreOf s.cursor.sid)).fe.stop := h.2.2.2.1
  have e : u.core (coreOf s.cursor.sid) = s.core (coreOf s.cursor.sid) := by simp [State.core, hc]
  simp [State.tokAt, State.stepKey, e, hn, h5, State.token, State.front]

/-- Changing the running block after the instruction has fired. -/
theorem didFire_updWin (s : State) (f : Window → Window) :
    s.didFire.updWin s.cursor.sid f = s.updWin s.cursor.sid fun w => f (w.fire s.cursor.idx false) := updWin_updWin _ _ _ _

/-- Delivering after a change of the running block. -/
theorem give_updWin {s : State} {v : View} {t : Strand} {w : Window} (f : Window → Window) (x : Tok) (h : s.fires v t w) :
    (s.updWin s.cursor.sid f).give (s.ctxOf v t w) v x =
      s.updWin s.cursor.sid fun w => (f w).deliverAll s.cursor.idx (s.token x) v.targets := by
  rw [State.give, ctxOf_sid, ctxOf_idx, tokAt_of_fires (u := s.updWin s.cursor.sid f) x h rfl rfl, updWin_updWin]

/-- A fault of the instruction that has just fired. -/
theorem raise_didFire {s : State} {v : View} {t : Strand} {w : Window} (kind sub va info : Nat) (h : s.fires v t w) :
    s.didFire.raise s.cursor.sid kind sub s.cursor.idx va info = s.faulted kind sub va info := by
  have h5 : s.now < (s.core (coreOf s.cursor.sid)).fe.stop := h.2.2.2.1
  simp [State.raise, State.stepKey, h5, State.faulted, State.front, didFire_updWin]

theorem give_didFire {s : State} {v : View} {t : Strand} {w : Window} (x : Tok) (h : s.fires v t w) :
    s.didFire.give (s.ctxOf v t w) v x = s.answered v x := by
  rw [State.give, ctxOf_sid, ctxOf_idx, tokAt_of_fires (u := s.didFire) x h rfl rfl, State.didFire, updWin_updWin]
  rfl

theorem compute_of_fires {s : State} {v : View} {t : Strand} {w : Window} (f : Dword → Dword → Dword → Dword) (h : s.fires v t w) :
    s.compute v f = .next (s.answered v (.val (f (s.left w) (s.right w) (s.third w)))) := by
  simp [State.compute, run_of_fires _ h, give_didFire _ h]

/-- Posting to the commit and delivering. -/
theorem posting {s : State} {v : View} {t : Strand} {w : Window} (p : Post) (x : Tok) (h : s.fires v t w) :
    (s.didFire.updWin s.cursor.sid (·.post s.cursor.idx p)).give (s.ctxOf v t w) v x = s.answeredPosting v p x := by
  rw [didFire_updWin, give_updWin _ _ h]; rfl

/-- What a meaning of the lane slices has at hand when its instruction stands in the execute stage (R279). -/
def State.laneCtx (s : State) (v : View) (t : Strand) (w : Window) (e : PipeE) : Ctx :=
  mkCtx s.cursor.sid s.cursor.idx t w v (s.now + max (s.floorOf (coreOf s.cursor.sid)) e.cls)

theorem runVec_of_executes {s : State} {v : View} {t : Strand} {w : Window} {e : PipeE} (body : State → Ctx → State) (h : s.executes v t w e) :
    s.runVec v body = .next (body (s.didExecute e) (s.laneCtx v t w e)) := by
  obtain ⟨⟨h1, h2, h3⟩, h4, h5, h6, h7⟩ := h
  simp [State.runVec, State.strand?, h1, h2, h4, h5, h6, h7, State.didExecute, State.didFire]
  rfl

end Sys2Proof.Machine
end

