-- ==== Sys2Proof/Laws/Memory.lean ====
section
/-! SUPPORT. Laws of memory: what a byte reads as after a write, and that every operation on it keeps its canonical form. -/

namespace Sys2Proof.Machine

theorem Memory.wf_iff (m : List Host.Cell) : Memory.wf m = true ↔ NMap.sorted m = true ∧ ∀ c ∈ m, c.2 ≠ 0 := by
  simp [Memory.wf, List.all_eq_true]

theorem Memory.wf_nil : Memory.wf [] = true := rfl

theorem Memory.wf_write (m : List Host.Cell) (a : Nat) (b : Byte) (h : Memory.wf m = true) : Memory.wf (Memory.write m a b) = true := by
  rw [Memory.wf_iff] at h ⊢
  unfold Memory.write Memory.unlisted
  split
  · exact ⟨NMap.sorted_erase m a h.1, fun c hc => h.2 c (NMap.mem_erase m a c hc)⟩
  · rename_i hb
    refine ⟨NMap.sorted_put m a b h.1, fun c hc => ?_⟩
    rcases NMap.mem_put m a b c hc with rfl | hc
    · exact hb
    · exact h.2 c hc

theorem Memory.wf_writeList (bs : List Byte) (m : List Host.Cell) (a : Nat) (h : Memory.wf m = true) : Memory.wf (Memory.writeList m a bs) = true := by
  induction bs generalizing m a with
  | nil => exact h
  | cons b bs ih => exact ih _ _ (Memory.wf_write m a b h)

theorem Memory.wf_filter (m : List Host.Cell) (p : Host.Cell → Bool) (h : Memory.wf m = true) : Memory.wf (m.filter p) = true := by
  rw [Memory.wf_iff] at h ⊢
  exact ⟨NMap.sorted_filter m p h.1, fun c hc => h.2 c (List.mem_filter.1 hc).1⟩

theorem Memory.read_write_self (m : List Host.Cell) (a : Nat) (b : Byte) (h : Memory.wf m = true) : Memory.read (Memory.write m a b) a = b := by
  have hs := ((Memory.wf_iff m).1 h).1
  unfold Memory.read Memory.write NMap.getD
  split
  · subst_vars; simp [NMap.get?_erase_self m a hs]
  · simp [NMap.get?_put_self]

theorem Memory.read_write_other (m : List Host.Cell) (a c : Nat) (b : Byte) (h : Memory.wf m = true) (hc : c ≠ a) :
    Memory.read (Memory.write m a b) c = Memory.read m c := by
  have hs := ((Memory.wf_iff m).1 h).1
  unfold Memory.read Memory.write NMap.getD
  split
  · rw [NMap.get?_erase_other m a c hs hc]
  · rw [NMap.get?_put_other m a c b hc]

end Sys2Proof.Machine
end

