-- ==== Sys2Proof/Laws/PerInstr.lean ====
section
/-! SUPPORT. The words of a well-formed instruction are read back as that instruction (R26 to R37), instruction by
instruction: one lemma for each format, and one for each constructor of Instr. -/

namespace Sys2Proof.Laws.RoundTrip

open Sys2Proof

/- One theorem at a time: the lemmas would otherwise hold many threads of the compile at once. -/
set_option Elab.async false

/-- The encoder's word fits its length, its first bits give that length (R26), and decoding it gives the instruction. -/
def Statement (i : Instr) : Prop :=
  ∀ n w, i.wf = true → encode i = some (n, w) → w < 2 ^ n ∧ lengthOf w = some n ∧ decodeWord w = .ok i

/-- A target that is not a reserved index is read back from its nine bits (R27). -/
theorem target_back {t : Target} (h : t.legal = true) : encTarget t < 512 ∧ decTarget (encTarget t) = t := by
  cases t with
  | none => exact ⟨by decide, by decide⟩
  | resv k => cases h
  | reg g =>
    have := g.isLt
    refine ⟨by simp [encTarget]; omega, ?_⟩
    have h1 : g.toNat / 128 % 4 = 0 := by omega
    have h2 : g.toNat % 128 = g.toNat := by omega
    simp only [encTarget, decTarget, h1, h2]
    rw [if_pos (by omega)]; simp
  | left i =>
    have := i.isLt
    refine ⟨by simp [encTarget]; omega, ?_⟩
    have h1 : (128 + i.toNat) / 128 % 4 = 1 := by omega
    have h2 : (128 + i.toNat) % 128 = i.toNat := by omega
    simp only [encTarget, decTarget, h1, h2]; simp
  | right i =>
    have := i.isLt
    refine ⟨by simp [encTarget]; omega, ?_⟩
    have h1 : (256 + i.toNat) / 128 % 4 = 2 := by omega
    have h2 : (256 + i.toNat) % 128 = i.toNat := by omega
    simp only [encTarget, decTarget, h1, h2]; simp
  | third i =>
    have := i.isLt
    refine ⟨by simp [encTarget]; omega, ?_⟩
    have h1 : (384 + i.toNat) / 128 % 4 = 3 := by omega
    have h2 : (384 + i.toNat) % 128 = i.toNat := by omega
    simp only [encTarget, decTarget, h1, h2]; simp

/-- A predicate mode is read back from its two bits (R29). -/
theorem pr_back (p : Pr) : encPr p < 3 ∧ decPr (encPr p) = some p := by cases p <;> exact ⟨by decide, rfl⟩

theorem withPr_back {w : Nat} {p : Pr} {ok : Bool} {f : Pr → View} (h : fld w 8 2 = encPr p) (hok : ok = true) : withPr w ok f = .ok (f p) := by
  simp [withPr, h, (pr_back p).2, hok]

theorem targets_legal {v : View} (h : v.wf = true) : ∀ t ∈ v.targets, t.legal = true := by
  simp only [View.wf, View.targetsOk, Bool.and_eq_true, List.all_eq_true] at h
  exact h.1.2.1.1

/-- What an instruction's view must do for its word to be read back. -/
def Reads (v : View) : Prop := ∀ n w, v.wf = true → v.encode = some (n, w) → w < 2 ^ n ∧ lengthOf w = some n ∧ decodeView w = .ok v

theorem of_view {i : Instr} (h : Reads i.view) (hi : i.view.instr = some i) : Statement i := by
  intro n w hw he
  obtain ⟨h1, h2, h3⟩ := h n w hw he
  exact ⟨h1, h2, by simp [decodeWord, h3, hi]⟩

/-- A machine event has no word. -/
theorem of_event {i : Instr} (h : i.view = .event) : Statement i := by
  intro n w _ he
  simp [encode, h, View.encode] at he

theorem view32 {w : Nat} (h : w % 4 = 0) (hw : w < 2 ^ 32) : lengthOf w = some 32 ∧ decodeView w = decode32 w :=
  ⟨by simp only [lengthOf, h], by simp only [decodeView, h, Nat.mod_eq_of_lt hw]⟩

theorem major02 (w : Nat) (h : fld w 2 6 = 0x02) : decode32 w = decG 0x02 w := by simp only [decode32, h]
theorem major03 (w : Nat) (h : fld w 2 6 = 0x03) : decode32 w = decI 0x03 w := by simp only [decode32, h]
theorem major04 (w : Nat) (h : fld w 2 6 = 0x04) : decode32 w = decI 0x04 w := by simp only [decode32, h]
theorem major05 (w : Nat) (h : fld w 2 6 = 0x05) : decode32 w = decG 0x05 w := by simp only [decode32, h]
theorem major06 (w : Nat) (h : fld w 2 6 = 0x06) : decode32 w = decIT 0x06 w := by simp only [decode32, h]
theorem major07 (w : Nat) (h : fld w 2 6 = 0x07) : decode32 w = decB 0x07 w := by simp only [decode32, h]
theorem major08 (w : Nat) (h : fld w 2 6 = 0x08) : decode32 w = decB 0x08 w := by simp only [decode32, h]
theorem major09 (w : Nat) (h : fld w 2 6 = 0x09) : decode32 w = decBX w := by simp only [decode32, h]
theorem major0A (w : Nat) (h : fld w 2 6 = 0x0A) : decode32 w = decG 0x0A w := by simp only [decode32, h]
theorem major0B (w : Nat) (h : fld w 2 6 = 0x0B) : decode32 w = decI 0x0B w := by simp only [decode32, h]
theorem major10 (w : Nat) (h : fld w 2 6 = 0x10) : decode32 w = decG 0x10 w := by simp only [decode32, h]
theorem major11 (w : Nat) (h : fld w 2 6 = 0x11) : decode32 w = decG 0x11 w := by simp only [decode32, h]
theorem major12 (w : Nat) (h : fld w 2 6 = 0x12) : decode32 w = decI 0x12 w := by simp only [decode32, h]
theorem major13 (w : Nat) (h : fld w 2 6 = 0x13) : decode32 w = decI 0x13 w := by simp only [decode32, h]
theorem major14 (w : Nat) (h : fld w 2 6 = 0x14) : decode32 w = decI 0x14 w := by simp only [decode32, h]
theorem major15 (w : Nat) (h : fld w 2 6 = 0x15) : decode32 w = decI 0x15 w := by simp only [decode32, h]
theorem major16 (w : Nat) (h : fld w 2 6 = 0x16) : decode32 w = decIT 0x16 w := by simp only [decode32, h]
theorem major17 (w : Nat) (h : fld w 2 6 = 0x17) : decode32 w = decG 0x17 w := by simp only [decode32, h]
theorem major18 (w : Nat) (h : fld w 2 6 = 0x18) : decode32 w = decG 0x18 w := by simp only [decode32, h]
theorem major19 (w : Nat) (h : fld w 2 6 = 0x19) : decode32 w = decL 0x19 w := by simp only [decode32, h]
theorem major1A (w : Nat) (h : fld w 2 6 = 0x1A) : decode32 w = decL 0x1A w := by simp only [decode32, h]
theorem major1B (w : Nat) (h : fld w 2 6 = 0x1B) : decode32 w = decA 0x1B w := by simp only [decode32, h]
theorem major1C (w : Nat) (h : fld w 2 6 = 0x1C) : decode32 w = decA 0x1C w := by simp only [decode32, h]
theorem major1D (w : Nat) (h : fld w 2 6 = 0x1D) : decode32 w = decG 0x1D w := by simp only [decode32, h]
theorem major1E (w : Nat) (h : fld w 2 6 = 0x1E) : decode32 w = decG 0x1E w := by simp only [decode32, h]
theorem major20 (w : Nat) (h : fld w 2 6 = 0x20) : decode32 w = decV 0x20 w := by simp only [decode32, h]
theorem major21 (w : Nat) (h : fld w 2 6 = 0x21) : decode32 w = decV 0x21 w := by simp only [decode32, h]
theorem major22 (w : Nat) (h : fld w 2 6 = 0x22) : decode32 w = decV 0x22 w := by simp only [decode32, h]
theorem major23 (w : Nat) (h : fld w 2 6 = 0x23) : decode32 w = decV 0x23 w := by simp only [decode32, h]
theorem major24 (w : Nat) (h : fld w 2 6 = 0x24) : decode32 w = decV 0x24 w := by simp only [decode32, h]
theorem major25 (w : Nat) (h : fld w 2 6 = 0x25) : decode32 w = decV 0x25 w := by simp only [decode32, h]
theorem major26 (w : Nat) (h : fld w 2 6 = 0x26) : decode32 w = decV 0x26 w := by simp only [decode32, h]
theorem major27 (w : Nat) (h : fld w 2 6 = 0x27) : decode32 w = decV 0x27 w := by simp only [decode32, h]
theorem major28 (w : Nat) (h : fld w 2 6 = 0x28) : decode32 w = decVX w := by simp only [decode32, h]
theorem major29 (w : Nat) (h : fld w 2 6 = 0x29) : decode32 w = decV 0x29 w := by simp only [decode32, h]
theorem major2A (w : Nat) (h : fld w 2 6 = 0x2A) : decode32 w = decG 0x2A w := by simp only [decode32, h]
theorem major2B (w : Nat) (h : fld w 2 6 = 0x2B) : decode32 w = decV 0x2B w := by simp only [decode32, h]
theorem major2C (w : Nat) (h : fld w 2 6 = 0x2C) : decode32 w = decVM 0x2C w := by simp only [decode32, h]
theorem major2D (w : Nat) (h : fld w 2 6 = 0x2D) : decode32 w = decVM 0x2D w := by simp only [decode32, h]
theorem major2E (w : Nat) (h : fld w 2 6 = 0x2E) : decode32 w = decVM 0x2E w := by simp only [decode32, h]
theorem major2F (w : Nat) (h : fld w 2 6 = 0x2F) : decode32 w = decG 0x2F w := by simp only [decode32, h]
theorem major30 (w : Nat) (h : fld w 2 6 = 0x30) : decode32 w = decCP w := by simp only [decode32, h]
theorem major01 (w : Nat) (h : fld w 2 6 = 0x01) : decode32 w = .ok (decRD w) := by simp only [decode32, h]

theorem fields_g {a b x p m w : Nat} (hw : a * 2 ^ 23 + b * 2 ^ 14 + x * 2 ^ 10 + p * 2 ^ 8 + m * 4 = w)
    (ha : a < 512) (hb : b < 512) (hx : x < 16) (hp : p < 4) (hm : m < 64) :
    w < 2 ^ 32 ∧ w % 4 = 0 ∧ fld w 2 6 = m ∧ fld w 8 2 = p ∧ fld w 10 4 = x ∧ fld w 14 9 = b ∧ fld w 23 9 = a := by
  simp only [fld]; omega

theorem fields_i {a b p m w : Nat} (hw : a * 2 ^ 23 + b * 2 ^ 10 + p * 2 ^ 8 + m * 4 = w)
    (ha : a < 512) (hb : b < 8192) (hp : p < 4) (hm : m < 64) :
    w < 2 ^ 32 ∧ w % 4 = 0 ∧ fld w 2 6 = m ∧ fld w 8 2 = p ∧ fld w 10 13 = b ∧ fld w 23 9 = a := by
  simp only [fld]; omega

theorem fields_rd {a b r w : Nat} (hw : a * 2 ^ 23 + b * 2 ^ 14 + r * 2 ^ 8 + 4 = w)
    (ha : a < 512) (hb : b < 512) (hr : r < 64) :
    w < 2 ^ 32 ∧ w % 4 = 0 ∧ fld w 2 6 = 1 ∧ fld w 8 6 = r ∧ fld w 14 9 = b ∧ fld w 23 9 = a := by
  simp only [fld]; omega

theorem fields_l {a s l x p m w : Nat} (hw : a * 2 ^ 23 + s * 2 ^ 19 + l * 2 ^ 14 + x * 2 ^ 10 + p * 2 ^ 8 + m * 4 = w)
    (ha : a < 512) (hs : s < 16) (hl : l < 32) (hx : x < 16) (hp : p < 4) (hm : m < 64) :
    w < 2 ^ 32 ∧ w % 4 = 0 ∧ fld w 2 6 = m ∧ fld w 8 2 = p ∧ fld w 10 4 = x ∧ fld w 14 5 = l ∧ fld w 19 4 = s ∧ fld w 23 9 = a := by
  simp only [fld]; omega

theorem fields_b {o e p m w : Nat} (hw : o * 2 ^ 14 + e * 2 ^ 10 + p * 2 ^ 8 + m * 4 = w)
    (ho : o < 262144) (he : e < 8) (hp : p < 4) (hm : m < 64) :
    w < 2 ^ 32 ∧ w % 4 = 0 ∧ fld w 2 6 = m ∧ fld w 8 2 = p ∧ fld w 10 3 = e ∧ fld w 14 18 = o ∧ fld w 13 1 = 0 := by
  simp only [fld]; omega

theorem fields_bx {e x p m w : Nat} (hw : e * 2 ^ 14 + x * 2 ^ 10 + p * 2 ^ 8 + m * 4 = w)
    (he : e < 8) (hx : x < 16) (hp : p < 4) (hm : m < 64) :
    w < 2 ^ 32 ∧ w % 4 = 0 ∧ fld w 2 6 = m ∧ fld w 8 2 = p ∧ fld w 10 4 = x ∧ fld w 14 3 = e ∧ fld w 17 15 = 0 := by
  simp only [fld]; omega

theorem fields_cp {a e x p m w : Nat} (hw : a * 2 ^ 23 + e * 2 ^ 14 + x * 2 ^ 10 + p * 2 ^ 8 + m * 4 = w)
    (ha : a < 512) (he : e < 8) (hx : x < 16) (hp : p < 4) (hm : m < 64) :
    w < 2 ^ 32 ∧ w % 4 = 0 ∧ fld w 2 6 = m ∧ fld w 8 2 = p ∧ fld w 10 4 = x ∧ fld w 14 3 = e ∧ fld w 23 9 = a ∧ fld w 17 6 = 0 := by
  simp only [fld]; omega

theorem fields_v {f k r s d x m w : Nat} (hw : f * 2 ^ 29 + k * 2 ^ 26 + r * 2 ^ 21 + s * 2 ^ 16 + d * 2 ^ 11 + x * 2 ^ 8 + m * 4 = w)
    (hf : f < 8) (hk : k < 8) (hr : r < 32) (hs : s < 32) (hd : d < 32) (hx : x < 8) (hm : m < 64) :
    w < 2 ^ 32 ∧ w % 4 = 0 ∧ fld w 2 6 = m ∧ fld w 8 3 = x ∧ fld w 11 5 = d ∧ fld w 16 5 = s ∧ fld w 21 5 = r ∧ fld w 26 3 = k ∧ fld w 29 3 = f := by
  simp only [fld]; omega

theorem fields_vx {a f k s x m w : Nat} (hw : a * 2 ^ 23 + f * 2 ^ 19 + k * 2 ^ 16 + s * 2 ^ 11 + x * 2 ^ 8 + m * 4 = w)
    (ha : a < 512) (hf : f < 8) (hk : k < 8) (hs : s < 32) (hx : x < 8) (hm : m < 64) :
    w < 2 ^ 32 ∧ w % 4 = 0 ∧ fld w 2 6 = m ∧ fld w 8 3 = x ∧ fld w 11 5 = s ∧ fld w 16 3 = k ∧ fld w 19 3 = f ∧ fld w 23 9 = a ∧ fld w 22 1 = 0 := by
  simp only [fld]; omega

theorem fields_c {a x w : Nat} (hw : a * 2 ^ 7 + x * 4 + 1 = w)
    (ha : a < 512) (hx : x < 32) :
    w < 2 ^ 16 ∧ w % 4 = 1 ∧ fld w 2 5 = x ∧ fld w 7 9 = a := by
  simp only [fld]; omega

theorem fields_t {i k l a g f u t r s c x w : Nat} (hw : i * 2 ^ 49 + k * 2 ^ 46 + l * 2 ^ 41 + a * 2 ^ 32 + g * 2 ^ 30 + f * 2 ^ 27 + u * 2 ^ 24 + t * 2 ^ 21 + r * 2 ^ 16 + s * 2 ^ 11 + c * 2 ^ 8 + x * 4 + 2 = w)
    (hi : i < 32768) (hk : k < 8) (hl : l < 32) (ha : a < 512) (hg : g < 4) (hf : f < 8) (hu : u < 8) (ht : t < 8) (hr : r < 32) (hs : s < 32) (hc : c < 8) (hx : x < 64) :
    w < 2 ^ 64 ∧ w % 4 = 2 ∧ fld w 2 6 = x ∧ fld w 8 3 = c ∧ fld w 11 5 = s ∧ fld w 16 5 = r ∧ fld w 21 3 = t ∧ fld w 24 3 = u ∧ fld w 27 3 = f ∧ fld w 30 2 = g ∧ fld w 32 9 = a ∧ fld w 41 5 = l ∧ fld w 46 3 = k ∧ fld w 49 15 = i := by
  simp only [fld]; omega

theorem reads_g {maj xop : Nat} {o : GOp} (h : maj < 64 ∧ xop < 16 ∧ xop < opCount maj) (h3 : isG3 maj xop = false)
    (hd : ∀ w, fld w 2 6 = maj → decode32 w = decG maj w) : Reads (.g maj xop o) := by
  intro n w hw he
  have ht := targets_legal hw
  have t0 := target_back (ht o.t0 (by simp [View.targets]))
  have t1 := target_back (ht o.t1 (by simp [View.targets]))
  have p := pr_back o.pr
  simp only [View.encode, Option.some.injEq, Prod.mk.injEq] at he
  obtain ⟨rfl, e⟩ := he
  obtain ⟨f0, f1, f2, f3, f4, f5, f6⟩ := fields_g e t1.1 t0.1 h.2.1 (by omega : encPr o.pr < 4) h.1
  refine ⟨f0, (view32 f1 f0).1, ?_⟩
  rw [(view32 f1 f0).2, hd _ f2, decG, if_neg (by omega), f4, h3, if_neg (by simp), withPr_back f3 rfl, f5, f6, t0.2, t1.2]

theorem reads_g3 {maj xop : Nat} {o : G3Op} (h : maj < 64 ∧ xop < 16) (hc : xop < opCount maj) (h3 : isG3 maj xop = true)
    (hd : ∀ w, fld w 2 6 = maj → decode32 w = decG maj w) : Reads (.g3 maj xop o) := by
  intro n w hw he
  have ht := targets_legal hw
  have t0 := target_back (ht o.t0 (by simp [View.targets]))
  have t1 := target_back (ht o.t1 (by simp [View.targets]))
  simp only [View.encode, Option.some.injEq, Prod.mk.injEq] at he
  obtain ⟨rfl, e⟩ := he
  obtain ⟨f0, f1, f2, f3, f4, f5, f6⟩ := fields_g (p := 0) (w := w) (by rw [Nat.zero_mul, Nat.add_zero]; exact e) t1.1 t0.1 h.2 (by decide : 0 < 4) h.1
  refine ⟨f0, (view32 f1 f0).1, ?_⟩
  rw [(view32 f1 f0).2, hd _ f2, decG, if_neg (by omega), f4, h3, if_pos rfl, if_pos f3, f5, f6, t0.2, t1.2]

theorem reads_it {maj xop : Nat} {o : ITOp} (h : maj < 64 ∧ xop < 16) (hc : xop < opCount maj)
    (hd : ∀ w, fld w 2 6 = maj → decode32 w = decIT maj w) : Reads (.it maj xop o) := by
  intro n w hw he
  have t0 := target_back (targets_legal hw o.t0 (by simp [View.targets]))
  have p := pr_back o.pr
  simp only [View.encode, Option.some.injEq, Prod.mk.injEq] at he
  obtain ⟨rfl, e⟩ := he
  obtain ⟨f0, f1, f2, f3, f4, f5, f6⟩ := fields_g e t0.1 o.imm.isLt h.2 (by omega : encPr o.pr < 4) h.1
  refine ⟨f0, (view32 f1 f0).1, ?_⟩
  rw [(view32 f1 f0).2, hd _ f2, decIT, if_neg (by omega), f4, withPr_back f3 rfl, f5, f6, t0.2]
  simp

theorem reads_i {maj : Nat} {o : IOp} (hm : maj < 64) (hd : ∀ w, fld w 2 6 = maj → decode32 w = decI maj w) : Reads (.i maj o) := by
  intro n w hw he
  have t0 := target_back (targets_legal hw o.t0 (by simp [View.targets]))
  have p := pr_back o.pr
  simp only [View.encode, Option.some.injEq, Prod.mk.injEq] at he
  obtain ⟨rfl, e⟩ := he
  obtain ⟨f0, f1, f2, f3, f4, f5⟩ := fields_i e t0.1 o.imm.isLt (by omega : encPr o.pr < 4) hm
  refine ⟨f0, (view32 f1 f0).1, ?_⟩
  rw [(view32 f1 f0).2, hd _ f2, decI, withPr_back f3 rfl, f4, f5, t0.2]
  simp

theorem reads_rd {o : RDOp} : Reads (.rd o) := by
  intro n w hw he
  have ht := targets_legal hw
  have t0 := target_back (ht o.t0 (by simp [View.targets]))
  have t1 := target_back (ht o.t1 (by simp [View.targets]))
  simp only [View.encode, Option.some.injEq, Prod.mk.injEq] at he
  obtain ⟨rfl, e⟩ := he
  obtain ⟨f0, f1, f2, f3, f4, f5⟩ := fields_rd e t1.1 t0.1 o.reg.isLt
  refine ⟨f0, (view32 f1 f0).1, ?_⟩
  rw [(view32 f1 f0).2, major01 _ f2, decRD, f3, f4, f5, t0.2, t1.2]
  simp

theorem reads_mem {maj xop : Nat} {o : MOp} (h : maj < 64 ∧ xop < 16) (hc : ¬ (7 ≤ xop ∨ (maj = 0x1A ∧ xop = 4)))
    (hd : ∀ w, fld w 2 6 = maj → decode32 w = decL maj w) : Reads (.mem maj xop o) := by
  intro n w hw he
  have t0 := target_back (targets_legal hw o.t0 (by simp [View.targets]))
  have p := pr_back o.pr
  simp only [View.encode, Option.some.injEq, Prod.mk.injEq] at he
  obtain ⟨rfl, e⟩ := he
  obtain ⟨f0, f1, f2, f3, f4, f5, f6, f7⟩ := fields_l e t0.1 o.off.isLt o.lsid.isLt h.2 (by omega : encPr o.pr < 4) h.1
  refine ⟨f0, (view32 f1 f0).1, ?_⟩
  rw [(view32 f1 f0).2, hd _ f2, decL, f4, if_neg hc, withPr_back f3 rfl, f5, f6, f7, t0.2]
  simp

theorem reads_amo {maj xop : Nat} {o : AOp} (h : maj < 64 ∧ xop < 16 ∧ ¬ ((if maj = 0x1B then 15 else 8) ≤ xop)) (h3 : isA3 maj xop = false)
    (hd : ∀ w, fld w 2 6 = maj → decode32 w = decA maj w) : Reads (.amo maj xop o) := by
  intro n w hw he
  have t0 := target_back (targets_legal hw o.t0 (by simp [View.targets]))
  have p := pr_back o.pr
  simp only [View.encode, Option.some.injEq, Prod.mk.injEq] at he
  obtain ⟨rfl, e⟩ := he
  obtain ⟨f0, f1, f2, f3, f4, f5, f6, f7⟩ := fields_l e t0.1 o.scope.isLt o.lsid.isLt h.2.1 (by omega : encPr o.pr < 4) h.1
  refine ⟨f0, (view32 f1 f0).1, ?_⟩
  rw [(view32 f1 f0).2, hd _ f2, decA, f4, if_neg h.2.2, h3, if_neg (by simp), withPr_back f3 rfl, f5, f6, f7, t0.2]
  simp

theorem reads_amo3 {xop : Nat} {o : A3Op} (h : xop < 15 ∧ isA3 0x1B xop = true) : Reads (.amo3 xop o) := by
  intro n w hw he
  have t0 := target_back (targets_legal hw o.t0 (by simp [View.targets]))
  simp only [View.encode, Option.some.injEq, Prod.mk.injEq] at he
  obtain ⟨rfl, e⟩ := he
  obtain ⟨f0, f1, f2, f3, f4, f5, f6, f7⟩ :=
    fields_l (p := 0) (w := w) (m := 0x1B) (by rw [Nat.zero_mul, Nat.add_zero]; exact e) t0.1 o.scope.isLt o.lsid.isLt (by omega : xop < 16) (by decide : 0 < 4) (by decide)
  refine ⟨f0, (view32 f1 f0).1, ?_⟩
  rw [(view32 f1 f0).2, major1B _ f2, decA, f4, if_neg (by simp; omega), h.2, if_pos rfl, if_pos f3, f5, f6, f7, t0.2]
  simp

theorem reads_b {maj : Nat} {o : BOp} (hm : maj < 64) (hd : ∀ w, fld w 2 6 = maj → decode32 w = decB maj w) : Reads (.b maj o) := by
  intro n w hw he
  have p := pr_back o.pr
  simp only [View.encode, Option.some.injEq, Prod.mk.injEq] at he
  obtain ⟨rfl, e⟩ := he
  obtain ⟨f0, f1, f2, f3, f4, f5, f6⟩ := fields_b e o.off.isLt o.exit.isLt (by omega : encPr o.pr < 4) hm
  refine ⟨f0, (view32 f1 f0).1, ?_⟩
  rw [(view32 f1 f0).2, hd _ f2, decB, withPr_back f3 (by simp [f6]), f4, f5]
  simp

theorem reads_bx {xop : Nat} {o : BXOp} (h : xop < 6) : Reads (.bx xop o) := by
  intro n w hw he
  have p := pr_back o.pr
  simp only [View.encode, Option.some.injEq, Prod.mk.injEq] at he
  obtain ⟨rfl, e⟩ := he
  obtain ⟨f0, f1, f2, f3, f4, f5, f6⟩ := fields_bx (m := 0x09) e o.exit.isLt (by omega : xop < 16) (by omega : encPr o.pr < 4) (by decide)
  refine ⟨f0, (view32 f1 f0).1, ?_⟩
  rw [(view32 f1 f0).2, major09 _ f2, decBX, f4, if_neg (by omega), withPr_back f3 (by simp [f6]), f5]
  simp

theorem reads_cp {xop : Nat} {o : CPOp} (h : xop < 6) : Reads (.cp xop o) := by
  intro n w hw he
  have t0 := target_back (targets_legal hw o.t0 (by simp [View.targets]))
  have p := pr_back o.pr
  simp only [View.encode, Option.some.injEq, Prod.mk.injEq] at he
  obtain ⟨rfl, e⟩ := he
  obtain ⟨f0, f1, f2, f3, f4, f5, f6, f7⟩ :=
    fields_cp (m := 0x30) e t0.1 o.stream.isLt (by omega : xop < 16) (by omega : encPr o.pr < 4) (by decide)
  refine ⟨f0, (view32 f1 f0).1, ?_⟩
  rw [(view32 f1 f0).2, major30 _ f2, decCP, f4, if_neg (by omega), withPr_back f3 (by simp [f7]), f5, f6, t0.2]
  simp

theorem reads_v {maj vop : Nat} {o : VOp} (h : maj < 64 ∧ vop < 8) (hl : vopLegal maj vop = true)
    (hd : ∀ w, fld w 2 6 = maj → decode32 w = decV maj w) : Reads (.v maj vop o) := by
  intro n w hw he
  simp only [View.encode, Option.some.injEq, Prod.mk.injEq] at he
  obtain ⟨rfl, e⟩ := he
  obtain ⟨f0, f1, f2, f3, f4, f5, f6, f7, f8⟩ := fields_v e o.fmt.isLt o.msk.isLt o.vs2.isLt o.vs1.isLt o.vd.isLt h.2 h.1
  refine ⟨f0, (view32 f1 f0).1, ?_⟩
  rw [(view32 f1 f0).2, hd _ f2, decV, f3, hl, if_pos rfl, f4, f5, f6, f7, f8]
  simp

theorem reads_vm {maj vop : Nat} {o : VMOp} (h : maj < 64 ∧ vop < 8) (hl : vopLegal maj vop = true)
    (hd : ∀ w, fld w 2 6 = maj → decode32 w = decVM maj w) : Reads (.vm maj vop o) := by
  intro n w hw he
  simp only [View.encode, Option.some.injEq, Prod.mk.injEq] at he
  obtain ⟨rfl, e⟩ := he
  obtain ⟨f0, f1, f2, f3, f4, f5, f6, f7, f8⟩ := fields_v e o.fmt.isLt o.msk.isLt o.lsid.isLt o.vi.isLt o.vd.isLt h.2 h.1
  refine ⟨f0, (view32 f1 f0).1, ?_⟩
  rw [(view32 f1 f0).2, hd _ f2, decVM, f3, hl, if_pos rfl, f4, f5, f6, f7, f8]
  simp

theorem reads_vx {vop : Nat} {o : VXOp} (h : vop < 4) : Reads (.vx vop o) := by
  intro n w hw he
  have t0 := target_back (targets_legal hw o.t0 (by simp [View.targets]))
  simp only [View.encode, Option.some.injEq, Prod.mk.injEq] at he
  obtain ⟨rfl, e⟩ := he
  obtain ⟨f0, f1, f2, f3, f4, f5, f6, f7, f8⟩ :=
    fields_vx (m := 0x28) e t0.1 o.fmt.isLt o.msk.isLt o.vs1.isLt (by omega : vop < 8) (by decide)
  refine ⟨f0, (view32 f1 f0).1, ?_⟩
  rw [(view32 f1 f0).2, major28 _ f2, decVX, f3, if_neg (by omega), if_pos f8, f4, f5, f6, f7, t0.2]
  simp

theorem reads_c {cop : Nat} {o : COp} (h : cop < 10) : Reads (.c cop o) := by
  intro n w hw he
  have t0 := target_back (targets_legal hw o.t0 (by simp [View.targets]))
  simp only [View.encode, Option.some.injEq, Prod.mk.injEq] at he
  obtain ⟨rfl, e⟩ := he
  obtain ⟨f0, f1, f2, f3⟩ := fields_c e t0.1 (by omega : cop < 32)
  refine ⟨f0, by simp only [lengthOf, f1], ?_⟩
  simp only [decodeView, f1]
  rw [Nat.mod_eq_of_lt f0, decode16, f2, if_neg (by omega), f3, t0.2]

theorem reads_tile {pmaj : Nat} {o : TOp} (h : pmaj < 10) : Reads (.tile pmaj o) := by
  intro n w hw he
  have t0 := target_back (targets_legal hw o.t0 (by simp [View.targets]))
  simp only [View.encode, Option.some.injEq, Prod.mk.injEq] at he
  obtain ⟨rfl, e⟩ := he
  obtain ⟨f0, f1, f2, f3, f4, f5, f6, f7, f8, f9, f10, f11, f12, f13⟩ :=
    fields_t e o.imm.isLt o.msk.isLt o.lsid.isLt t0.1 o.kg.isLt o.fmt.isLt o.scb.isLt o.sca.isLt o.vb.isLt o.va.isLt o.acc.isLt (by omega : pmaj < 64)
  refine ⟨f0, by simp only [lengthOf, f1], ?_⟩
  simp only [decodeView, f1]
  rw [Nat.mod_eq_of_lt f0, decode64, f2, if_neg (by omega), f3, f4, f5, f6, f7, f8, f9, f10, f11, f12, f13, t0.2]
  simp

theorem blockFetch (sid addr : Nat) : Statement (.blockFetch sid addr) := of_event rfl
theorem blockStart (sid : Nat) : Statement (.blockStart sid) := of_event rfl
theorem blockQuiescent (sid : Nat) : Statement (.blockQuiescent sid) := of_event rfl
theorem blockTimeout (sid : Nat) : Statement (.blockTimeout sid) := of_event rfl
theorem scalarProbeComplete (sid idx : Nat) : Statement (.scalarProbeComplete sid idx) := of_event rfl
theorem loadDataReturn (sid idx seg : Nat) : Statement (.loadDataReturn sid idx seg) := of_event rfl
theorem storePerform (sid item seg : Nat) : Statement (.storePerform sid item seg) := of_event rfl
theorem stampReturn (sid reg : Nat) : Statement (.stampReturn sid reg) := of_event rfl
theorem divideStart (core : Nat) : Statement (.divideStart core) := of_event rfl
theorem divideComplete (core unit : Nat) : Statement (.divideComplete core unit) := of_event rfl
theorem fpDivideStart (core : Nat) : Statement (.fpDivideStart core) := of_event rfl
theorem fpDivideComplete (core : Nat) : Statement (.fpDivideComplete core) := of_event rfl
theorem vectorDispatch (core : Nat) : Statement (.vectorDispatch core) := of_event rfl
theorem vectorExecuteStart (core : Nat) : Statement (.vectorExecuteStart core) := of_event rfl
theorem vectorExecuteDone (core : Nat) : Statement (.vectorExecuteDone core) := of_event rfl
theorem fifoAccept (core side : Nat) : Statement (.fifoAccept core side) := of_event rfl
theorem laneSliceGate (core die : Nat) : Statement (.laneSliceGate core die) := of_event rfl
theorem localCountCheck (kind region : Nat) : Statement (.localCountCheck kind region) := of_event rfl
theorem pllRelockStop (cluster : Nat) : Statement (.pllRelockStop cluster) := of_event rfl
theorem pllRelockEnd (cluster : Nat) : Statement (.pllRelockEnd cluster) := of_event rfl
theorem referenceClockLoss : Statement .referenceClockLoss := of_event rfl
theorem referenceClockReturn : Statement .referenceClockReturn := of_event rfl
theorem marginWarning : Statement .marginWarning := of_event rfl
theorem matrixIssue (core : Nat) : Statement (.matrixIssue core) := of_event rfl
theorem matrixPerformDone (core : Nat) : Statement (.matrixPerformDone core) := of_event rfl
theorem tileMemoryMoveDone (core : Nat) : Statement (.tileMemoryMoveDone core) := of_event rfl
theorem streamStripFetch (core stream : Nat) : Statement (.streamStripFetch core stream) := of_event rfl
theorem streamElementArrival (core stream elem : Nat) : Statement (.streamElementArrival core stream elem) := of_event rfl
theorem streamRed2FinalWrite (core stream elem : Nat) : Statement (.streamRed2FinalWrite core stream elem) := of_event rfl
theorem streamDone (core stream : Nat) : Statement (.streamDone core stream) := of_event rfl
theorem streamAccessFault (core stream elem : Nat) : Statement (.streamAccessFault core stream elem) := of_event rfl
theorem interlockWaitEnd (sid : Nat) : Statement (.interlockWaitEnd sid) := of_event rfl
theorem scopeAcknowledge (core ctx entry : Nat) : Statement (.scopeAcknowledge core ctx entry) := of_event rfl
theorem atomicPerform (sid item : Nat) : Statement (.atomicPerform sid item) := of_event rfl
theorem atomicOldValueReturn (sid reg : Nat) : Statement (.atomicOldValueReturn sid reg) := of_event rfl
theorem heldWriteRelease (line : Nat) : Statement (.heldWriteRelease line) := of_event rfl
theorem vaccUpdatePerform (sid item elem : Nat) : Statement (.vaccUpdatePerform sid item elem) := of_event rfl
theorem vamergeFold (sid item : Nat) : Statement (.vamergeFold sid item) := of_event rfl
theorem watchedLineWrite (core line : Nat) : Statement (.watchedLineWrite core line) := of_event rfl
theorem qdlDeadlinePass (sid : Nat) : Statement (.qdlDeadlinePass sid) := of_event rfl
theorem sleepExpiry (sid : Nat) : Statement (.sleepExpiry sid) := of_event rfl
theorem barrierArrival (sid : Nat) : Statement (.barrierArrival sid) := of_event rfl
theorem l1LineInvalidate (core line : Nat) : Statement (.l1LineInvalidate core line) := of_event rfl
theorem l2Eviction (die line : Nat) : Statement (.l2Eviction die line) := of_event rfl
theorem tlbWalkComplete (walk : Nat) : Statement (.tlbWalkComplete walk) := of_event rfl
theorem tlbInvalidatePerform (inv : Nat) : Statement (.tlbInvalidatePerform inv) := of_event rfl
theorem replayPendingReplay (core : Nat) : Statement (.replayPendingReplay core) := of_event rfl
theorem fatalRecord (gang sub pa : Nat) : Statement (.fatalRecord gang sub pa) := of_event rfl
theorem routerRecordWrite (core : Nat) : Statement (.routerRecordWrite core) := of_event rfl
theorem resumeGo (core ctxn : Nat) : Statement (.resumeGo core ctxn) := of_event rfl
theorem resumeRedirect (core ctxn : Nat) : Statement (.resumeRedirect core ctxn) := of_event rfl
theorem resumeKill (core ctxn : Nat) : Statement (.resumeKill core ctxn) := of_event rfl
theorem contextSaveStart (gang : Nat) : Statement (.contextSaveStart gang) := of_event rfl
theorem contextSaveComplete (gang : Nat) : Statement (.contextSaveComplete gang) := of_event rfl
theorem saveBroken (gang : Nat) : Statement (.saveBroken gang) := of_event rfl
theorem contextRestore (gang : Nat) : Statement (.contextRestore gang) := of_event rfl
theorem qwrWrite (queue value : Nat) : Statement (.qwrWrite queue value) := of_event rfl
theorem dispatcherTakeRecord (src : Nat) : Statement (.dispatcherTakeRecord src) := of_event rfl
theorem dispatchPlace : Statement .dispatchPlace := of_event rfl
theorem preemptWaitExpiry (src : Nat) : Statement (.preemptWaitExpiry src) := of_event rfl
theorem reclaimTimeout (gang : Nat) : Statement (.reclaimTimeout gang) := of_event rfl
theorem laneGrant (gang : Nat) : Statement (.laneGrant gang) := of_event rfl
theorem gangComplete (gang : Nat) : Statement (.gangComplete gang) := of_event rfl
theorem clusterIdleEntry (cluster : Nat) : Statement (.clusterIdleEntry cluster) := of_event rfl
theorem clusterWake (cluster : Nat) : Statement (.clusterWake cluster) := of_event rfl
theorem clusterExitDone (cluster : Nat) : Statement (.clusterExitDone cluster) := of_event rfl
theorem packageC4Entry : Statement .packageC4Entry := of_event rfl
theorem packageC4Exit : Statement .packageC4Exit := of_event rfl
theorem quiesceDrain (cluster : Nat) : Statement (.quiesceDrain cluster) := of_event rfl
theorem quiesceEvict (cluster : Nat) : Statement (.quiesceEvict cluster) := of_event rfl
theorem quiesceHold (cluster : Nat) : Statement (.quiesceHold cluster) := of_event rfl
theorem quiesceRelease (cluster : Nat) : Statement (.quiesceRelease cluster) := of_event rfl
theorem clusterQuiesced (cluster : Nat) : Statement (.clusterQuiesced cluster) := of_event rfl
theorem clusterWakeWrite (cluster value : Nat) : Statement (.clusterWakeWrite cluster value) := of_event rfl
theorem controlInterval (watts : Nat) : Statement (.controlInterval watts) := of_event rfl
theorem fastLimiterSample (watts : Nat) : Statement (.fastLimiterSample watts) := of_event rfl
theorem thermalControlInterval (tmax slope : Nat) : Statement (.thermalControlInterval tmax slope) := of_event rfl
theorem thermalEmergency : Statement .thermalEmergency := of_event rfl
theorem hardTrip : Statement .hardTrip := of_event rfl
theorem peakClear : Statement .peakClear := of_event rfl
theorem aostatLogClear : Statement .aostatLogClear := of_event rfl
theorem hbmCorrectedError (stack : Nat) : Statement (.hbmCorrectedError stack) := of_event rfl
theorem hbmUncorrectableError (stack pa : Nat) : Statement (.hbmUncorrectableError stack pa) := of_event rfl
theorem patrolScrub (stack : Nat) : Statement (.patrolScrub stack) := of_event rfl
theorem channelIdleLend (stack chan : Nat) : Statement (.channelIdleLend stack chan) := of_event rfl
theorem lendHandshakeDone (stack chan : Nat) : Statement (.lendHandshakeDone stack chan) := of_event rfl
theorem lendReverse (stack chan : Nat) : Statement (.lendReverse stack chan) := of_event rfl
theorem dieLinkLaneError (link : Nat) : Statement (.dieLinkLaneError link) := of_event rfl
theorem linkRetrainDone (link : Nat) : Statement (.linkRetrainDone link) := of_event rfl
theorem hostAtomicop (op size addr value cmp : Nat) : Statement (.hostAtomicop op size addr value cmp) := of_event rfl
theorem hostLinkDown : Statement .hostLinkDown := of_event rfl
theorem hostLinkUp : Statement .hostLinkUp := of_event rfl
theorem hotReset : Statement .hotReset := of_event rfl
theorem flitReceive (port flit : Nat) : Statement (.flitReceive port flit) := of_event rfl
theorem flitNakReplay (port good : Nat) : Statement (.flitNakReplay port good) := of_event rfl
theorem flitReplayTimeout (port : Nat) : Statement (.flitReplayTimeout port) := of_event rfl
theorem laneErrorInterval (port lane : Nat) : Statement (.laneErrorInterval port lane) := of_event rfl
theorem portRetrainDone (port : Nat) : Statement (.portRetrainDone port) := of_event rfl
theorem portTrainingTimeout (port : Nat) : Statement (.portTrainingTimeout port) := of_event rfl
theorem fabricAccessArrival (port kind size offset value : Nat) : Statement (.fabricAccessArrival port kind size offset value) := of_event rfl
theorem remoteLostDeferred (sid : Nat) : Statement (.remoteLostDeferred sid) := of_event rfl
theorem mctpMessage (message : Nat) : Statement (.mctpMessage message) := of_event rfl
theorem tlbInvStart : Statement .tlbInvStart := of_event rfl
theorem portDisable (port : Nat) : Statement (.portDisable port) := of_event rfl
theorem registerWrite (addr size value : Nat) : Statement (.registerWrite addr size value) := of_event rfl
theorem packageReset : Statement .packageReset := of_event rfl
theorem firmwareVerifyDone (ok : Nat) : Statement (.firmwareVerifyDone ok) := of_event rfl
theorem dieLinksTrained (failed : Nat) : Statement (.dieLinksTrained failed) := of_event rfl
theorem hostPortTrained : Statement .hostPortTrained := of_event rfl
theorem hbmTrained (failed : Nat) : Statement (.hbmTrained failed) := of_event rfl
theorem hostdnClear : Statement .hostdnClear := of_event rfl
theorem lendDisable (stack : Nat) : Statement (.lendDisable stack) := of_event rfl
theorem hostPostedWrite (addr size value : Nat) : Statement (.hostPostedWrite addr size value) := of_event rfl
theorem read (o : RDOp) : Statement (.read o) := of_view reads_rd rfl
theorem mov (o : GOp) : Statement (.mov o) := of_view (reads_g (by decide) (by decide) major02) rfl
theorem null (o : GOp) : Statement (.null o) := of_view (reads_g (by decide) (by decide) major02) rfl
theorem sel (o : G3Op) : Statement (.sel o) := of_view (reads_g3 (by decide) (by decide) (by decide) major02) rfl
theorem movi (o : IOp) : Statement (.movi o) := of_view (reads_i (by decide) major03) rfl
theorem orhi (o : IOp) : Statement (.orhi o) := of_view (reads_i (by decide) major04) rfl
theorem lpci (o : IOp) : Statement (.lpci o) := of_view (reads_i (by decide) major0B) rfl
theorem teq (o : GOp) : Statement (.teq o) := of_view (reads_g (by decide) (by decide) major05) rfl
theorem tne (o : GOp) : Statement (.tne o) := of_view (reads_g (by decide) (by decide) major05) rfl
theorem tlt (o : GOp) : Statement (.tlt o) := of_view (reads_g (by decide) (by decide) major05) rfl
theorem tltu (o : GOp) : Statement (.tltu o) := of_view (reads_g (by decide) (by decide) major05) rfl
theorem tle (o : GOp) : Statement (.tle o) := of_view (reads_g (by decide) (by decide) major05) rfl
theorem tleu (o : GOp) : Statement (.tleu o) := of_view (reads_g (by decide) (by decide) major05) rfl
theorem tgt (o : GOp) : Statement (.tgt o) := of_view (reads_g (by decide) (by decide) major05) rfl
theorem tgtu (o : GOp) : Statement (.tgtu o) := of_view (reads_g (by decide) (by decide) major05) rfl
theorem tge (o : GOp) : Statement (.tge o) := of_view (reads_g (by decide) (by decide) major05) rfl
theorem tgeu (o : GOp) : Statement (.tgeu o) := of_view (reads_g (by decide) (by decide) major05) rfl
theorem tbit (o : GOp) : Statement (.tbit o) := of_view (reads_g (by decide) (by decide) major05) rfl
theorem teqi (o : ITOp) : Statement (.teqi o) := of_view (reads_it (by decide) (by decide) major06) rfl
theorem tnei (o : ITOp) : Statement (.tnei o) := of_view (reads_it (by decide) (by decide) major06) rfl
theorem tlti (o : ITOp) : Statement (.tlti o) := of_view (reads_it (by decide) (by decide) major06) rfl
theorem tltui (o : ITOp) : Statement (.tltui o) := of_view (reads_it (by decide) (by decide) major06) rfl
theorem tlei (o : ITOp) : Statement (.tlei o) := of_view (reads_it (by decide) (by decide) major06) rfl
theorem tleui (o : ITOp) : Statement (.tleui o) := of_view (reads_it (by decide) (by decide) major06) rfl
theorem tgti (o : ITOp) : Statement (.tgti o) := of_view (reads_it (by decide) (by decide) major06) rfl
theorem tgtui (o : ITOp) : Statement (.tgtui o) := of_view (reads_it (by decide) (by decide) major06) rfl
theorem tgei (o : ITOp) : Statement (.tgei o) := of_view (reads_it (by decide) (by decide) major06) rfl
theorem tgeui (o : ITOp) : Statement (.tgeui o) := of_view (reads_it (by decide) (by decide) major06) rfl
theorem tbiti (o : ITOp) : Statement (.tbiti o) := of_view (reads_it (by decide) (by decide) major06) rfl
theorem br (o : BOp) : Statement (.br o) := of_view (reads_b (by decide) major07) rfl
theorem call (o : BOp) : Statement (.call o) := of_view (reads_b (by decide) major08) rfl
theorem bro (o : BXOp) : Statement (.bro o) := of_view (reads_bx (by decide)) rfl
theorem callo (o : BXOp) : Statement (.callo o) := of_view (reads_bx (by decide)) rfl
theorem halt (o : BXOp) : Statement (.halt o) := of_view (reads_bx (by decide)) rfl
theorem yld (o : BXOp) : Statement (.yld o) := of_view (reads_bx (by decide)) rfl
theorem sys (o : BXOp) : Statement (.sys o) := of_view (reads_bx (by decide)) rfl
theorem brk (o : BXOp) : Statement (.brk o) := of_view (reads_bx (by decide)) rfl
theorem spawn (o : GOp) : Statement (.spawn o) := of_view (reads_g (by decide) (by decide) major0A) rfl
theorem bar (o : GOp) : Statement (.bar o) := of_view (reads_g (by decide) (by decide) major0A) rfl
theorem gid (o : GOp) : Statement (.gid o) := of_view (reads_g (by decide) (by decide) major0A) rfl
theorem gsize (o : GOp) : Statement (.gsize o) := of_view (reads_g (by decide) (by decide) major0A) rfl
theorem cid (o : GOp) : Statement (.cid o) := of_view (reads_g (by decide) (by decide) major0A) rfl
theorem sleep (o : GOp) : Statement (.sleep o) := of_view (reads_g (by decide) (by decide) major0A) rfl
theorem add (o : GOp) : Statement (.add o) := of_view (reads_g (by decide) (by decide) major10) rfl
theorem sub (o : GOp) : Statement (.sub o) := of_view (reads_g (by decide) (by decide) major10) rfl
theorem mul (o : GOp) : Statement (.mul o) := of_view (reads_g (by decide) (by decide) major10) rfl
theorem mulh (o : GOp) : Statement (.mulh o) := of_view (reads_g (by decide) (by decide) major10) rfl
theorem mulhu (o : GOp) : Statement (.mulhu o) := of_view (reads_g (by decide) (by decide) major10) rfl
theorem div (o : GOp) : Statement (.div o) := of_view (reads_g (by decide) (by decide) major10) rfl
theorem divu (o : GOp) : Statement (.divu o) := of_view (reads_g (by decide) (by decide) major10) rfl
theorem rem (o : GOp) : Statement (.rem o) := of_view (reads_g (by decide) (by decide) major10) rfl
theorem remu (o : GOp) : Statement (.remu o) := of_view (reads_g (by decide) (by decide) major10) rfl
theorem and (o : GOp) : Statement (.and o) := of_view (reads_g (by decide) (by decide) major10) rfl
theorem or (o : GOp) : Statement (.or o) := of_view (reads_g (by decide) (by decide) major10) rfl
theorem xor (o : GOp) : Statement (.xor o) := of_view (reads_g (by decide) (by decide) major10) rfl
theorem andn (o : GOp) : Statement (.andn o) := of_view (reads_g (by decide) (by decide) major10) rfl
theorem shl (o : GOp) : Statement (.shl o) := of_view (reads_g (by decide) (by decide) major10) rfl
theorem shr (o : GOp) : Statement (.shr o) := of_view (reads_g (by decide) (by decide) major10) rfl
theorem sra (o : GOp) : Statement (.sra o) := of_view (reads_g (by decide) (by decide) major10) rfl
theorem rotl (o : GOp) : Statement (.rotl o) := of_view (reads_g (by decide) (by decide) major11) rfl
theorem rotr (o : GOp) : Statement (.rotr o) := of_view (reads_g (by decide) (by decide) major11) rfl
theorem min (o : GOp) : Statement (.min o) := of_view (reads_g (by decide) (by decide) major11) rfl
theorem max (o : GOp) : Statement (.max o) := of_view (reads_g (by decide) (by decide) major11) rfl
theorem minu (o : GOp) : Statement (.minu o) := of_view (reads_g (by decide) (by decide) major11) rfl
theorem maxu (o : GOp) : Statement (.maxu o) := of_view (reads_g (by decide) (by decide) major11) rfl
theorem clz (o : GOp) : Statement (.clz o) := of_view (reads_g (by decide) (by decide) major11) rfl
theorem ctz (o : GOp) : Statement (.ctz o) := of_view (reads_g (by decide) (by decide) major11) rfl
theorem popc (o : GOp) : Statement (.popc o) := of_view (reads_g (by decide) (by decide) major11) rfl
theorem sextb (o : GOp) : Statement (.sextb o) := of_view (reads_g (by decide) (by decide) major11) rfl
theorem sexth (o : GOp) : Statement (.sexth o) := of_view (reads_g (by decide) (by decide) major11) rfl
theorem sextw (o : GOp) : Statement (.sextw o) := of_view (reads_g (by decide) (by decide) major11) rfl
theorem zextb (o : GOp) : Statement (.zextb o) := of_view (reads_g (by decide) (by decide) major11) rfl
theorem zexth (o : GOp) : Statement (.zexth o) := of_view (reads_g (by decide) (by decide) major11) rfl
theorem zextw (o : GOp) : Statement (.zextw o) := of_view (reads_g (by decide) (by decide) major11) rfl
theorem abs (o : GOp) : Statement (.abs o) := of_view (reads_g (by decide) (by decide) major11) rfl
theorem addi (o : IOp) : Statement (.addi o) := of_view (reads_i (by decide) major12) rfl
theorem andi (o : IOp) : Statement (.andi o) := of_view (reads_i (by decide) major13) rfl
theorem ori (o : IOp) : Statement (.ori o) := of_view (reads_i (by decide) major14) rfl
theorem xori (o : IOp) : Statement (.xori o) := of_view (reads_i (by decide) major15) rfl
theorem shli (o : ITOp) : Statement (.shli o) := of_view (reads_it (by decide) (by decide) major16) rfl
theorem shri (o : ITOp) : Statement (.shri o) := of_view (reads_it (by decide) (by decide) major16) rfl
theorem srai (o : ITOp) : Statement (.srai o) := of_view (reads_it (by decide) (by decide) major16) rfl
theorem rotli (o : ITOp) : Statement (.rotli o) := of_view (reads_it (by decide) (by decide) major16) rfl
theorem muli (o : ITOp) : Statement (.muli o) := of_view (reads_it (by decide) (by decide) major16) rfl
theorem leai (o : ITOp) : Statement (.leai o) := of_view (reads_it (by decide) (by decide) major16) rfl
theorem faddS (o : GOp) : Statement (.faddS o) := of_view (reads_g (by decide) (by decide) major17) rfl
theorem fsubS (o : GOp) : Statement (.fsubS o) := of_view (reads_g (by decide) (by decide) major17) rfl
theorem fmulS (o : GOp) : Statement (.fmulS o) := of_view (reads_g (by decide) (by decide) major17) rfl
theorem fdivS (o : GOp) : Statement (.fdivS o) := of_view (reads_g (by decide) (by decide) major17) rfl
theorem fsqrtS (o : GOp) : Statement (.fsqrtS o) := of_view (reads_g (by decide) (by decide) major17) rfl
theorem fmaS (o : G3Op) : Statement (.fmaS o) := of_view (reads_g3 (by decide) (by decide) (by decide) major17) rfl
theorem fminS (o : GOp) : Statement (.fminS o) := of_view (reads_g (by decide) (by decide) major17) rfl
theorem fmaxS (o : GOp) : Statement (.fmaxS o) := of_view (reads_g (by decide) (by decide) major17) rfl
theorem frsqrtS (o : GOp) : Statement (.frsqrtS o) := of_view (reads_g (by decide) (by decide) major17) rfl
theorem fcvtfiS (o : GOp) : Statement (.fcvtfiS o) := of_view (reads_g (by decide) (by decide) major17) rfl
theorem fcvtifS (o : GOp) : Statement (.fcvtifS o) := of_view (reads_g (by decide) (by decide) major17) rfl
theorem fcvtffS (o : GOp) : Statement (.fcvtffS o) := of_view (reads_g (by decide) (by decide) major17) rfl
theorem fteqS (o : GOp) : Statement (.fteqS o) := of_view (reads_g (by decide) (by decide) major17) rfl
theorem ftltS (o : GOp) : Statement (.ftltS o) := of_view (reads_g (by decide) (by decide) major17) rfl
theorem ftleS (o : GOp) : Statement (.ftleS o) := of_view (reads_g (by decide) (by decide) major17) rfl
theorem fclassS (o : GOp) : Statement (.fclassS o) := of_view (reads_g (by decide) (by decide) major17) rfl
theorem faddD (o : GOp) : Statement (.faddD o) := of_view (reads_g (by decide) (by decide) major18) rfl
theorem fsubD (o : GOp) : Statement (.fsubD o) := of_view (reads_g (by decide) (by decide) major18) rfl
theorem fmulD (o : GOp) : Statement (.fmulD o) := of_view (reads_g (by decide) (by decide) major18) rfl
theorem fdivD (o : GOp) : Statement (.fdivD o) := of_view (reads_g (by decide) (by decide) major18) rfl
theorem fsqrtD (o : GOp) : Statement (.fsqrtD o) := of_view (reads_g (by decide) (by decide) major18) rfl
theorem fmaD (o : G3Op) : Statement (.fmaD o) := of_view (reads_g3 (by decide) (by decide) (by decide) major18) rfl
theorem fminD (o : GOp) : Statement (.fminD o) := of_view (reads_g (by decide) (by decide) major18) rfl
theorem fmaxD (o : GOp) : Statement (.fmaxD o) := of_view (reads_g (by decide) (by decide) major18) rfl
theorem frsqrtD (o : GOp) : Statement (.frsqrtD o) := of_view (reads_g (by decide) (by decide) major18) rfl
theorem fcvtfiD (o : GOp) : Statement (.fcvtfiD o) := of_view (reads_g (by decide) (by decide) major18) rfl
theorem fcvtifD (o : GOp) : Statement (.fcvtifD o) := of_view (reads_g (by decide) (by decide) major18) rfl
theorem fcvtffD (o : GOp) : Statement (.fcvtffD o) := of_view (reads_g (by decide) (by decide) major18) rfl
theorem fteqD (o : GOp) : Statement (.fteqD o) := of_view (reads_g (by decide) (by decide) major18) rfl
theorem ftltD (o : GOp) : Statement (.ftltD o) := of_view (reads_g (by decide) (by decide) major18) rfl
theorem ftleD (o : GOp) : Statement (.ftleD o) := of_view (reads_g (by decide) (by decide) major18) rfl
theorem fclassD (o : GOp) : Statement (.fclassD o) := of_view (reads_g (by decide) (by decide) major18) rfl
theorem ldb (o : MOp) : Statement (.ldb o) := of_view (reads_mem (by decide) (by decide) major19) rfl
theorem ldbu (o : MOp) : Statement (.ldbu o) := of_view (reads_mem (by decide) (by decide) major19) rfl
theorem ldh (o : MOp) : Statement (.ldh o) := of_view (reads_mem (by decide) (by decide) major19) rfl
theorem ldhu (o : MOp) : Statement (.ldhu o) := of_view (reads_mem (by decide) (by decide) major19) rfl
theorem ldw (o : MOp) : Statement (.ldw o) := of_view (reads_mem (by decide) (by decide) major19) rfl
theorem ldwu (o : MOp) : Statement (.ldwu o) := of_view (reads_mem (by decide) (by decide) major19) rfl
theorem ldd (o : MOp) : Statement (.ldd o) := of_view (reads_mem (by decide) (by decide) major19) rfl
theorem stb (o : MOp) : Statement (.stb o) := of_view (reads_mem (by decide) (by decide) major1A) rfl
theorem sth (o : MOp) : Statement (.sth o) := of_view (reads_mem (by decide) (by decide) major1A) rfl
theorem stw (o : MOp) : Statement (.stw o) := of_view (reads_mem (by decide) (by decide) major1A) rfl
theorem std (o : MOp) : Statement (.std o) := of_view (reads_mem (by decide) (by decide) major1A) rfl
theorem stqw (o : MOp) : Statement (.stqw o) := of_view (reads_mem (by decide) (by decide) major1A) rfl
theorem stqd (o : MOp) : Statement (.stqd o) := of_view (reads_mem (by decide) (by decide) major1A) rfl
theorem aadd (o : AOp) : Statement (.aadd o) := of_view (reads_amo (by decide) (by decide) major1B) rfl
theorem aand (o : AOp) : Statement (.aand o) := of_view (reads_amo (by decide) (by decide) major1B) rfl
theorem aor (o : AOp) : Statement (.aor o) := of_view (reads_amo (by decide) (by decide) major1B) rfl
theorem axor (o : AOp) : Statement (.axor o) := of_view (reads_amo (by decide) (by decide) major1B) rfl
theorem amin (o : AOp) : Statement (.amin o) := of_view (reads_amo (by decide) (by decide) major1B) rfl
theorem amax (o : AOp) : Statement (.amax o) := of_view (reads_amo (by decide) (by decide) major1B) rfl
theorem aminu (o : AOp) : Statement (.aminu o) := of_view (reads_amo (by decide) (by decide) major1B) rfl
theorem amaxu (o : AOp) : Statement (.amaxu o) := of_view (reads_amo (by decide) (by decide) major1B) rfl
theorem aswap (o : AOp) : Statement (.aswap o) := of_view (reads_amo (by decide) (by decide) major1B) rfl
theorem acas (o : A3Op) : Statement (.acas o) := of_view (reads_amo3 (by decide)) rfl
theorem ainc (o : AOp) : Statement (.ainc o) := of_view (reads_amo (by decide) (by decide) major1B) rfl
theorem abfa (o : A3Op) : Statement (.abfa o) := of_view (reads_amo3 (by decide)) rfl
theorem aaddw (o : AOp) : Statement (.aaddw o) := of_view (reads_amo (by decide) (by decide) major1B) rfl
theorem acasw (o : A3Op) : Statement (.acasw o) := of_view (reads_amo3 (by decide)) rfl
theorem aincw (o : AOp) : Statement (.aincw o) := of_view (reads_amo (by decide) (by decide) major1B) rfl
theorem fenceAcq (o : AOp) : Statement (.fenceAcq o) := of_view (reads_amo (by decide) (by decide) major1C) rfl
theorem fenceRel (o : AOp) : Statement (.fenceRel o) := of_view (reads_amo (by decide) (by decide) major1C) rfl
theorem fenceAr (o : AOp) : Statement (.fenceAr o) := of_view (reads_amo (by decide) (by decide) major1C) rfl
theorem fenceSc (o : AOp) : Statement (.fenceSc o) := of_view (reads_amo (by decide) (by decide) major1C) rfl
theorem scopeSet (o : AOp) : Statement (.scopeSet o) := of_view (reads_amo (by decide) (by decide) major1C) rfl
theorem scopeGet (o : AOp) : Statement (.scopeGet o) := of_view (reads_amo (by decide) (by decide) major1C) rfl
theorem scopeInv (o : AOp) : Statement (.scopeInv o) := of_view (reads_amo (by decide) (by decide) major1C) rfl
theorem scopeGen (o : AOp) : Statement (.scopeGen o) := of_view (reads_amo (by decide) (by decide) major1C) rfl
theorem qtime (o : GOp) : Statement (.qtime o) := of_view (reads_g (by decide) (by decide) major1D) rfl
theorem qlocal (o : GOp) : Statement (.qlocal o) := of_view (reads_g (by decide) (by decide) major1D) rfl
theorem qdl (o : GOp) : Statement (.qdl o) := of_view (reads_g (by decide) (by decide) major1D) rfl
theorem qper (o : GOp) : Statement (.qper o) := of_view (reads_g (by decide) (by decide) major1D) rfl
theorem ctlRd (o : GOp) : Statement (.ctlRd o) := of_view (reads_g (by decide) (by decide) major1E) rfl
theorem ctlWr (o : GOp) : Statement (.ctlWr o) := of_view (reads_g (by decide) (by decide) major1E) rfl
theorem tret (o : GOp) : Statement (.tret o) := of_view (reads_g (by decide) (by decide) major1E) rfl
theorem tlbInv (o : GOp) : Statement (.tlbInv o) := of_view (reads_g (by decide) (by decide) major1E) rfl
theorem ctxSave (o : GOp) : Statement (.ctxSave o) := of_view (reads_g (by decide) (by decide) major1E) rfl
theorem ctxLoad (o : GOp) : Statement (.ctxLoad o) := of_view (reads_g (by decide) (by decide) major1E) rfl
theorem vlset (o : GOp) : Statement (.vlset o) := of_view (reads_g (by decide) (by decide) major2A) rfl
theorem vlget (o : GOp) : Statement (.vlget o) := of_view (reads_g (by decide) (by decide) major2A) rfl
theorem vlmax (o : GOp) : Statement (.vlmax o) := of_view (reads_g (by decide) (by decide) major2A) rfl
theorem vrel (o : GOp) : Statement (.vrel o) := of_view (reads_g (by decide) (by decide) major2A) rfl
theorem vgrant (o : GOp) : Statement (.vgrant o) := of_view (reads_g (by decide) (by decide) major2A) rfl
theorem vawin (o : GOp) : Statement (.vawin o) := of_view (reads_g (by decide) (by decide) major2F) rfl
theorem vamerge (o : GOp) : Statement (.vamerge o) := of_view (reads_g (by decide) (by decide) major2F) rfl
theorem vawclr (o : GOp) : Statement (.vawclr o) := of_view (reads_g (by decide) (by decide) major2F) rfl
theorem cpsCfg (o : CPOp) : Statement (.cpsCfg o) := of_view (reads_cp (by decide)) rfl
theorem cpsGo (o : CPOp) : Statement (.cpsGo o) := of_view (reads_cp (by decide)) rfl
theorem cpsStep (o : CPOp) : Statement (.cpsStep o) := of_view (reads_cp (by decide)) rfl
theorem cpsAvail (o : CPOp) : Statement (.cpsAvail o) := of_view (reads_cp (by decide)) rfl
theorem cpsWait (o : CPOp) : Statement (.cpsWait o) := of_view (reads_cp (by decide)) rfl
theorem cpsKill (o : CPOp) : Statement (.cpsKill o) := of_view (reads_cp (by decide)) rfl
theorem cMov (o : COp) : Statement (.cMov o) := of_view (reads_c (by decide)) rfl
theorem cNull (o : COp) : Statement (.cNull o) := of_view (reads_c (by decide)) rfl
theorem cInc (o : COp) : Statement (.cInc o) := of_view (reads_c (by decide)) rfl
theorem cDec (o : COp) : Statement (.cDec o) := of_view (reads_c (by decide)) rfl
theorem cNot (o : COp) : Statement (.cNot o) := of_view (reads_c (by decide)) rfl
theorem cNeg (o : COp) : Statement (.cNeg o) := of_view (reads_c (by decide)) rfl
theorem cZextw (o : COp) : Statement (.cZextw o) := of_view (reads_c (by decide)) rfl
theorem cSextw (o : COp) : Statement (.cSextw o) := of_view (reads_c (by decide)) rfl
theorem cZero (o : COp) : Statement (.cZero o) := of_view (reads_c (by decide)) rfl
theorem cOne (o : COp) : Statement (.cOne o) := of_view (reads_c (by decide)) rfl
theorem vadd (o : VOp) : Statement (.vadd o) := of_view (reads_v (by decide) (by decide) major20) rfl
theorem vsub (o : VOp) : Statement (.vsub o) := of_view (reads_v (by decide) (by decide) major20) rfl
theorem vrsub (o : VOp) : Statement (.vrsub o) := of_view (reads_v (by decide) (by decide) major20) rfl
theorem vmul (o : VOp) : Statement (.vmul o) := of_view (reads_v (by decide) (by decide) major20) rfl
theorem vmulh (o : VOp) : Statement (.vmulh o) := of_view (reads_v (by decide) (by decide) major20) rfl
theorem vmadd (o : VOp) : Statement (.vmadd o) := of_view (reads_v (by decide) (by decide) major20) rfl
theorem vmsub (o : VOp) : Statement (.vmsub o) := of_view (reads_v (by decide) (by decide) major20) rfl
theorem vnmadd (o : VOp) : Statement (.vnmadd o) := of_view (reads_v (by decide) (by decide) major20) rfl
theorem vdiv (o : VOp) : Statement (.vdiv o) := of_view (reads_v (by decide) (by decide) major21) rfl
theorem vrem (o : VOp) : Statement (.vrem o) := of_view (reads_v (by decide) (by decide) major21) rfl
theorem vsqrt (o : VOp) : Statement (.vsqrt o) := of_view (reads_v (by decide) (by decide) major21) rfl
theorem vrsqrt (o : VOp) : Statement (.vrsqrt o) := of_view (reads_v (by decide) (by decide) major21) rfl
theorem vrecip (o : VOp) : Statement (.vrecip o) := of_view (reads_v (by decide) (by decide) major21) rfl
theorem vmin (o : VOp) : Statement (.vmin o) := of_view (reads_v (by decide) (by decide) major21) rfl
theorem vmax (o : VOp) : Statement (.vmax o) := of_view (reads_v (by decide) (by decide) major21) rfl
theorem vabs (o : VOp) : Statement (.vabs o) := of_view (reads_v (by decide) (by decide) major21) rfl
theorem vand (o : VOp) : Statement (.vand o) := of_view (reads_v (by decide) (by decide) major22) rfl
theorem vor (o : VOp) : Statement (.vor o) := of_view (reads_v (by decide) (by decide) major22) rfl
theorem vxor (o : VOp) : Statement (.vxor o) := of_view (reads_v (by decide) (by decide) major22) rfl
theorem vnot (o : VOp) : Statement (.vnot o) := of_view (reads_v (by decide) (by decide) major22) rfl
theorem vshl (o : VOp) : Statement (.vshl o) := of_view (reads_v (by decide) (by decide) major22) rfl
theorem vshr (o : VOp) : Statement (.vshr o) := of_view (reads_v (by decide) (by decide) major22) rfl
theorem vsra (o : VOp) : Statement (.vsra o) := of_view (reads_v (by decide) (by decide) major22) rfl
theorem vneg (o : VOp) : Statement (.vneg o) := of_view (reads_v (by decide) (by decide) major22) rfl
theorem vsadd (o : VOp) : Statement (.vsadd o) := of_view (reads_v (by decide) (by decide) major23) rfl
theorem vssub (o : VOp) : Statement (.vssub o) := of_view (reads_v (by decide) (by decide) major23) rfl
theorem vaadd (o : VOp) : Statement (.vaadd o) := of_view (reads_v (by decide) (by decide) major23) rfl
theorem vsmul (o : VOp) : Statement (.vsmul o) := of_view (reads_v (by decide) (by decide) major23) rfl
theorem vnclip (o : VOp) : Statement (.vnclip o) := of_view (reads_v (by decide) (by decide) major23) rfl
theorem vnsra (o : VOp) : Statement (.vnsra o) := of_view (reads_v (by decide) (by decide) major23) rfl
theorem vclass (o : VOp) : Statement (.vclass o) := of_view (reads_v (by decide) (by decide) major23) rfl
theorem vcvt (o : VOp) : Statement (.vcvt o) := of_view (reads_v (by decide) (by decide) major24) rfl
theorem vcvtmx (o : VOp) : Statement (.vcvtmx o) := of_view (reads_v (by decide) (by decide) major24) rfl
theorem vmerge (o : VOp) : Statement (.vmerge o) := of_view (reads_v (by decide) (by decide) major24) rfl
theorem vid (o : VOp) : Statement (.vid o) := of_view (reads_v (by decide) (by decide) major24) rfl
theorem vperm (o : VOp) : Statement (.vperm o) := of_view (reads_v (by decide) (by decide) major24) rfl
theorem vslup (o : VOp) : Statement (.vslup o) := of_view (reads_v (by decide) (by decide) major24) rfl
theorem vsldn (o : VOp) : Statement (.vsldn o) := of_view (reads_v (by decide) (by decide) major24) rfl
theorem vcompress (o : VOp) : Statement (.vcompress o) := of_view (reads_v (by decide) (by decide) major24) rfl
theorem vceq (o : VOp) : Statement (.vceq o) := of_view (reads_v (by decide) (by decide) major25) rfl
theorem vcne (o : VOp) : Statement (.vcne o) := of_view (reads_v (by decide) (by decide) major25) rfl
theorem vclt (o : VOp) : Statement (.vclt o) := of_view (reads_v (by decide) (by decide) major25) rfl
theorem vcle (o : VOp) : Statement (.vcle o) := of_view (reads_v (by decide) (by decide) major25) rfl
theorem vcgt (o : VOp) : Statement (.vcgt o) := of_view (reads_v (by decide) (by decide) major25) rfl
theorem vcge (o : VOp) : Statement (.vcge o) := of_view (reads_v (by decide) (by decide) major25) rfl
theorem vcun (o : VOp) : Statement (.vcun o) := of_view (reads_v (by decide) (by decide) major25) rfl
theorem vrsum (o : VOp) : Statement (.vrsum o) := of_view (reads_v (by decide) (by decide) major26) rfl
theorem vrosum (o : VOp) : Statement (.vrosum o) := of_view (reads_v (by decide) (by decide) major26) rfl
theorem vrmax (o : VOp) : Statement (.vrmax o) := of_view (reads_v (by decide) (by decide) major26) rfl
theorem vrmin (o : VOp) : Statement (.vrmin o) := of_view (reads_v (by decide) (by decide) major26) rfl
theorem vrand (o : VOp) : Statement (.vrand o) := of_view (reads_v (by decide) (by decide) major26) rfl
theorem vror (o : VOp) : Statement (.vror o) := of_view (reads_v (by decide) (by decide) major26) rfl
theorem vrxor (o : VOp) : Statement (.vrxor o) := of_view (reads_v (by decide) (by decide) major26) rfl
theorem vrsummx (o : VOp) : Statement (.vrsummx o) := of_view (reads_v (by decide) (by decide) major26) rfl
theorem vadds (o : VOp) : Statement (.vadds o) := of_view (reads_v (by decide) (by decide) major27) rfl
theorem vsubs (o : VOp) : Statement (.vsubs o) := of_view (reads_v (by decide) (by decide) major27) rfl
theorem vmuls (o : VOp) : Statement (.vmuls o) := of_view (reads_v (by decide) (by decide) major27) rfl
theorem vmadds (o : VOp) : Statement (.vmadds o) := of_view (reads_v (by decide) (by decide) major27) rfl
theorem vmins (o : VOp) : Statement (.vmins o) := of_view (reads_v (by decide) (by decide) major27) rfl
theorem vmaxs (o : VOp) : Statement (.vmaxs o) := of_view (reads_v (by decide) (by decide) major27) rfl
theorem vshls (o : VOp) : Statement (.vshls o) := of_view (reads_v (by decide) (by decide) major27) rfl
theorem vbcast (o : VOp) : Statement (.vbcast o) := of_view (reads_v (by decide) (by decide) major27) rfl
theorem vext (o : VXOp) : Statement (.vext o) := of_view (reads_vx (by decide)) rfl
theorem vcnt (o : VXOp) : Statement (.vcnt o) := of_view (reads_vx (by decide)) rfl
theorem mpop (o : VXOp) : Statement (.mpop o) := of_view (reads_vx (by decide)) rfl
theorem mfirst (o : VXOp) : Statement (.mfirst o) := of_view (reads_vx (by decide)) rfl
theorem vins (o : VOp) : Statement (.vins o) := of_view (reads_v (by decide) (by decide) major29) rfl
theorem mand (o : VOp) : Statement (.mand o) := of_view (reads_v (by decide) (by decide) major2B) rfl
theorem mor (o : VOp) : Statement (.mor o) := of_view (reads_v (by decide) (by decide) major2B) rfl
theorem mxor (o : VOp) : Statement (.mxor o) := of_view (reads_v (by decide) (by decide) major2B) rfl
theorem mandn (o : VOp) : Statement (.mandn o) := of_view (reads_v (by decide) (by decide) major2B) rfl
theorem mnot (o : VOp) : Statement (.mnot o) := of_view (reads_v (by decide) (by decide) major2B) rfl
theorem mset (o : VOp) : Statement (.mset o) := of_view (reads_v (by decide) (by decide) major2B) rfl
theorem mclr (o : VOp) : Statement (.mclr o) := of_view (reads_v (by decide) (by decide) major2B) rfl
theorem mfromv (o : VOp) : Statement (.mfromv o) := of_view (reads_v (by decide) (by decide) major2B) rfl
theorem vld (o : VMOp) : Statement (.vld o) := of_view (reads_vm (by decide) (by decide) major2C) rfl
theorem vlds (o : VMOp) : Statement (.vlds o) := of_view (reads_vm (by decide) (by decide) major2C) rfl
theorem vldx (o : VMOp) : Statement (.vldx o) := of_view (reads_vm (by decide) (by decide) major2C) rfl
theorem vldseg (o : VMOp) : Statement (.vldseg o) := of_view (reads_vm (by decide) (by decide) major2C) rfl
theorem vldff (o : VMOp) : Statement (.vldff o) := of_view (reads_vm (by decide) (by decide) major2C) rfl
theorem vldxo (o : VMOp) : Statement (.vldxo o) := of_view (reads_vm (by decide) (by decide) major2C) rfl
theorem vldmx (o : VMOp) : Statement (.vldmx o) := of_view (reads_vm (by decide) (by decide) major2C) rfl
theorem vldcs (o : VMOp) : Statement (.vldcs o) := of_view (reads_vm (by decide) (by decide) major2C) rfl
theorem vst (o : VMOp) : Statement (.vst o) := of_view (reads_vm (by decide) (by decide) major2D) rfl
theorem vsts (o : VMOp) : Statement (.vsts o) := of_view (reads_vm (by decide) (by decide) major2D) rfl
theorem vstx (o : VMOp) : Statement (.vstx o) := of_view (reads_vm (by decide) (by decide) major2D) rfl
theorem vstseg (o : VMOp) : Statement (.vstseg o) := of_view (reads_vm (by decide) (by decide) major2D) rfl
theorem vstxo (o : VMOp) : Statement (.vstxo o) := of_view (reads_vm (by decide) (by decide) major2D) rfl
theorem vsto (o : VMOp) : Statement (.vsto o) := of_view (reads_vm (by decide) (by decide) major2D) rfl
theorem vstmx (o : VMOp) : Statement (.vstmx o) := of_view (reads_vm (by decide) (by decide) major2D) rfl
theorem vgl (o : VMOp) : Statement (.vgl o) := of_view (reads_vm (by decide) (by decide) major2E) rfl
theorem vsc (o : VMOp) : Statement (.vsc o) := of_view (reads_vm (by decide) (by decide) major2E) rfl
theorem vacc (o : VMOp) : Statement (.vacc o) := of_view (reads_vm (by decide) (by decide) major2E) rfl
theorem vwait (o : VMOp) : Statement (.vwait o) := of_view (reads_vm (by decide) (by decide) major2E) rfl
theorem mshape (o : TOp) : Statement (.mshape o) := of_view (reads_tile (by decide)) rfl
theorem mzero (o : TOp) : Statement (.mzero o) := of_view (reads_tile (by decide)) rfl
theorem mop (o : TOp) : Statement (.mop o) := of_view (reads_tile (by decide)) rfl
theorem mopmx (o : TOp) : Statement (.mopmx o) := of_view (reads_tile (by decide)) rfl
theorem mopd (o : TOp) : Statement (.mopd o) := of_view (reads_tile (by decide)) rfl
theorem mld (o : TOp) : Statement (.mld o) := of_view (reads_tile (by decide)) rfl
theorem mst (o : TOp) : Statement (.mst o) := of_view (reads_tile (by decide)) rfl
theorem mrowv (o : TOp) : Statement (.mrowv o) := of_view (reads_tile (by decide)) rfl
theorem mvrow (o : TOp) : Statement (.mvrow o) := of_view (reads_tile (by decide)) rfl
theorem mcolv (o : TOp) : Statement (.mcolv o) := of_view (reads_tile (by decide)) rfl

end Sys2Proof.Laws.RoundTrip
end

