-- ==== Sys2Proof/Laws/State.lean ====
section
/-! SUPPORT. One lemma for each field of the state under each update, true by definition, so that no later proof unfolds a record update; and
what the readers of a strand and of a core see after an update. -/

namespace Sys2Proof.Machine

variable (s : State)

section
variable (sid : Nat) (f : Strand → Strand)
@[simp] theorem State.updStrand_plan : (s.updStrand sid f).plan = s.plan := rfl
@[simp] theorem State.updStrand_cursor : (s.updStrand sid f).cursor = s.cursor := rfl
@[simp] theorem State.updStrand_free : (s.updStrand sid f).free = s.free := rfl
@[simp] theorem State.updStrand_seq : (s.updStrand sid f).seq = s.seq := rfl
@[simp] theorem State.updStrand_now : (s.updStrand sid f).now = s.now := rfl
@[simp] theorem State.updStrand_mem : (s.updStrand sid f).mem = s.mem := rfl
@[simp] theorem State.updStrand_marks : (s.updStrand sid f).marks = s.marks := rfl
@[simp] theorem State.updStrand_cores : (s.updStrand sid f).cores = s.cores := rfl
@[simp] theorem State.updStrand_strands : (s.updStrand sid f).strands = s.strands.adjust sid f := rfl
@[simp] theorem State.updStrand_gangs : (s.updStrand sid f).gangs = s.gangs := rfl
@[simp] theorem State.updStrand_contexts : (s.updStrand sid f).contexts = s.contexts := rfl
@[simp] theorem State.updStrand_dies : (s.updStrand sid f).dies = s.dies := rfl
@[simp] theorem State.updStrand_walks : (s.updStrand sid f).walks = s.walks := rfl
@[simp] theorem State.updStrand_held : (s.updStrand sid f).held = s.held := rfl
@[simp] theorem State.updStrand_resv : (s.updStrand sid f).resv = s.resv := rfl
@[simp] theorem State.updStrand_links : (s.updStrand sid f).links = s.links := rfl
@[simp] theorem State.updStrand_ports : (s.updStrand sid f).ports = s.ports := rfl
@[simp] theorem State.updStrand_clusters : (s.updStrand sid f).clusters = s.clusters := rfl
@[simp] theorem State.updStrand_pkg : (s.updStrand sid f).pkg = s.pkg := rfl
@[simp] theorem State.updStrand_ao : (s.updStrand sid f).ao = s.ao := rfl
@[simp] theorem State.updStrand_trtbase : (s.updStrand sid f).trtbase = s.trtbase := rfl
@[simp] theorem State.updStrand_rings : (s.updStrand sid f).rings = s.rings := rfl
@[simp] theorem State.updStrand_disp : (s.updStrand sid f).disp = s.disp := rfl
@[simp] theorem State.updStrand_invals : (s.updStrand sid f).invals = s.invals := rfl
@[simp] theorem State.updStrand_board : (s.updStrand sid f).board = s.board := rfl
@[simp] theorem State.updStrand_out : (s.updStrand sid f).out = s.out := rfl
@[simp] theorem State.updStrand_core (x : Nat) : (s.updStrand sid f).core x = s.core x := rfl
end

section
variable (c : Nat) (f : Core → Core)
@[simp] theorem State.updCore_plan : (s.updCore c f).plan = s.plan := rfl
@[simp] theorem State.updCore_cursor : (s.updCore c f).cursor = s.cursor := rfl
@[simp] theorem State.updCore_free : (s.updCore c f).free = s.free := rfl
@[simp] theorem State.updCore_seq : (s.updCore c f).seq = s.seq := rfl
@[simp] theorem State.updCore_now : (s.updCore c f).now = s.now := rfl
@[simp] theorem State.updCore_mem : (s.updCore c f).mem = s.mem := rfl
@[simp] theorem State.updCore_marks : (s.updCore c f).marks = s.marks := rfl
@[simp] theorem State.updCore_cores : (s.updCore c f).cores = s.cores.put c (f (s.core c)) := rfl
@[simp] theorem State.updCore_strands : (s.updCore c f).strands = s.strands := rfl
@[simp] theorem State.updCore_gangs : (s.updCore c f).gangs = s.gangs := rfl
@[simp] theorem State.updCore_contexts : (s.updCore c f).contexts = s.contexts := rfl
@[simp] theorem State.updCore_dies : (s.updCore c f).dies = s.dies := rfl
@[simp] theorem State.updCore_walks : (s.updCore c f).walks = s.walks := rfl
@[simp] theorem State.updCore_held : (s.updCore c f).held = s.held := rfl
@[simp] theorem State.updCore_resv : (s.updCore c f).resv = s.resv := rfl
@[simp] theorem State.updCore_links : (s.updCore c f).links = s.links := rfl
@[simp] theorem State.updCore_ports : (s.updCore c f).ports = s.ports := rfl
@[simp] theorem State.updCore_clusters : (s.updCore c f).clusters = s.clusters := rfl
@[simp] theorem State.updCore_pkg : (s.updCore c f).pkg = s.pkg := rfl
@[simp] theorem State.updCore_ao : (s.updCore c f).ao = s.ao := rfl
@[simp] theorem State.updCore_trtbase : (s.updCore c f).trtbase = s.trtbase := rfl
@[simp] theorem State.updCore_rings : (s.updCore c f).rings = s.rings := rfl
@[simp] theorem State.updCore_disp : (s.updCore c f).disp = s.disp := rfl
@[simp] theorem State.updCore_invals : (s.updCore c f).invals = s.invals := rfl
@[simp] theorem State.updCore_board : (s.updCore c f).board = s.board := rfl
@[simp] theorem State.updCore_out : (s.updCore c f).out = s.out := rfl
@[simp] theorem State.updCore_strand (x : Nat) : (s.updCore c f).strand? x = s.strand? x := rfl
end

section
variable (g : Nat) (f : Gang → Gang)
@[simp] theorem State.updGang_plan : (s.updGang g f).plan = s.plan := rfl
@[simp] theorem State.updGang_cursor : (s.updGang g f).cursor = s.cursor := rfl
@[simp] theorem State.updGang_free : (s.updGang g f).free = s.free := rfl
@[simp] theorem State.updGang_seq : (s.updGang g f).seq = s.seq := rfl
@[simp] theorem State.updGang_now : (s.updGang g f).now = s.now := rfl
@[simp] theorem State.updGang_mem : (s.updGang g f).mem = s.mem := rfl
@[simp] theorem State.updGang_marks : (s.updGang g f).marks = s.marks := rfl
@[simp] theorem State.updGang_cores : (s.updGang g f).cores = s.cores := rfl
@[simp] theorem State.updGang_strands : (s.updGang g f).strands = s.strands := rfl
@[simp] theorem State.updGang_gangs : (s.updGang g f).gangs = s.gangs.adjust g f := rfl
@[simp] theorem State.updGang_contexts : (s.updGang g f).contexts = s.contexts := rfl
@[simp] theorem State.updGang_dies : (s.updGang g f).dies = s.dies := rfl
@[simp] theorem State.updGang_walks : (s.updGang g f).walks = s.walks := rfl
@[simp] theorem State.updGang_held : (s.updGang g f).held = s.held := rfl
@[simp] theorem State.updGang_resv : (s.updGang g f).resv = s.resv := rfl
@[simp] theorem State.updGang_links : (s.updGang g f).links = s.links := rfl
@[simp] theorem State.updGang_ports : (s.updGang g f).ports = s.ports := rfl
@[simp] theorem State.updGang_clusters : (s.updGang g f).clusters = s.clusters := rfl
@[simp] theorem State.updGang_pkg : (s.updGang g f).pkg = s.pkg := rfl
@[simp] theorem State.updGang_ao : (s.updGang g f).ao = s.ao := rfl
@[simp] theorem State.updGang_trtbase : (s.updGang g f).trtbase = s.trtbase := rfl
@[simp] theorem State.updGang_rings : (s.updGang g f).rings = s.rings := rfl
@[simp] theorem State.updGang_disp : (s.updGang g f).disp = s.disp := rfl
@[simp] theorem State.updGang_invals : (s.updGang g f).invals = s.invals := rfl
@[simp] theorem State.updGang_board : (s.updGang g f).board = s.board := rfl
@[simp] theorem State.updGang_out : (s.updGang g f).out = s.out := rfl
@[simp] theorem State.updGang_core (x : Nat) : (s.updGang g f).core x = s.core x := rfl
@[simp] theorem State.updGang_strand (x : Nat) : (s.updGang g f).strand? x = s.strand? x := rfl
end

section
variable (d : Nat) (f : Die → Die)
@[simp] theorem State.updDie_plan : (s.updDie d f).plan = s.plan := rfl
@[simp] theorem State.updDie_cursor : (s.updDie d f).cursor = s.cursor := rfl
@[simp] theorem State.updDie_free : (s.updDie d f).free = s.free := rfl
@[simp] theorem State.updDie_seq : (s.updDie d f).seq = s.seq := rfl
@[simp] theorem State.updDie_now : (s.updDie d f).now = s.now := rfl
@[simp] theorem State.updDie_mem : (s.updDie d f).mem = s.mem := rfl
@[simp] theorem State.updDie_marks : (s.updDie d f).marks = s.marks := rfl
@[simp] theorem State.updDie_cores : (s.updDie d f).cores = s.cores := rfl
@[simp] theorem State.updDie_strands : (s.updDie d f).strands = s.strands := rfl
@[simp] theorem State.updDie_gangs : (s.updDie d f).gangs = s.gangs := rfl
@[simp] theorem State.updDie_contexts : (s.updDie d f).contexts = s.contexts := rfl
@[simp] theorem State.updDie_dies : (s.updDie d f).dies = s.dies.put d (f (s.die d)) := rfl
@[simp] theorem State.updDie_walks : (s.updDie d f).walks = s.walks := rfl
@[simp] theorem State.updDie_held : (s.updDie d f).held = s.held := rfl
@[simp] theorem State.updDie_resv : (s.updDie d f).resv = s.resv := rfl
@[simp] theorem State.updDie_links : (s.updDie d f).links = s.links := rfl
@[simp] theorem State.updDie_ports : (s.updDie d f).ports = s.ports := rfl
@[simp] theorem State.updDie_clusters : (s.updDie d f).clusters = s.clusters := rfl
@[simp] theorem State.updDie_pkg : (s.updDie d f).pkg = s.pkg := rfl
@[simp] theorem State.updDie_ao : (s.updDie d f).ao = s.ao := rfl
@[simp] theorem State.updDie_trtbase : (s.updDie d f).trtbase = s.trtbase := rfl
@[simp] theorem State.updDie_rings : (s.updDie d f).rings = s.rings := rfl
@[simp] theorem State.updDie_disp : (s.updDie d f).disp = s.disp := rfl
@[simp] theorem State.updDie_invals : (s.updDie d f).invals = s.invals := rfl
@[simp] theorem State.updDie_board : (s.updDie d f).board = s.board := rfl
@[simp] theorem State.updDie_out : (s.updDie d f).out = s.out := rfl
@[simp] theorem State.updDie_core (x : Nat) : (s.updDie d f).core x = s.core x := rfl
@[simp] theorem State.updDie_strand (x : Nat) : (s.updDie d f).strand? x = s.strand? x := rfl
end

section
variable (c : Nat) (f : Context → Context)
@[simp] theorem State.updCtx_plan : (s.updCtx c f).plan = s.plan := rfl
@[simp] theorem State.updCtx_cursor : (s.updCtx c f).cursor = s.cursor := rfl
@[simp] theorem State.updCtx_free : (s.updCtx c f).free = s.free := rfl
@[simp] theorem State.updCtx_seq : (s.updCtx c f).seq = s.seq := rfl
@[simp] theorem State.updCtx_now : (s.updCtx c f).now = s.now := rfl
@[simp] theorem State.updCtx_mem : (s.updCtx c f).mem = s.mem := rfl
@[simp] theorem State.updCtx_marks : (s.updCtx c f).marks = s.marks := rfl
@[simp] theorem State.updCtx_cores : (s.updCtx c f).cores = s.cores := rfl
@[simp] theorem State.updCtx_strands : (s.updCtx c f).strands = s.strands := rfl
@[simp] theorem State.updCtx_gangs : (s.updCtx c f).gangs = s.gangs := rfl
@[simp] theorem State.updCtx_contexts : (s.updCtx c f).contexts = s.contexts.adjust c f := rfl
@[simp] theorem State.updCtx_dies : (s.updCtx c f).dies = s.dies := rfl
@[simp] theorem State.updCtx_walks : (s.updCtx c f).walks = s.walks := rfl
@[simp] theorem State.updCtx_held : (s.updCtx c f).held = s.held := rfl
@[simp] theorem State.updCtx_resv : (s.updCtx c f).resv = s.resv := rfl
@[simp] theorem State.updCtx_links : (s.updCtx c f).links = s.links := rfl
@[simp] theorem State.updCtx_ports : (s.updCtx c f).ports = s.ports := rfl
@[simp] theorem State.updCtx_clusters : (s.updCtx c f).clusters = s.clusters := rfl
@[simp] theorem State.updCtx_pkg : (s.updCtx c f).pkg = s.pkg := rfl
@[simp] theorem State.updCtx_ao : (s.updCtx c f).ao = s.ao := rfl
@[simp] theorem State.updCtx_trtbase : (s.updCtx c f).trtbase = s.trtbase := rfl
@[simp] theorem State.updCtx_rings : (s.updCtx c f).rings = s.rings := rfl
@[simp] theorem State.updCtx_disp : (s.updCtx c f).disp = s.disp := rfl
@[simp] theorem State.updCtx_invals : (s.updCtx c f).invals = s.invals := rfl
@[simp] theorem State.updCtx_board : (s.updCtx c f).board = s.board := rfl
@[simp] theorem State.updCtx_out : (s.updCtx c f).out = s.out := rfl
@[simp] theorem State.updCtx_core (x : Nat) : (s.updCtx c f).core x = s.core x := rfl
@[simp] theorem State.updCtx_strand (x : Nat) : (s.updCtx c f).strand? x = s.strand? x := rfl
end

section
variable (k : Nat) (f : Cluster → Cluster)
@[simp] theorem State.updCluster_plan : (s.updCluster k f).plan = s.plan := rfl
@[simp] theorem State.updCluster_cursor : (s.updCluster k f).cursor = s.cursor := rfl
@[simp] theorem State.updCluster_free : (s.updCluster k f).free = s.free := rfl
@[simp] theorem State.updCluster_seq : (s.updCluster k f).seq = s.seq := rfl
@[simp] theorem State.updCluster_now : (s.updCluster k f).now = s.now := rfl
@[simp] theorem State.updCluster_mem : (s.updCluster k f).mem = s.mem := rfl
@[simp] theorem State.updCluster_marks : (s.updCluster k f).marks = s.marks := rfl
@[simp] theorem State.updCluster_cores : (s.updCluster k f).cores = s.cores := rfl
@[simp] theorem State.updCluster_strands : (s.updCluster k f).strands = s.strands := rfl
@[simp] theorem State.updCluster_gangs : (s.updCluster k f).gangs = s.gangs := rfl
@[simp] theorem State.updCluster_contexts : (s.updCluster k f).contexts = s.contexts := rfl
@[simp] theorem State.updCluster_dies : (s.updCluster k f).dies = s.dies := rfl
@[simp] theorem State.updCluster_walks : (s.updCluster k f).walks = s.walks := rfl
@[simp] theorem State.updCluster_held : (s.updCluster k f).held = s.held := rfl
@[simp] theorem State.updCluster_resv : (s.updCluster k f).resv = s.resv := rfl
@[simp] theorem State.updCluster_links : (s.updCluster k f).links = s.links := rfl
@[simp] theorem State.updCluster_ports : (s.updCluster k f).ports = s.ports := rfl
@[simp] theorem State.updCluster_clusters : (s.updCluster k f).clusters = s.clusters.put k (f (s.cluster k)) := rfl
@[simp] theorem State.updCluster_pkg : (s.updCluster k f).pkg = s.pkg := rfl
@[simp] theorem State.updCluster_ao : (s.updCluster k f).ao = s.ao := rfl
@[simp] theorem State.updCluster_trtbase : (s.updCluster k f).trtbase = s.trtbase := rfl
@[simp] theorem State.updCluster_rings : (s.updCluster k f).rings = s.rings := rfl
@[simp] theorem State.updCluster_disp : (s.updCluster k f).disp = s.disp := rfl
@[simp] theorem State.updCluster_invals : (s.updCluster k f).invals = s.invals := rfl
@[simp] theorem State.updCluster_board : (s.updCluster k f).board = s.board := rfl
@[simp] theorem State.updCluster_out : (s.updCluster k f).out = s.out := rfl
@[simp] theorem State.updCluster_core (x : Nat) : (s.updCluster k f).core x = s.core x := rfl
@[simp] theorem State.updCluster_strand (x : Nat) : (s.updCluster k f).strand? x = s.strand? x := rfl
end

section
variable (p : Nat) (f : Port → Port)
@[simp] theorem State.updPort_plan : (s.updPort p f).plan = s.plan := rfl
@[simp] theorem State.updPort_cursor : (s.updPort p f).cursor = s.cursor := rfl
@[simp] theorem State.updPort_free : (s.updPort p f).free = s.free := rfl
@[simp] theorem State.updPort_seq : (s.updPort p f).seq = s.seq := rfl
@[simp] theorem State.updPort_now : (s.updPort p f).now = s.now := rfl
@[simp] theorem State.updPort_mem : (s.updPort p f).mem = s.mem := rfl
@[simp] theorem State.updPort_marks : (s.updPort p f).marks = s.marks := rfl
@[simp] theorem State.updPort_cores : (s.updPort p f).cores = s.cores := rfl
@[simp] theorem State.updPort_strands : (s.updPort p f).strands = s.strands := rfl
@[simp] theorem State.updPort_gangs : (s.updPort p f).gangs = s.gangs := rfl
@[simp] theorem State.updPort_contexts : (s.updPort p f).contexts = s.contexts := rfl
@[simp] theorem State.updPort_dies : (s.updPort p f).dies = s.dies := rfl
@[simp] theorem State.updPort_walks : (s.updPort p f).walks = s.walks := rfl
@[simp] theorem State.updPort_held : (s.updPort p f).held = s.held := rfl
@[simp] theorem State.updPort_resv : (s.updPort p f).resv = s.resv := rfl
@[simp] theorem State.updPort_links : (s.updPort p f).links = s.links := rfl
@[simp] theorem State.updPort_ports : (s.updPort p f).ports = s.ports.put p (f (s.port p)) := rfl
@[simp] theorem State.updPort_clusters : (s.updPort p f).clusters = s.clusters := rfl
@[simp] theorem State.updPort_pkg : (s.updPort p f).pkg = s.pkg := rfl
@[simp] theorem State.updPort_ao : (s.updPort p f).ao = s.ao := rfl
@[simp] theorem State.updPort_trtbase : (s.updPort p f).trtbase = s.trtbase := rfl
@[simp] theorem State.updPort_rings : (s.updPort p f).rings = s.rings := rfl
@[simp] theorem State.updPort_disp : (s.updPort p f).disp = s.disp := rfl
@[simp] theorem State.updPort_invals : (s.updPort p f).invals = s.invals := rfl
@[simp] theorem State.updPort_board : (s.updPort p f).board = s.board := rfl
@[simp] theorem State.updPort_out : (s.updPort p f).out = s.out := rfl
@[simp] theorem State.updPort_core (x : Nat) : (s.updPort p f).core x = s.core x := rfl
@[simp] theorem State.updPort_strand (x : Nat) : (s.updPort p f).strand? x = s.strand? x := rfl
end

section
variable (l : Nat) (f : DieLink → DieLink)
@[simp] theorem State.updLink_plan : (s.updLink l f).plan = s.plan := rfl
@[simp] theorem State.updLink_cursor : (s.updLink l f).cursor = s.cursor := rfl
@[simp] theorem State.updLink_free : (s.updLink l f).free = s.free := rfl
@[simp] theorem State.updLink_seq : (s.updLink l f).seq = s.seq := rfl
@[simp] theorem State.updLink_now : (s.updLink l f).now = s.now := rfl
@[simp] theorem State.updLink_mem : (s.updLink l f).mem = s.mem := rfl
@[simp] theorem State.updLink_marks : (s.updLink l f).marks = s.marks := rfl
@[simp] theorem State.updLink_cores : (s.updLink l f).cores = s.cores := rfl
@[simp] theorem State.updLink_strands : (s.updLink l f).strands = s.strands := rfl
@[simp] theorem State.updLink_gangs : (s.updLink l f).gangs = s.gangs := rfl
@[simp] theorem State.updLink_contexts : (s.updLink l f).contexts = s.contexts := rfl
@[simp] theorem State.updLink_dies : (s.updLink l f).dies = s.dies := rfl
@[simp] theorem State.updLink_walks : (s.updLink l f).walks = s.walks := rfl
@[simp] theorem State.updLink_held : (s.updLink l f).held = s.held := rfl
@[simp] theorem State.updLink_resv : (s.updLink l f).resv = s.resv := rfl
@[simp] theorem State.updLink_links : (s.updLink l f).links = s.links.put l (f (s.link l)) := rfl
@[simp] theorem State.updLink_ports : (s.updLink l f).ports = s.ports := rfl
@[simp] theorem State.updLink_clusters : (s.updLink l f).clusters = s.clusters := rfl
@[simp] theorem State.updLink_pkg : (s.updLink l f).pkg = s.pkg := rfl
@[simp] theorem State.updLink_ao : (s.updLink l f).ao = s.ao := rfl
@[simp] theorem State.updLink_trtbase : (s.updLink l f).trtbase = s.trtbase := rfl
@[simp] theorem State.updLink_rings : (s.updLink l f).rings = s.rings := rfl
@[simp] theorem State.updLink_disp : (s.updLink l f).disp = s.disp := rfl
@[simp] theorem State.updLink_invals : (s.updLink l f).invals = s.invals := rfl
@[simp] theorem State.updLink_board : (s.updLink l f).board = s.board := rfl
@[simp] theorem State.updLink_out : (s.updLink l f).out = s.out := rfl
@[simp] theorem State.updLink_core (x : Nat) : (s.updLink l f).core x = s.core x := rfl
@[simp] theorem State.updLink_strand (x : Nat) : (s.updLink l f).strand? x = s.strand? x := rfl
end

section
variable (f : Board → Board)
@[simp] theorem State.updBoard_plan : (s.updBoard f).plan = s.plan := rfl
@[simp] theorem State.updBoard_cursor : (s.updBoard f).cursor = s.cursor := rfl
@[simp] theorem State.updBoard_free : (s.updBoard f).free = s.free := rfl
@[simp] theorem State.updBoard_seq : (s.updBoard f).seq = s.seq := rfl
@[simp] theorem State.updBoard_now : (s.updBoard f).now = s.now := rfl
@[simp] theorem State.updBoard_mem : (s.updBoard f).mem = s.mem := rfl
@[simp] theorem State.updBoard_marks : (s.updBoard f).marks = s.marks := rfl
@[simp] theorem State.updBoard_cores : (s.updBoard f).cores = s.cores := rfl
@[simp] theorem State.updBoard_strands : (s.updBoard f).strands = s.strands := rfl
@[simp] theorem State.updBoard_gangs : (s.updBoard f).gangs = s.gangs := rfl
@[simp] theorem State.updBoard_contexts : (s.updBoard f).contexts = s.contexts := rfl
@[simp] theorem State.updBoard_dies : (s.updBoard f).dies = s.dies := rfl
@[simp] theorem State.updBoard_walks : (s.updBoard f).walks = s.walks := rfl
@[simp] theorem State.updBoard_held : (s.updBoard f).held = s.held := rfl
@[simp] theorem State.updBoard_resv : (s.updBoard f).resv = s.resv := rfl
@[simp] theorem State.updBoard_links : (s.updBoard f).links = s.links := rfl
@[simp] theorem State.updBoard_ports : (s.updBoard f).ports = s.ports := rfl
@[simp] theorem State.updBoard_clusters : (s.updBoard f).clusters = s.clusters := rfl
@[simp] theorem State.updBoard_pkg : (s.updBoard f).pkg = s.pkg := rfl
@[simp] theorem State.updBoard_ao : (s.updBoard f).ao = s.ao := rfl
@[simp] theorem State.updBoard_trtbase : (s.updBoard f).trtbase = s.trtbase := rfl
@[simp] theorem State.updBoard_rings : (s.updBoard f).rings = s.rings := rfl
@[simp] theorem State.updBoard_disp : (s.updBoard f).disp = s.disp := rfl
@[simp] theorem State.updBoard_invals : (s.updBoard f).invals = s.invals := rfl
@[simp] theorem State.updBoard_board : (s.updBoard f).board = f s.board := rfl
@[simp] theorem State.updBoard_out : (s.updBoard f).out = s.out := rfl
@[simp] theorem State.updBoard_core (x : Nat) : (s.updBoard f).core x = s.core x := rfl
@[simp] theorem State.updBoard_strand (x : Nat) : (s.updBoard f).strand? x = s.strand? x := rfl
end

section
variable (f : Pkg → Pkg)
@[simp] theorem State.updPkg_plan : (s.updPkg f).plan = s.plan := rfl
@[simp] theorem State.updPkg_cursor : (s.updPkg f).cursor = s.cursor := rfl
@[simp] theorem State.updPkg_free : (s.updPkg f).free = s.free := rfl
@[simp] theorem State.updPkg_seq : (s.updPkg f).seq = s.seq := rfl
@[simp] theorem State.updPkg_now : (s.updPkg f).now = s.now := rfl
@[simp] theorem State.updPkg_mem : (s.updPkg f).mem = s.mem := rfl
@[simp] theorem State.updPkg_marks : (s.updPkg f).marks = s.marks := rfl
@[simp] theorem State.updPkg_cores : (s.updPkg f).cores = s.cores := rfl
@[simp] theorem State.updPkg_strands : (s.updPkg f).strands = s.strands := rfl
@[simp] theorem State.updPkg_gangs : (s.updPkg f).gangs = s.gangs := rfl
@[simp] theorem State.updPkg_contexts : (s.updPkg f).contexts = s.contexts := rfl
@[simp] theorem State.updPkg_dies : (s.updPkg f).dies = s.dies := rfl
@[simp] theorem State.updPkg_walks : (s.updPkg f).walks = s.walks := rfl
@[simp] theorem State.updPkg_held : (s.updPkg f).held = s.held := rfl
@[simp] theorem State.updPkg_resv : (s.updPkg f).resv = s.resv := rfl
@[simp] theorem State.updPkg_links : (s.updPkg f).links = s.links := rfl
@[simp] theorem State.updPkg_ports : (s.updPkg f).ports = s.ports := rfl
@[simp] theorem State.updPkg_clusters : (s.updPkg f).clusters = s.clusters := rfl
@[simp] theorem State.updPkg_pkg : (s.updPkg f).pkg = f s.pkg := rfl
@[simp] theorem State.updPkg_ao : (s.updPkg f).ao = s.ao := rfl
@[simp] theorem State.updPkg_trtbase : (s.updPkg f).trtbase = s.trtbase := rfl
@[simp] theorem State.updPkg_rings : (s.updPkg f).rings = s.rings := rfl
@[simp] theorem State.updPkg_disp : (s.updPkg f).disp = s.disp := rfl
@[simp] theorem State.updPkg_invals : (s.updPkg f).invals = s.invals := rfl
@[simp] theorem State.updPkg_board : (s.updPkg f).board = s.board := rfl
@[simp] theorem State.updPkg_out : (s.updPkg f).out = s.out := rfl
@[simp] theorem State.updPkg_core (x : Nat) : (s.updPkg f).core x = s.core x := rfl
@[simp] theorem State.updPkg_strand (x : Nat) : (s.updPkg f).strand? x = s.strand? x := rfl
end

section
variable (f : Dispatcher → Dispatcher)
@[simp] theorem State.updDisp_plan : (s.updDisp f).plan = s.plan := rfl
@[simp] theorem State.updDisp_cursor : (s.updDisp f).cursor = s.cursor := rfl
@[simp] theorem State.updDisp_free : (s.updDisp f).free = s.free := rfl
@[simp] theorem State.updDisp_seq : (s.updDisp f).seq = s.seq := rfl
@[simp] theorem State.updDisp_now : (s.updDisp f).now = s.now := rfl
@[simp] theorem State.updDisp_mem : (s.updDisp f).mem = s.mem := rfl
@[simp] theorem State.updDisp_marks : (s.updDisp f).marks = s.marks := rfl
@[simp] theorem State.updDisp_cores : (s.updDisp f).cores = s.cores := rfl
@[simp] theorem State.updDisp_strands : (s.updDisp f).strands = s.strands := rfl
@[simp] theorem State.updDisp_gangs : (s.updDisp f).gangs = s.gangs := rfl
@[simp] theorem State.updDisp_contexts : (s.updDisp f).contexts = s.contexts := rfl
@[simp] theorem State.updDisp_dies : (s.updDisp f).dies = s.dies := rfl
@[simp] theorem State.updDisp_walks : (s.updDisp f).walks = s.walks := rfl
@[simp] theorem State.updDisp_held : (s.updDisp f).held = s.held := rfl
@[simp] theorem State.updDisp_resv : (s.updDisp f).resv = s.resv := rfl
@[simp] theorem State.updDisp_links : (s.updDisp f).links = s.links := rfl
@[simp] theorem State.updDisp_ports : (s.updDisp f).ports = s.ports := rfl
@[simp] theorem State.updDisp_clusters : (s.updDisp f).clusters = s.clusters := rfl
@[simp] theorem State.updDisp_pkg : (s.updDisp f).pkg = s.pkg := rfl
@[simp] theorem State.updDisp_ao : (s.updDisp f).ao = s.ao := rfl
@[simp] theorem State.updDisp_trtbase : (s.updDisp f).trtbase = s.trtbase := rfl
@[simp] theorem State.updDisp_rings : (s.updDisp f).rings = s.rings := rfl
@[simp] theorem State.updDisp_disp : (s.updDisp f).disp = f s.disp := rfl
@[simp] theorem State.updDisp_invals : (s.updDisp f).invals = s.invals := rfl
@[simp] theorem State.updDisp_board : (s.updDisp f).board = s.board := rfl
@[simp] theorem State.updDisp_out : (s.updDisp f).out = s.out := rfl
@[simp] theorem State.updDisp_core (x : Nat) : (s.updDisp f).core x = s.core x := rfl
@[simp] theorem State.updDisp_strand (x : Nat) : (s.updDisp f).strand? x = s.strand? x := rfl
end

section
variable (sid : Nat) (f : Window → Window)
@[simp] theorem State.updWin_plan : (s.updWin sid f).plan = s.plan := rfl
@[simp] theorem State.updWin_cursor : (s.updWin sid f).cursor = s.cursor := rfl
@[simp] theorem State.updWin_free : (s.updWin sid f).free = s.free := rfl
@[simp] theorem State.updWin_seq : (s.updWin sid f).seq = s.seq := rfl
@[simp] theorem State.updWin_now : (s.updWin sid f).now = s.now := rfl
@[simp] theorem State.updWin_mem : (s.updWin sid f).mem = s.mem := rfl
@[simp] theorem State.updWin_marks : (s.updWin sid f).marks = s.marks := rfl
@[simp] theorem State.updWin_cores : (s.updWin sid f).cores = s.cores := rfl
@[simp] theorem State.updWin_strands : (s.updWin sid f).strands = s.strands.adjust sid (·.updWin f) := rfl
@[simp] theorem State.updWin_gangs : (s.updWin sid f).gangs = s.gangs := rfl
@[simp] theorem State.updWin_contexts : (s.updWin sid f).contexts = s.contexts := rfl
@[simp] theorem State.updWin_dies : (s.updWin sid f).dies = s.dies := rfl
@[simp] theorem State.updWin_walks : (s.updWin sid f).walks = s.walks := rfl
@[simp] theorem State.updWin_held : (s.updWin sid f).held = s.held := rfl
@[simp] theorem State.updWin_resv : (s.updWin sid f).resv = s.resv := rfl
@[simp] theorem State.updWin_links : (s.updWin sid f).links = s.links := rfl
@[simp] theorem State.updWin_ports : (s.updWin sid f).ports = s.ports := rfl
@[simp] theorem State.updWin_clusters : (s.updWin sid f).clusters = s.clusters := rfl
@[simp] theorem State.updWin_pkg : (s.updWin sid f).pkg = s.pkg := rfl
@[simp] theorem State.updWin_ao : (s.updWin sid f).ao = s.ao := rfl
@[simp] theorem State.updWin_trtbase : (s.updWin sid f).trtbase = s.trtbase := rfl
@[simp] theorem State.updWin_rings : (s.updWin sid f).rings = s.rings := rfl
@[simp] theorem State.updWin_disp : (s.updWin sid f).disp = s.disp := rfl
@[simp] theorem State.updWin_invals : (s.updWin sid f).invals = s.invals := rfl
@[simp] theorem State.updWin_board : (s.updWin sid f).board = s.board := rfl
@[simp] theorem State.updWin_out : (s.updWin sid f).out = s.out := rfl
@[simp] theorem State.updWin_core (x : Nat) : (s.updWin sid f).core x = s.core x := rfl
end

@[simp] theorem State.updStrand_strand_self (sid : Nat) (f : Strand → Strand) : (s.updStrand sid f).strand? sid = (s.strand? sid).map f :=
  NMap.get?_adjust_self s.strands sid f
theorem State.updStrand_strand_other (sid x : Nat) (f : Strand → Strand) (h : x ≠ sid) : (s.updStrand sid f).strand? x = s.strand? x :=
  NMap.get?_adjust_other s.strands sid x f h
@[simp] theorem State.updWin_strand_self (sid : Nat) (f : Window → Window) : (s.updWin sid f).strand? sid = (s.strand? sid).map (·.updWin f) :=
  NMap.get?_adjust_self s.strands sid _
theorem State.updWin_strand_other (sid x : Nat) (f : Window → Window) (h : x ≠ sid) : (s.updWin sid f).strand? x = s.strand? x :=
  NMap.get?_adjust_other s.strands sid x _ h
@[simp] theorem State.updCore_core_self (c : Nat) (f : Core → Core) : (s.updCore c f).core c = f (s.core c) := by
  simp [State.core, State.updCore, NMap.getD, NMap.get?_put_self]
theorem State.updCore_core_other (c x : Nat) (f : Core → Core) (h : x ≠ c) : (s.updCore c f).core x = s.core x := by
  simp [State.core, State.updCore, NMap.getD, NMap.get?_put_other _ _ _ _ h]

@[simp] theorem State.updDie_die_self (d : Nat) (f : Die → Die) : (s.updDie d f).die d = f (s.die d) := by
  simp [State.die, State.updDie, NMap.getD, NMap.get?_put_self]
theorem State.updDie_die_other (d x : Nat) (f : Die → Die) (h : x ≠ d) : (s.updDie d f).die x = s.die x := by
  simp [State.die, State.updDie, NMap.getD, NMap.get?_put_other _ _ _ _ h]
@[simp] theorem State.updCluster_cluster_self (k : Nat) (f : Cluster → Cluster) : (s.updCluster k f).cluster k = f (s.cluster k) := by
  simp [State.cluster, State.updCluster, NMap.getD, NMap.get?_put_self]
theorem State.updCluster_cluster_other (k x : Nat) (f : Cluster → Cluster) (h : x ≠ k) : (s.updCluster k f).cluster x = s.cluster x := by
  simp [State.cluster, State.updCluster, NMap.getD, NMap.get?_put_other _ _ _ _ h]
@[simp] theorem State.updPort_port_self (p : Nat) (f : Port → Port) : (s.updPort p f).port p = f (s.port p) := by
  simp [State.port, State.updPort, NMap.getD, NMap.get?_put_self]
theorem State.updPort_port_other (p x : Nat) (f : Port → Port) (h : x ≠ p) : (s.updPort p f).port x = s.port x := by
  simp [State.port, State.updPort, NMap.getD, NMap.get?_put_other _ _ _ _ h]
@[simp] theorem State.updLink_link_self (l : Nat) (f : DieLink → DieLink) : (s.updLink l f).link l = f (s.link l) := by
  simp [State.link, State.updLink, NMap.getD, NMap.get?_put_self]
theorem State.updLink_link_other (l x : Nat) (f : DieLink → DieLink) (h : x ≠ l) : (s.updLink l f).link x = s.link x := by
  simp [State.link, State.updLink, NMap.getD, NMap.get?_put_other _ _ _ _ h]
@[simp] theorem State.updStream_stream_self (c k : Nat) (f : Stream → Stream) : ((s.updStream c k f).core c).stream k = f ((s.core c).stream k) := by
  simp [State.updStream, Core.stream, NMap.getD, NMap.get?_put_self]
theorem State.updStream_stream_other (c k x : Nat) (f : Stream → Stream) (h : x ≠ k) :
    ((s.updStream c k f).core c).stream x = (s.core c).stream x := by
  simp [State.updStream, Core.stream, NMap.getD, NMap.get?_put_other _ _ _ _ h]
@[simp] theorem State.updTile_tile_self (c k : Nat) (f : Tile → Tile) : ((s.updTile c k f).core c).tile k = f ((s.core c).tile k) := by
  simp [State.updTile, Core.tile, NMap.getD, NMap.get?_put_self]
theorem State.updTile_tile_other (c k x : Nat) (f : Tile → Tile) (h : x ≠ k) : ((s.updTile c k f).core c).tile x = (s.core c).tile x := by
  simp [State.updTile, Core.tile, NMap.getD, NMap.get?_put_other _ _ _ _ h]

section
variable (s : State) (c b p k : Nat)
@[simp] theorem State.useBank_mem : (s.useBank c b).mem = s.mem := rfl
@[simp] theorem State.useBank_marks : (s.useBank c b).marks = s.marks := rfl
@[simp] theorem State.useBank_strands : (s.useBank c b).strands = s.strands := rfl
@[simp] theorem State.useBank_gangs : (s.useBank c b).gangs = s.gangs := rfl
@[simp] theorem State.useBank_contexts : (s.useBank c b).contexts = s.contexts := rfl
@[simp] theorem State.useBank_dies : (s.useBank c b).dies = s.dies := rfl
@[simp] theorem State.useBank_now : (s.useBank c b).now = s.now := rfl
@[simp] theorem State.useBank_free : (s.useBank c b).free = s.free := rfl
@[simp] theorem State.useBank_seq : (s.useBank c b).seq = s.seq := rfl
@[simp] theorem State.useBank_resv : (s.useBank c b).resv = s.resv := rfl
@[simp] theorem State.useBank_held : (s.useBank c b).held = s.held := rfl
@[simp] theorem State.useBank_clusters : (s.useBank c b).clusters = s.clusters := rfl
@[simp] theorem State.useBank_disp : (s.useBank c b).disp = s.disp := rfl
@[simp] theorem State.useBank_board : (s.useBank c b).board = s.board := rfl
@[simp] theorem State.useBank_out : (s.useBank c b).out = s.out := rfl
@[simp] theorem State.useSpot_mem : (s.useSpot p).mem = s.mem := by unfold State.useSpot; split <;> rfl
@[simp] theorem State.useSpot_marks : (s.useSpot p).marks = s.marks := by unfold State.useSpot; split <;> rfl
@[simp] theorem State.useSpot_strands : (s.useSpot p).strands = s.strands := by unfold State.useSpot; split <;> rfl
@[simp] theorem State.useSpot_gangs : (s.useSpot p).gangs = s.gangs := by unfold State.useSpot; split <;> rfl
@[simp] theorem State.useSpot_contexts : (s.useSpot p).contexts = s.contexts := by unfold State.useSpot; split <;> rfl
@[simp] theorem State.useSpot_dies : (s.useSpot p).dies = s.dies := by unfold State.useSpot; split <;> rfl
@[simp] theorem State.useSpot_now : (s.useSpot p).now = s.now := by unfold State.useSpot; split <;> rfl
@[simp] theorem State.useSpot_free : (s.useSpot p).free = s.free := by unfold State.useSpot; split <;> rfl
@[simp] theorem State.useSpot_seq : (s.useSpot p).seq = s.seq := by unfold State.useSpot; split <;> rfl
@[simp] theorem State.useSpot_resv : (s.useSpot p).resv = s.resv := by unfold State.useSpot; split <;> rfl
@[simp] theorem State.useSpot_held : (s.useSpot p).held = s.held := by unfold State.useSpot; split <;> rfl
@[simp] theorem State.useSpot_clusters : (s.useSpot p).clusters = s.clusters := by unfold State.useSpot; split <;> rfl
@[simp] theorem State.useSpot_disp : (s.useSpot p).disp = s.disp := by unfold State.useSpot; split <;> rfl
@[simp] theorem State.useSpot_board : (s.useSpot p).board = s.board := by unfold State.useSpot; split <;> rfl
@[simp] theorem State.useSpot_out : (s.useSpot p).out = s.out := by unfold State.useSpot; split <;> rfl
/-- A bank that has been used serves nothing more in its lane step (R195). -/
theorem State.bankFree_useBank : (s.useBank c b).bankFree c b = false := by
  have h : (s.useBank c b).core c = { s.core c with banks := if (s.core c).banks.contains b then (s.core c).banks else b :: (s.core c).banks, gated := (s.core c).gated.filter (· != b / 8) } := by
    simp [State.useBank, State.core, State.updCore, NMap.getD, NMap.get?_put_self]
  simp only [State.bankFree, h]
  split <;> simp_all
/-- Work at a home changes the clock of its die alone (R278). -/
theorem State.l2Work_of_le (h : hbmTop ≤ p) : s.l2Work p k = s := if_neg (Nat.not_lt.2 h)
@[simp] theorem State.l2Work_mem : (s.l2Work p k).mem = s.mem := by unfold State.l2Work; split <;> rfl
@[simp] theorem State.l2Work_marks : (s.l2Work p k).marks = s.marks := by unfold State.l2Work; split <;> rfl
@[simp] theorem State.l2Work_strands : (s.l2Work p k).strands = s.strands := by unfold State.l2Work; split <;> rfl
@[simp] theorem State.l2Work_gangs : (s.l2Work p k).gangs = s.gangs := by unfold State.l2Work; split <;> rfl
@[simp] theorem State.l2Work_contexts : (s.l2Work p k).contexts = s.contexts := by unfold State.l2Work; split <;> rfl
@[simp] theorem State.l2Work_cores : (s.l2Work p k).cores = s.cores := by unfold State.l2Work; split <;> rfl
@[simp] theorem State.l2Work_now : (s.l2Work p k).now = s.now := by unfold State.l2Work; split <;> rfl
@[simp] theorem State.l2Work_free : (s.l2Work p k).free = s.free := by unfold State.l2Work; split <;> rfl
@[simp] theorem State.l2Work_seq : (s.l2Work p k).seq = s.seq := by unfold State.l2Work; split <;> rfl
@[simp] theorem State.l2Work_resv : (s.l2Work p k).resv = s.resv := by unfold State.l2Work; split <;> rfl
@[simp] theorem State.l2Work_held : (s.l2Work p k).held = s.held := by unfold State.l2Work; split <;> rfl
@[simp] theorem State.l2Work_clusters : (s.l2Work p k).clusters = s.clusters := by unfold State.l2Work; split <;> rfl
@[simp] theorem State.l2Work_disp : (s.l2Work p k).disp = s.disp := by unfold State.l2Work; split <;> rfl
@[simp] theorem State.l2Work_board : (s.l2Work p k).board = s.board := by unfold State.l2Work; split <;> rfl
@[simp] theorem State.l2Work_out : (s.l2Work p k).out = s.out := by unfold State.l2Work; split <;> rfl
@[simp] theorem State.wakeFe_mem : (s.wakeFe c).mem = s.mem := rfl
@[simp] theorem State.wakeFe_marks : (s.wakeFe c).marks = s.marks := rfl
@[simp] theorem State.wakeFe_strands : (s.wakeFe c).strands = s.strands := rfl
@[simp] theorem State.wakeFe_gangs : (s.wakeFe c).gangs = s.gangs := rfl
@[simp] theorem State.wakeFe_contexts : (s.wakeFe c).contexts = s.contexts := rfl
@[simp] theorem State.wakeFe_now : (s.wakeFe c).now = s.now := rfl
@[simp] theorem State.wakeFe_free : (s.wakeFe c).free = s.free := rfl
@[simp] theorem State.wakeFe_seq : (s.wakeFe c).seq = s.seq := rfl
@[simp] theorem State.wakeFe_resv : (s.wakeFe c).resv = s.resv := rfl
@[simp] theorem State.wakeFe_held : (s.wakeFe c).held = s.held := rfl
@[simp] theorem State.wakeFe_clusters : (s.wakeFe c).clusters = s.clusters := rfl
@[simp] theorem State.wakeFe_disp : (s.wakeFe c).disp = s.disp := rfl
@[simp] theorem State.wakeFe_board : (s.wakeFe c).board = s.board := rfl
@[simp] theorem State.wakeFe_out : (s.wakeFe c).out = s.out := rfl
/-- An access outside the scratchpads uses no bank. -/
theorem State.useSpot_of_ne (h : placeOf p ≠ .scratch) : s.useSpot p = s := if_neg h
end

end Sys2Proof.Machine
end

