-- ==== Sys2Proof/Tests/Slice0.lean ====
section
/-! SUPPORT. Tests: words of the spec's listings, ill-formed terms, single steps whose results the spec states, and for each statement
that has hypotheses a witness that meets them. -/

namespace Sys2Proof.Tests

open Sys2Proof Sys2Proof.Machine

/- One theorem at a time: evaluations in the kernel would otherwise hold many threads of the compile at once. -/
set_option Elab.async false

/-- The machine after reset with one running block whose first word encodes `i`, at the instruction, with these tokens on its slots. -/
def labTok (i : Instr) (l r t : Tok) : State :=
  let s := { State.reset.withFetchWord 64 ((encode i).getD (0, 0)).2 with cursor := ⟨0, 0⟩ }
  let h (y : Tok) : Option Held := some { tok := y, at_ := 0 }
  s.updWin 0 fun w => { w with ops := [(0, { l := h l, r := h r, t := h t, fired := false, nulled := false })] }
def lab (i : Instr) (l r t : Dword) : State := labTok i (.val l) (.val r) (.val t)

def labT (s : State) : Strand := match s.strands.get? 0 with | some t => t | none => fetchStrand 0 0
def labW (s : State) : Window := match (labT s).win with | some w => w | none => Window.start_ (fetchBlockOf 0) 0

/-- `fires` and `firesNull` as a check that can be run. -/
def firesB (s : State) (v : View) (null : Bool) : Bool :=
  s.cursor.sid == 0 && (s.strands.get? 0).isSome && (labT s).win.isSome && (labW s).view s.cursor.idx == some v && (labT s).runs &&
  s.front.start ≤ s.now && s.now < s.front.stop && !((labW s).op s.cursor.idx).fired && (labW s).fault.isNone &&
  ((labW s).op s.cursor.idx).tokensBy v s.front.start && ((labW s).op s.cursor.idx).anyNull v == null

theorem at_lab {s : State} {v : View} (h1 : (s.cursor.sid == 0 && (s.strands.get? 0).isSome && (labT s).win.isSome && (labW s).view s.cursor.idx == some v) = true) :
    s.at_ v (labT s) (labW s) := by
  simp only [Bool.and_eq_true, beq_iff_eq, Option.isSome_iff_exists] at h1
  obtain ⟨⟨⟨h1, t, h2⟩, w, h3⟩, h4⟩ := h1
  have ht : labT s = t := by simp [labT, h2]
  have hw : labW s = w := by rw [ht] at h3; simp [labW, ht, h3]
  rw [ht] at h3
  exact ⟨by rw [h1, h2, ht], by rw [ht, hw, h3], h4⟩

theorem fires_lab {s : State} {v : View} (h : firesB s v false = true) (hg : s.gate s.cursor.sid (labT s) (labW s) s.cursor.idx v = .opened) :
    s.fires v (labT s) (labW s) := by
  have h0 : firesB s v false = true := h
  simp only [firesB, Bool.and_eq_true, beq_iff_eq, decide_eq_true_eq, Bool.not_eq_true', Option.isNone_iff_eq_none] at h
  obtain ⟨⟨⟨⟨⟨⟨⟨h1, h2⟩, h3⟩, h4⟩, h5⟩, h6⟩, h7⟩, h8⟩ := h
  exact ⟨at_lab (by simp_all), h2, h3, h4, h5, h6, h7, h8, hg⟩

theorem firesNull_lab {s : State} {v : View} (h : firesB s v true = true) (hp : (v.nullReads && (labT s).fmtPending v) = false) :
    s.firesNull v (labT s) (labW s) := by
  simp only [firesB, Bool.and_eq_true, beq_iff_eq, decide_eq_true_eq, Bool.not_eq_true', Option.isNone_iff_eq_none] at h
  obtain ⟨⟨⟨⟨⟨⟨⟨h1, h2⟩, h3⟩, h4⟩, h5⟩, h6⟩, h7⟩, h8⟩ := h
  exact ⟨at_lab (by simp_all), h2, h3, h4, h5, h6, h7, h8, hp⟩

/-- The entry of the execute stage in the machine after reset with one instruction. -/
def labE : PipeE := { sid := 0, idx := 0, sent := 0, cls := 2, left := 1, writes := true, aged := true, ran := false, tok := none }
def executesB (s : State) (v : View) : Bool :=
  s.cursor.sid == 0 && (s.strands.get? 0).isSome && (labT s).win.isSome && (labW s).view s.cursor.idx == some v && s.cursor.idx == 0 && (s.core 0).ex == some labE

theorem executes_lab {s : State} {v : View} (h : executesB s v = true) : s.executes v (labT s) (labW s) labE := by
  simp only [executesB, Bool.and_eq_true, beq_iff_eq] at h
  obtain ⟨⟨h1, h2⟩, h3⟩ := h
  refine ⟨at_lab (by simp_all), ?_, ?_, h2.symm, rfl⟩
  · rw [h1.1.1.1]; exact h3
  · rw [h1.1.1.1]; rfl

/-! Decoding: words of the spec's listings, each of which stands for the instruction beside it. -/

theorem test_decode_ainc : decodeTableWord 32 0x3F80686C = some (.ainc ⟨.always, 1, 0, .none⟩) := rfl
theorem test_decode_and : decodeTableWord 32 0xCB656440 = some (.and ⟨.always, .third 21, .third 22⟩) := rfl
theorem test_decode_cid : decodeTableWord 32 0x48A35028 = some (.cid ⟨.always, .left 13, .left 17⟩) := rfl
theorem test_decode_ctl_wr : decodeTableWord 32 0x3F9FC478 = some (.ctlWr ⟨.always, .none, .none⟩) := rfl
theorem test_decode_fence_acq : decodeTableWord 32 0x3FF80070 = some (.fenceAcq ⟨.always, 0, 15, .none⟩) := rfl
theorem test_decode_fence_rel : decodeTableWord 32 0x3F90C470 = some (.fenceRel ⟨.always, 3, 2, .none⟩) := rfl
theorem test_decode_std : decodeTableWord 32 0x3F90CC68 = some (.std ⟨.always, 3, 2, .none⟩) := rfl
theorem test_decode_stqw : decodeTableWord 32 0x05001468 = some (.stqw ⟨.always, 0, 0, .reg 10⟩) := rfl
theorem test_decode_vclt : decodeTableWord 32 0x01032A94 = some (.vclt ⟨0, 0, 8, 3, 5⟩) := rfl
theorem test_decode_vcvtmx : decodeTableWord 32 0xA0046190 = some (.vcvtmx ⟨5, 0, 0, 4, 12⟩) := rfl
theorem test_decode_vnclip : decodeTableWord 32 0x68E64C8C = some (.vnclip ⟨3, 2, 7, 6, 9⟩) := rfl
theorem test_decode_vrosum : decodeTableWord 32 0x40015198 = some (.vrosum ⟨2, 0, 0, 1, 10⟩) := rfl
theorem test_decode_vmadds : decodeTableWord 32 0x8002339C = some (.vmadds ⟨4, 0, 0, 2, 6⟩) := rfl
theorem test_decode_vbcast : decodeTableWord 32 0x0000179C = some (.vbcast ⟨0, 0, 0, 0, 2⟩) := rfl
theorem test_decode_vext : decodeTableWord 32 0x888030A0 = some (.vext ⟨.right 17, 0, 0, 6⟩) := rfl
theorem test_decode_vgl : decodeTableWord 32 0x200230B8 = some (.vgl ⟨1, 0, 0, 2, 6⟩) := rfl
theorem test_decode_vacc : decodeTableWord 32 0x40613AB8 = some (.vacc ⟨2, 0, 3, 1, 7⟩) := rfl
theorem test_decode_vwait : decodeTableWord 32 0x004403B8 = some (.vwait ⟨0, 0, 2, 4, 0⟩) := rfl
theorem test_decode_vldff : decodeTableWord 32 0x20401CB0 = some (.vldff ⟨1, 0, 2, 0, 3⟩) := rfl
theorem test_decode_vldmx : decodeTableWord 32 0x802366B0 = some (.vldmx ⟨4, 0, 1, 3, 12⟩) := rfl
theorem test_decode_vldseg : decodeTableWord 32 0x608243B0 = some (.vldseg ⟨3, 0, 4, 2, 8⟩) := rfl
theorem test_decode_vsts : decodeTableWord 32 0x44E029B4 = some (.vsts ⟨2, 1, 7, 0, 5⟩) := rfl
theorem test_decode_vlset : decodeTableWord 32 0x3F8240A8 = some (.vlset ⟨.always, .reg 9, .none⟩) := rfl
theorem test_decode_vgrant : decodeTableWord 32 0x3FA0D0A8 = some (.vgrant ⟨.always, .left 3, .none⟩) := rfl
theorem test_decode_vawin : decodeTableWord 32 0x3F9FC2BC = some (.vawin ⟨.onNonzero, .none, .none⟩) := rfl
theorem test_decode_br : decodeTableWord 32 0x0000C21C = some (.br ⟨.onNonzero, 0, 3⟩) := rfl
theorem test_decode_mshape : decodeTableWord 64 0x00C2007F00000202 = some (.mshape ⟨0, 0, 0, 0, 0, 0, 2, 0x61, 0, 0, .none⟩) := rfl
theorem test_decode_mop : decodeTableWord 64 0x0000007F4808220A = some (.mop ⟨1, 1, 0, 0, 8, 4, 2, 0, 0, 0, .none⟩) := rfl
theorem test_decode_mopmx : decodeTableWord 64 0x0000007FA348000E = some (.mopmx ⟨2, 4, 3, 2, 8, 0, 0, 0, 0, 0, .none⟩) := rfl
theorem test_decode_mst : decodeTableWord 64 0x00000C7F1800021A = some (.mst ⟨0, 3, 0, 0, 0, 0, 2, 0, 0, 6, .none⟩) := rfl
theorem test_decode_mrowv : decodeTableWord 64 0x000A007F1800621E = some (.mrowv ⟨0, 3, 0, 0, 0, 12, 2, 5, 0, 0, .none⟩) := rfl

/-! Words written out bit by bit from the drawings of R29 to R36. -/

/-- RD: T1 [31:23], T0 [22:14], REG [13:8], major 0x01. -/
theorem test_decode_read : decodeTableWord 32 0b001111111_010000011_000101_000001_00 = some (.read ⟨5, .left 3, .none⟩) := rfl
/-- G3: PR is 00 and the operation of `sel` is 2. -/
theorem test_decode_sel : decodeTableWord 32 0b001111111_000000100_0010_00_000010_00 = some (.sel ⟨.reg 4, .none⟩) := rfl
/-- IT: IMM9 [22:14]; `tlti` is 2. -/
theorem test_decode_tlti : decodeTableWord 32 0b110000001_111111110_0010_01_000110_00 = some (.tlti ⟨.onZero, 0x1FE, .third 1⟩) := rfl
/-- BX: EXIT [16:14], bits [31:17] drawn as 0. -/
theorem test_decode_bro : decodeTableWord 32 0b000000000000000_101_0000_10_001001_00 = some (.bro ⟨.onNonzero, 5⟩) := rfl
/-- CP: S [16:14], bits [22:17] drawn as 0. -/
theorem test_decode_cps_kill : decodeTableWord 32 0b001111111_000000_110_0101_00_110000_00 = some (.cpsKill ⟨.always, 6, .none⟩) := rfl
/-- A3: `acas` is 9. -/
theorem test_decode_acas : decodeTableWord 32 0b000000111_0011_00010_1001_00_011011_00 = some (.acas ⟨2, 3, .reg 7⟩) := rfl
/-- MASK: `mxor` is 2. -/
theorem test_decode_mxor : decodeTableWord 32 0b000_001_00010_00011_00100_010_101011_00 = some (.mxor ⟨0, 1, 2, 3, 4⟩) := rfl
/-- C: T0 [15:7], COP [6:2]; `c.sextw` is 7. -/
theorem test_decode_c_sextw : decodeTableWord 16 0b010000101_00111_01 = some (.cSextw ⟨.left 5⟩) := rfl

/-- Code 0x01: major 0x00 and length class 11. -/
theorem test_decode_illegal : decode [0x00, 0, 0, 0] = .error .illegal ∧ decode [0x03, 0, 0, 0] = .error .illegal := ⟨rfl, rfl⟩
/-- Code 0x02: a reserved major, XOP, VOP, COP and PMAJ. -/
theorem test_decode_reserved : decodeView 0x34 = .error .reserved ∧ decodeView 0x1808 = .error .reserved ∧ decodeView 0x78C = .error .reserved ∧
    decodeView 0b000000000_01010_01 = .error .reserved ∧ decodeView 0b001010_10 = .error .reserved := ⟨rfl, rfl, rfl, rfl, rfl⟩
/-- Code 0x03: PR 11, PR beside a third data operand, and a field drawn as 0. -/
theorem test_decode_field : decodeView 0x340 = .error .field ∧ decodeView 0x908 = .error .field ∧ decodeView 0x20024 = .error .field ∧
    decodeView 0x201C = .error .field := ⟨rfl, rfl, rfl, rfl⟩
/-- The bytes end inside the instruction. -/
theorem test_decode_short : decode [0x40, 0, 0] = .error .short ∧ decode [] = .error .short := ⟨rfl, rfl⟩
/-- Decoding consumes what R26 delimits. -/
theorem test_decode_rest : decode [0x21, 0x86, 0xAA] = .ok (.cZero ⟨.right 12⟩, [0xAA]) := rfl

/-! Well-formedness: an ill-formed term for each check. -/

/-- Code 0x03: the shift count of an immediate shift, and the same immediate where it is a factor. -/
theorem test_wf_shift : (Instr.shli ⟨.always, 64, .reg 1⟩).wf = false ∧ (Instr.shli ⟨.always, 63, .reg 1⟩).wf = true ∧
    (Instr.muli ⟨.always, 64, .reg 1⟩).wf = true := by decide
/-- Code 0x03: mask registers of a compare and of a mask form. -/
theorem test_wf_masks : (Instr.vceq ⟨0, 0, 0, 0, 8⟩).wf = false ∧ (Instr.vceq ⟨0, 0, 0, 0, 7⟩).wf = true ∧ (Instr.vceq ⟨0, 0, 0, 0, 0⟩).wf = false ∧
    (Instr.mand ⟨0, 0, 8, 0, 1⟩).wf = false ∧ (Instr.mnot ⟨0, 0, 8, 0, 1⟩).wf = true := by decide
/-- Code 0x03: VS2 of the scalar forms and the sources of `vins`. -/
theorem test_wf_sources : (Instr.vadds ⟨0, 0, 1, 0, 0⟩).wf = false ∧ (Instr.vins ⟨0, 0, 0, 1, 0⟩).wf = false ∧ (Instr.vins ⟨0, 0, 0, 0, 1⟩).wf = true := by decide
/-- Code 0x03: the fields of a single-element form. -/
theorem test_wf_element : (Instr.mpop ⟨.reg 1, 1, 0, 1⟩).wf = false ∧ (Instr.mpop ⟨.reg 1, 0, 0, 8⟩).wf = false ∧ (Instr.vcnt ⟨.reg 1, 0, 1, 0⟩).wf = false ∧
    (Instr.vcnt ⟨.reg 1, 0, 0, 31⟩).wf = true := by decide
/-- Code 0x03: a segment past `v31`, an index of a form without one, `vsc` without a mask, `vwait` with a destination. -/
theorem test_wf_vector_memory : (Instr.vldseg ⟨0, 0, 0, 2, 30⟩).wf = false ∧ (Instr.vldseg ⟨0, 0, 0, 1, 30⟩).wf = true ∧ (Instr.vld ⟨0, 0, 0, 1, 0⟩).wf = false ∧
    (Instr.vsc ⟨0, 0, 0, 0, 0⟩).wf = false ∧ (Instr.vwait ⟨0, 0, 0, 0, 1⟩).wf = false := by decide
/-- Code 0x03: the fields of a tile form. -/
theorem test_wf_tile : (Instr.mshape ⟨0, 0, 0, 0, 0, 0, 0, 0xC00, 0, 0, .none⟩).wf = false ∧ (Instr.mzero ⟨0, 0, 0, 0, 0, 0, 0, 1, 0, 0, .none⟩).wf = false ∧
    (Instr.mop ⟨1, 0, 0, 0, 31, 0, 0, 0, 0, 0, .none⟩).wf = false ∧ (Instr.mop ⟨1, 0, 0, 0, 30, 30, 0, 0, 0, 0, .none⟩).wf = true := by decide
/-- Code 0x05: a reserved write slot, one target twice, and an operand target of a stamped store. -/
theorem test_wf_targets : (Instr.add ⟨.always, .resv 64, .none⟩).wf = false ∧ (Instr.add ⟨.always, .reg 3, .reg 3⟩).wf = false ∧
    (Instr.add ⟨.always, .none, .none⟩).wf = true ∧ (Instr.stqw ⟨.always, 0, 0, .left 1⟩).wf = false ∧ (Instr.std ⟨.always, 0, 0, .left 1⟩).wf = true ∧
    (Instr.aadd ⟨.always, 0, 2, .left 1⟩).wf = false := by decide
/-- Code 0x0D: `scope.set` and `scope.inv` of entries 0 and 15. -/
theorem test_wf_scope : (Instr.scopeSet ⟨.always, 0, 0, .none⟩).wf = false ∧ (Instr.scopeInv ⟨.always, 0, 15, .none⟩).wf = false ∧
    (Instr.scopeSet ⟨.always, 0, 14, .none⟩).wf = true ∧ (Instr.scopeGet ⟨.always, 0, 0, .none⟩).wf = true := by decide

/-! Witnesses: for each statement with hypotheses, a state and operands that meet them. -/

theorem witness_IntegerFormsComplete : IntResult (.add ⟨.always, .reg 3, .none⟩) (fun l r _ => l + r) ∧
    (lab (.add ⟨.always, .reg 3, .none⟩) 5 7 0).fires (Instr.add ⟨.always, .reg 3, .none⟩).view
      (labT (lab (.add ⟨.always, .reg 3, .none⟩) 5 7 0)) (labW (lab (.add ⟨.always, .reg 3, .none⟩) 5 7 0)) := ⟨.add _, fires_lab (by decide) rfl⟩

/-- The machine with one instruction fires it, in these tests. -/
abbrev Fires (i : Instr) (s : State) : Prop := s.fires i.view (labT s) (labW s)
abbrev FiresNull (i : Instr) (s : State) : Prop := s.firesNull i.view (labT s) (labW s)
abbrev Executes (i : Instr) (s : State) : Prop := s.executes i.view (labT s) (labW s) labE

def gop : GOp := ⟨.always, .reg 3, .none⟩

theorem witness_BitCountForms : Fires (.clz gop) (lab (.clz gop) 1 0 0) ∧ Fires (.ctz gop) (lab (.ctz gop) 0 0 0) ∧ Fires (.popc gop) (lab (.popc gop) 5 0 0) :=
  ⟨fires_lab (by decide) rfl, fires_lab (by decide) rfl, fires_lab (by decide) rfl⟩

theorem witness_ReadNullAndLpciComplete : Fires (.read ⟨63, .reg 3, .none⟩) (lab (.read ⟨63, .reg 3, .none⟩) 0 0 0) ∧
    Fires (.lpci ⟨.always, 0x1FFF, .reg 3⟩) (lab (.lpci ⟨.always, 0x1FFF, .reg 3⟩) 0 0 0) ∧
    Fires (.null gop) (lab (.null gop) 0 0 0) ∧ FiresNull (.null gop) (labTok (.null gop) .null .null .null) ∧
    Fires (.cNull ⟨.reg 3⟩) (lab (.cNull ⟨.reg 3⟩) 0 0 0) ∧ FiresNull (.cNull ⟨.reg 3⟩) (labTok (.cNull ⟨.reg 3⟩) .null .null .null) :=
  ⟨fires_lab (by decide) rfl, fires_lab (by decide) rfl, fires_lab (by decide) rfl, firesNull_lab (by decide) rfl, fires_lab (by decide) rfl, firesNull_lab (by decide) rfl⟩

theorem witness_FloatFormsComplete : FloatResult (.fmaD ⟨.reg 3, .none⟩) (fun l r x => fpFma true l r x) ∧ Fires (.fmaD ⟨.reg 3, .none⟩) (lab (.fmaD ⟨.reg 3, .none⟩) 1 2 3) :=
  ⟨.fmaD _, fires_lab (by decide) rfl⟩

theorem witness_CompareWithNaN : (255 = (0xFF800001#64).toNat / 2 ^ 23 % 2 ^ 8 ∧ (0xFF800001#64).toNat % 2 ^ 23 ≠ 0) ∧
    (2047 = (0x7FF0000000000001#64).toNat / 2 ^ 52 % 2 ^ 11 ∧ (0x7FF0000000000001#64).toNat % 2 ^ 52 ≠ 0) := by decide

theorem witness_DivisionFormsComplete : DivideForm (.div gop) false (fun l r => (if r = 0 then -1 else l.sdiv r, 0)) 16 ∧ Fires (.div gop) (lab (.div gop) 7 0 0) :=
  ⟨.div _, fires_lab (by decide) rfl⟩

def divOp : DivOp := { key := 2, sid := 0, idx := 0, result := 5, flags := 0, left := 0 }
/-- A core between steps, with these divisions waiting and in the units. -/
def divState (iw : List DivOp) (d : NMap DivOp) (fw : List DivOp) (f : Option DivOp) : State :=
  { (lab (.div gop) 7 0 0).updCore 0 fun k => { k with idivWait := iw, idiv := d, fdivWait := fw, fdiv := f } with now := 4 }

theorem witness_DividersComplete :
    (((divState [divOp] [] [] none).core 0).idivWait = [divOp] ∧ ((divState [divOp] [] [] none).core 0).fe.stop ≤ (divState [divOp] [] [] none).now ∧
      ((divState [divOp] [] [] none).core 0).idiv.has 0 = false) ∧
    (((divState [divOp] [(0, divOp)] [] none).core 0).idivWait = [divOp] ∧ ((divState [divOp] [(0, divOp)] [] none).core 0).idiv.has 0 = true ∧
      ((divState [divOp] [(0, divOp)] [] none).core 0).idiv.has 1 = false) ∧
    (((divState [] [] [divOp] none).core 0).fdivWait = [divOp] ∧ ((divState [] [] [divOp] none).core 0).fdiv = none ∧
      ((divState [] [] [divOp] none).core 0).fe.stop ≤ (divState [] [] [divOp] none).now) ∧
    (let s := divState [] [(1, divOp)] [] (some divOp)
     s.strands.get? divOp.sid = some (labT s) ∧ (labT s).win = some (labW s) ∧ (labW s).view divOp.idx = some (Instr.div gop).view ∧ (s.core 0).fe.stop ≤ s.now ∧
      divOp.left = 0 ∧ divOp.dead = false ∧ (s.core 0).idiv.get? 1 = some divOp ∧ (s.core 0).fdiv = some divOp) := by
  refine ⟨by decide, by decide, by decide, rfl, rfl, rfl, by decide, rfl, rfl, rfl, rfl⟩

def vop : VOp := ⟨0, 0, 1, 2, 3⟩
noncomputable def vlab : State := lab (.vadd vop) 0 0 0
noncomputable def pipeState (f : Core → Core) (now : Nat) : State := { vlab.updCore 0 f with now := now }
noncomputable def sDispatch : State := (pipeState (fun k => { k with issue := none, ex := none }) 0).updWin 0 fun w =>
  { w with blk := { w.blk with hdr := { w.blk.hdr with vwmask := 8 } } }
noncomputable def sInbox : State := pipeState (fun k => { k with inbox := [labE], rd := none, ex := none }) 4
noncomputable def sExec : State := pipeState (fun k => { k with rd := some labE, ex := none }) 4
def doneE (writes : Bool) : PipeE := { labE with left := 0, ran := true, writes := writes, tok := some (.val 1) }
noncomputable def sDone (writes : Bool) : State := pipeState (fun k => { k with ex := some (doneE writes) }) 4
def datum : Datum := { sid := 0, idx := 0, sent := 0, tok := some (.val 1) }
noncomputable def sBack : State := pipeState (fun k => { k with toFe := [datum] }) 4
noncomputable def sGate : State := { pipeState (fun k => { k with ex := none }) 2050 with clusters := [(0, { State.reset.cluster 0 with cltr := 50 })] }

theorem witness_LanePipeComplete :
    ((sDispatch.core 0).fe.start ≤ sDispatch.now ∧ sDispatch.now < (sDispatch.core 0).fe.stop ∧ (sDispatch.core 0).issue = none ∧
      ∃ x, sDispatch.pickVec 0 = some x ∧ (sDispatch.updCore 0 fun k => { k with issue := some (x.c.sid, x.c.idx), issueRr := ctxnOf x.c.sid, late := x.lates k.late }).dispatchBad x.c x.v = none) ∧
    ((sInbox.core 0).inbox = [labE] ∧ sInbox.clocked 0 = true ∧ (∀ kv ∈ sInbox.links, kv.2.retraining = false) ∧ (sInbox.core 0).lanesStand sInbox.now = true ∧
      labE.sent + 3 ≤ sInbox.now ∧ (sInbox.core 0).rd = none) ∧
    ((sExec.core 0).rd = some labE ∧ (sExec.core 0).lanes.stop ≤ sExec.now ∧ (sExec.core 0).ex = none ∧ labE.aged = true ∧ sExec.clocked 0 = true ∧
      sExec.strands.get? labE.sid = some (labT sExec) ∧ (labT sExec).win = some (labW sExec) ∧ (labW sExec).view labE.idx = some (Instr.vadd vop).view) ∧
    (∀ b, ((sDone b).core 0).ex = some (doneE b) ∧ ((sDone b).core 0).lanes.stop ≤ (sDone b).now ∧ (doneE b).left = 0 ∧ (doneE b).ran = true ∧
      ((sDone b).core 0).wr = none ∧ (doneE b).writes = b) ∧
    ((sBack.core 0).toFe = [datum] ∧ sBack.clocked 0 = true ∧ (∀ kv ∈ sBack.links, kv.2.retraining = false) ∧ (sBack.core 0).fe.stop ≤ sBack.now ∧
      datum.sent + 3 ≤ sBack.now ∧ sBack.strands.get? datum.sid = some (labT sBack) ∧ (labT sBack).win = some (labW sBack) ∧
      (labW sBack).view datum.idx = some (Instr.vadd vop).view) ∧
    ((sGate.core 0).gated.contains 7 = false ∧ (sGate.core 0).lanes.stop + 2048 ≤ sGate.now ∧
      ((sGate.core 0).slices.getD 7 .reset).stop + 2048 ≤ sGate.now ∧ (∀ b ∈ (sGate.core 0).banks, b / 8 ≠ 7) ∧ 50 ≤ (sGate.cluster (clusterOf 0)).cltr.toNat ∧
      (sGate.core 0).rd = none ∧ (sGate.core 0).ex = none ∧ (sGate.core 0).wr = none) := by
  refine ⟨⟨by decide, by decide, rfl, _, rfl, rfl⟩, by decide, ⟨rfl, by decide, rfl, rfl, by decide, rfl, rfl, rfl⟩, ?_,
    ⟨rfl, by decide, by decide, by decide, by decide, rfl, rfl, rfl⟩, by decide⟩
  intro b; cases b <;> decide

def held1 : Held := ⟨.val 1, 2, 5⟩
theorem witness_DeliveryToASlot :
    ((labW vlab).slots.get? (63#6).toNat = none) ∧ (({ labW vlab with slots := [(63, held1)] }).slots.get? (63#6).toNat = some held1 ∧ (labW vlab).fault = none) ∧
    (((labW vlab).op (127#7).toNat).l = none ∧ ((labW vlab).op (127#7).toNat).r = none ∧ ((labW vlab).op (127#7).toNat).t = none) ∧
    ((labW vlab).op (0#7).toNat).l.isSome ∧ ((labW vlab).op (0#7).toNat).r.isSome ∧ ((labW vlab).op (0#7).toNat).t.isSome := by decide

def bxop : BXOp := ⟨.always, 7⟩
theorem witness_ExitsComplete :
    ExitForm (.bro bxop) 0 (fun _ l => l) (fun _ _ => 0) ∧
    (Fires (.bro bxop) (lab (.bro bxop) 32 0 0) ∧ (labW (lab (.bro bxop) 32 0 0)).exit = none ∧ ((lab (.bro bxop) 32 0 0).left (labW (lab (.bro bxop) 32 0 0))).toNat % 32 = 0) ∧
    (let s := (lab (.bro bxop) 32 0 0).updWin 0 fun w => { w with exit := some ⟨1, 0, 0, 64, 0⟩ }
     Fires (.bro bxop) s ∧ (labW s).exit = some ⟨1, 0, 0, 64, 0⟩ ∧ (s.left (labW s)).toNat % 32 = 0) ∧
    (Fires (.bro bxop) (lab (.bro bxop) 33 0 0) ∧ ((lab (.bro bxop) 33 0 0).left (labW (lab (.bro bxop) 33 0 0))).toNat % 32 ≠ 0) :=
  ⟨.bro _, ⟨fires_lab (by decide) rfl, by decide, by decide⟩, ⟨fires_lab (by decide) rfl, by decide, by decide⟩, fires_lab (by decide) rfl, by decide⟩

def mop : MOp := ⟨.always, 31, 15, .reg 3⟩
theorem witness_NullOperands :
    FiresNull (.add gop) (labTok (.add gop) .null (.val 1) .null) ∧ (∃ f, IntResult (.add gop) f) ∧
    FiresNull (.fsqrtD gop) (labTok (.fsqrtD gop) .null .null .null) ∧ (∃ b f n, DivideForm (.fsqrtD gop) b f n) ∧
    FiresNull (.ldd mop) (labTok (.ldd mop) .null .null .null) ∧ FiresNull (.sys bxop) (labTok (.sys bxop) .null .null .null) ∧ (∃ k a b, ExitForm (.sys bxop) k a b) :=
  ⟨firesNull_lab (by decide) rfl, ⟨_, .add _⟩, firesNull_lab (by decide) rfl, ⟨_, _, _, .fsqrtD _⟩, firesNull_lab (by decide) rfl, firesNull_lab (by decide) rfl, ⟨_, _, _, .sys _⟩⟩

/-- OFF4 is signed: 15 is one element below the left operand. -/
theorem witness_ScalarAccessesComplete : LoadForm (.ldd mop) mop 6 8 ∧ StoreForm (.stb mop) mop 0 1 ∧
    (Fires (.ldd mop) (lab (.ldd mop) 64 0 0) ∧ scalarAt 64 mop 8 = 56) ∧ (Fires (.ldd mop) (lab (.ldd mop) 65 0 0) ∧ scalarAt 65 mop 8 % 8 ≠ 0) ∧
    Fires (.stb mop) (lab (.stb mop) 0 9 0) ∧ (Fires (.std mop) (lab (.std mop) 1 9 0) ∧ scalarAt 1 mop 8 % 8 ≠ 0) :=
  ⟨.ldd _, .stb _, ⟨fires_lab (by decide) rfl, by decide⟩, ⟨fires_lab (by decide) rfl, by decide⟩, fires_lab (by decide) rfl, fires_lab (by decide) rfl, by decide⟩

/-- A test machine with one access of its block. -/
def withAcc (s : State) (a : Access) : State := s.updWin 0 fun w => { w with accs := [(0, a)] }
/-- An access of one part in the scratchpad: its first eight bytes. -/
def spAcc (acc : Nat) (ph : Phase) : Access :=
  { Access.new 31 acc 0 [{ key := 0, va := spBase, bit := 0, w := 64, size := 8 }] with phase := ph, segs := if acc = 0 then [spPhys 0 0 / 64] else [] }

theorem witness_ProbesComplete :
    (let s := withAcc (lab (.ldd mop) 0 0 0) (spAcc 0 .probing)
     s.strands.get? 0 = some (labT s) ∧ (labT s).win = some (labW s) ∧ (labW s).accs.get? 0 = some (spAcc 0 .probing) ∧ (spAcc 0 .probing).phase = .probing ∧
      (labW s).fault = none ∧ (∀ p ∈ partPages (spAcc 0 .probing).parts, (spAcc 0 .probing).xl.has p = true) ∧
      (∀ p ∈ (spAcc 0 .probing).parts, partBad s 0 0 (labT s).sup [] p = none) ∧ (labW s).view 0 = some (.mem 0x19 6 mop) ∧
      (labW s).atomicOver 31 (((spAcc 0 .probing).parts.flatMap Part.bytes).filterMap (physOf 0 [])) = false ∧
      (labW s).tileOver 0 31 (((spAcc 0 .probing).parts.flatMap Part.bytes).filterMap (physOf 0 [])) = false) ∧
    (let s := withAcc (lab (.std mop) 0 0 0) (spAcc 1 .probing)
     s.strands.get? 0 = some (labT s) ∧ (labT s).win = some (labW s) ∧ (labW s).accs.get? 0 = some (spAcc 1 .probing) ∧ (labW s).fault = none ∧
      (∀ p ∈ (spAcc 1 .probing).parts, partBad s 0 1 (labT s).sup [] p = none) ∧ (labW s).view 0 = some (.mem 0x1A 3 mop) ∧
      (labT s).pinCheck (accessPins [] (spAcc 1 .probing).parts) = .fits) :=
  ⟨⟨rfl, rfl, rfl, rfl, rfl, by decide, by decide, rfl, by decide, by decide⟩, rfl, rfl, rfl, rfl, by decide, rfl, by decide⟩

/-- Outside HBM, a load takes what the home holds. -/
theorem loads_home {s : State} {core : Nat} {t : Strand} {w : Window} {a : Access} {bs : List (Nat × Nat)}
    (hc : a.ordered = true ∨ a.unit ≠ 64 → ∀ l, w.captured a.lsid l = none)
    (h : ∀ b ∈ bs, placeOf b.2 ≠ .hbm ∧ w.captured a.lsid (lineOf b.2) = none ∧ w.blk.ahead.get? (lineOf b.2) = none ∧ (placeOf b.2 = .host → s.hostDown = false) ∧ s.spotFree b.2 = true) :
    ∀ b ∈ bs, s.loads core t w a b.2 (s.homeByte b.2) := by
  intro b hb
  obtain ⟨h1, h2, ha, h3⟩ := h b hb
  unfold State.loads
  exact ⟨h2, ha, hc, by rw [if_neg h1]; exact ⟨h3.1, h3.2, rfl⟩⟩
theorem witness_LoadsReturn :
    let s := { withAcc (lab (.ldd mop) 0 0 0) (spAcc 0 .reading) with now := 4 }
    let a := spAcc 0 .reading
    let seg := spPhys 0 0 / 64
    s.strands.get? 0 = some (labT s) ∧ (labT s).win = some (labW s) ∧ (labW s).accs.get? 0 = some a ∧ (labW s).view 0 = some (.mem 0x19 6 mop) ∧ a.phase = .reading ∧
      (labW s).fault = none ∧ (labW s).lowerResolved a.lsid = true ∧ fencesHoldLoad (labT s) (labW s) a.lsid = false ∧ a.segs = [seg] ∧
      (labW s).loadBefore 0 a seg = false ∧ itemsHoldBytes (labT s) ((a.bytesIn 0 seg).map (·.1)) ((a.bytesIn 0 seg).map (·.2)) = false ∧
      lockHolds (s.core 0) (labT s) s.seq false ((a.bytesIn 0 seg).map (·.1)) = false ∧ (∀ b : Nat × Nat, b ∈ a.bytesIn 0 seg → s.loads 0 (labT s) (labW s) a b.2 (s.homeByte b.2)) ∧
      (a.bytesIn 0 seg).length = 8 ∧ s.crossedTo false a.sent ((a.bytesIn 0 seg).map (·.2)) a.route = true ∧ (∀ p ∈ (a.bytesIn 0 seg).map (·.2), s.chanOpen p = true) :=
  ⟨rfl, rfl, rfl, rfl, rfl, rfl, by decide, by decide, rfl, by decide, by decide, by decide, loads_home (fun _ _ => rfl) (by decide), by decide, by decide, by decide⟩

/-- An access of the eight bytes at 4096, whose page a leaf maps to the same number from `base` on. -/
def pageAcc (base : Nat) (ordered : Bool) (gath : Option Nat) : Access :=
  { Access.new 31 0 0 [{ key := 0, va := 4096, bit := 0, w := 64, size := 8 }] with
    phase := .reading, segs := [(base + 4096) / 64], ordered := ordered, gath := gath, got := if ordered then [(0, 0)] else [],
    xl := [(0, .ok { page := 0, level := 0, pa := base, w := true, sup := false, x := false, glob := false })] }
/-- A test machine with that access, these lines in its L1 and these acquires of its strand. -/
def pageLab (a : Access) (l1 : NMap L1Line) (acqs : List Sedge) : State :=
  let s := withAcc (lab (.ldd mop) 0 0 0) a
  { (s.updStrand 0 fun t => { t with acqs := acqs }) with now := 4, cores := [(0, { s.core 0 with l1 := l1 })] }
/-- An entry that names these cores, valid or not. -/
def entry (cores : BitVec 32) (valid : Bool) : Sedge := { cores := cores, l2 := 255, slough := 0, host := false, fabric := false, meet := 1, gen := 0, valid := valid }
/-- What is the same in each of the cases below. -/
def readsSeg (s : State) (a : Access) (seg : Nat) : Bool :=
  s.strands.get? 0 == some (labT s) && (labT s).win == some (labW s) && (labW s).accs.get? 0 == some a && (labW s).view 0 == some (.mem 0x19 6 mop) &&
  a.phase == .reading && (labW s).fault.isNone && (labW s).lowerResolved a.lsid && !fencesHoldLoad (labT s) (labW s) a.lsid && a.segs == [seg] &&
  !(labW s).loadBefore 0 a seg && !itemsHoldBytes (labT s) ((a.bytesIn 0 seg).map (·.1)) ((a.bytesIn 0 seg).map (·.2)) &&
  !lockHolds (s.core 0) (labT s) s.seq false ((a.bytesIn 0 seg).map (·.1)) && (a.bytesIn 0 seg).length == 8 && s.crossedTo false a.sent ((a.bytesIn 0 seg).map (·.2)) a.route && ((a.bytesIn 0 seg).map (·.2)).all s.chanOpen
/-- In HBM a load takes what its home holds, or the L1 line of its core. -/
theorem loads_hbm {s : State} {core : Nat} {t : Strand} {w : Window} {a : Access} {bs : List (Nat × Nat)} (f : Nat → Byte) (hu : a.unit = 64) (hc : a.ordered = true ∨ a.unit ≠ 64 → ∀ l, w.captured a.lsid l = none)
    (hs : w.strictOpen a.lsid = false)
    (h : ∀ b ∈ bs, placeOf b.2 = .hbm ∧ w.captured a.lsid (lineOf b.2) = none ∧ w.blk.ahead.get? (lineOf b.2) = none ∧ s.poisoned b.2 = false ∧ s.chanOpen b.2 = true)
    (hf : ∀ b ∈ bs, let drops := t.acqs ++ (w.acqsBelow a.lsid).map (·.2)
      (drops = [] ∧ (a.ordered = false ∨ a.got = []) ∧ ∃ l, (s.core core).l1.get? (lineOf b.2) = some l ∧ f b.2 = BitVec.ofNat 8 (l.bytes / 2 ^ (8 * (b.2 % 64)))) ∨
      (drops = [] ∧ (s.core core).l1.get? (lineOf b.2) = none ∧ (a.gath = none ∨ ∀ g ∈ (s.core core).gl1, g.bytes.has b.2 = false) ∧ f b.2 = s.homeByte b.2) ∨
      (a.gath = none ∧ (drops.any (·.drops (lineOf b.2)) = true ∨ a.ordered = true ∧ a.got ≠ []) ∧ f b.2 = s.homeByte b.2)) :
    ∀ b ∈ bs, s.loads core t w a b.2 (f b.2) := by
  intro b hb
  obtain ⟨h1, h2, ha, h3, h4⟩ := h b hb
  unfold State.loads
  refine ⟨h2, ha, hc, ?_⟩
  rw [if_pos h1]
  refine ⟨hu, h3, h4, ?_⟩
  rcases hf b hb with ⟨x, y, z⟩ | x | ⟨x, y, z⟩
  · exact .inl ⟨x, y, hs, z⟩
  · exact .inr (.inl x)
  · exact .inr (.inr ⟨x, y.elim .inl (fun y => .inr (.inl y)), z⟩)
/-- A line in L1; none there, for an ordinary line and a gathered one; one that an acquire drops; one to be fetched anew; the host window. -/
theorem witness_LoadsReturn_places :
    (let a := pageAcc 0 false none; let s := pageLab a [(64, ⟨0x1234, 7⟩)] []
     readsSeg s a 64 = true ∧ ∀ b ∈ a.bytesIn 0 64, s.loads 0 (labT s) (labW s) a b.2 (BitVec.ofNat 8 (0x1234 / 2 ^ (8 * (b.2 % 64))))) ∧
    (∀ gath, gath = none ∨ gath = some 4 → let a := pageAcc 0 false gath; let s := pageLab a [] []
     readsSeg s a 64 = true ∧ ∀ b ∈ a.bytesIn 0 64, s.loads 0 (labT s) (labW s) a b.2 (s.homeByte b.2)) ∧
    (let a := pageAcc 0 false none; let s := pageLab a [(64, ⟨0x1234, 7⟩)] [entry 1 false]
     readsSeg s a 64 = true ∧ ∀ b ∈ a.bytesIn 0 64, s.loads 0 (labT s) (labW s) a b.2 (s.homeByte b.2)) ∧
    (let a := pageAcc 0 true none; let s := pageLab a [(64, ⟨0x1234, 7⟩)] []
     readsSeg s a 64 = true ∧ ∀ b ∈ a.bytesIn 0 64, s.loads 0 (labT s) (labW s) a b.2 (s.homeByte b.2)) ∧
    (let a := pageAcc hostBase false none; let s := pageLab a [] []
     readsSeg s a ((hostBase + 4096) / 64) = true ∧ ∀ b ∈ a.bytesIn 0 ((hostBase + 4096) / 64), s.loads 0 (labT s) (labW s) a b.2 (s.homeByte b.2)) := by
  refine ⟨⟨by decide +kernel, loads_hbm (fun p => BitVec.ofNat 8 (0x1234 / 2 ^ (8 * (p % 64)))) rfl (fun _ _ => rfl) (by decide +kernel) (by decide +kernel) fun b hb => .inl ⟨by decide, .inl rfl, ⟨0x1234, 7⟩, ?_, rfl⟩⟩, ?_,
    ⟨by decide +kernel, loads_hbm _ rfl (fun _ _ => rfl) (by decide +kernel) (by decide +kernel) fun b hb => .inr (.inr ⟨rfl, .inl ?_, rfl⟩)⟩,
    ⟨by decide +kernel, loads_hbm _ rfl (fun _ _ => rfl) (by decide +kernel) (by decide +kernel) fun b hb => .inr (.inr ⟨rfl, .inr (by decide), rfl⟩)⟩,
    ⟨by decide +kernel, loads_home (fun _ _ => rfl) (by decide +kernel)⟩⟩
  · revert b; decide +kernel
  · rintro _ (rfl | rfl)
    · exact ⟨by decide +kernel, loads_hbm _ rfl (fun _ _ => rfl) (by decide +kernel) (by decide +kernel) fun b hb => .inr (.inl ⟨by decide, rfl, .inl rfl, rfl⟩)⟩
    · exact ⟨by decide +kernel, loads_hbm _ rfl (fun _ _ => rfl) (by decide +kernel) (by decide +kernel) fun b hb => .inr (.inl ⟨by decide, rfl, .inr fun g hg => (List.not_mem_nil hg).elim, rfl⟩)⟩
  · revert b; decide +kernel

/-- The value of a load is back at a front end that stands at a boundary. -/
theorem witness_LoadsReturn_arrival :
    let a := { spAcc 0 .reading with segs := [], sent := 0 }
    let s := { withAcc (lab (.ldd mop) 0 0 0) a with now := 4 }
    s.strands.get? 0 = some (labT s) ∧ (labT s).win = some (labW s) ∧ (labW s).accs.get? 0 = some a ∧ (labW s).view 0 = some (.mem 0x19 6 mop) ∧ a.phase = .reading ∧
      (labW s).fault = none ∧ (labW s).lowerResolved a.lsid = true ∧ fencesHoldLoad (labT s) (labW s) a.lsid = false ∧ s.crossedTo false a.sent (a.places (coreOf 0)) a.route = true ∧ a.segs = [] ∧
      s.feOpen (coreOf 0) = true := ⟨rfl, rfl, rfl, rfl, rfl, rfl, by decide, by decide, by decide, rfl, by decide⟩

/-- A test machine with these committed operations of its strand. -/
def withItems (s : State) (is : List PItem) : State := s.updStrand 0 fun t => { t with items := is }
def segW : SegW := { va := 4096, bytes := [(4096, ⟨7, 255⟩), (4097, ⟨8, 15⟩)], pages := [], held := false }
theorem witness_StoresPerform :
    let s := { withItems (lab (.std mop) 0 0 0) [⟨3, .store [segW] true none false, 0, none⟩] with now := 4 }
    Memory.wf s.mem = true ∧ s.strands.get? 0 = some (labT s) ∧ (labT s).items.find? (·.q == 3) = some ⟨3, .store [segW] true none false, 0, none⟩ ∧ [segW][0]? = some segW ∧
      segW.held = false ∧ s.itemOpen (coreOf 0) (labT s) 3 segW.vas segW.bytes.keys = true ∧ s.heldLine 0 segW.bytes = none ∧ NMap.sorted segW.bytes = true ∧
      (∀ kv ∈ segW.bytes, s.poisoned kv.1 = false) ∧ placeOf (segW.bytes.headD (0, default)).1 = .hbm ∧
      placeOf (spPhys 31 0) = .scratch ∧ s.lastNow (coreOf 0) segW.bytes = true ∧ { s with marks := [(4096, ⟨5, 0⟩)] }.lastNow (coreOf 0) segW.bytes = false :=
  ⟨rfl, rfl, rfl, rfl, rfl, by decide, by decide, by decide, by decide, by decide, by decide, by decide, by decide⟩

/-- R195, R276: a bank takes one access in a step of its lane slice, which begins with it. -/
theorem test_bank_turn :
    let g : SegW := { va := spBase, bytes := [(spPhys 0 0, ⟨7, 255⟩)], pages := [], held := false }
    let s := { withItems (lab (.std mop) 0 0 0) [⟨3, .store [g, g] false none false, 0, none⟩] with now := 4 }.updCore 0 fun k => { k with ex := none }
    ((storePerform 0 3 0 s).map fun u => ((u.core 0).banks, (storePerform 0 3 0 u).isSome, ((u.tick 100).core 0).banks, (((u.tick 100).core 0).slices.getD 0 .reset).stop)) =
      some ([0], false, [], 6) := by decide +kernel

theorem witness_LateValuesReturn : ∀ b,
    let s := { (lab (.std mop) 0 0 0).updStrand 0 fun t => { t with pend := [(63, ⟨3, b, some 9, 1, 4096⟩)] } with now := 4 }
    s.strands.get? 0 = some (labT s) ∧ s.crossedTo false 1 [4096] = true ∧ s.feOpen (coreOf 0) = true ∧ (labT s).pend.get? 63 = some ⟨3, b, some 9, 1, 4096⟩ :=
  fun b => ⟨rfl, by cases b <;> decide, by cases b <;> decide, rfl⟩

def aop (e : BitVec 4) : AOp := ⟨.always, 31, e, .reg 3⟩
/-- A test machine whose context holds this entry 3. -/
def withEntry (s : State) (e : Sedge) : State :=
  { s with contexts := [(0, { ptroot := 0, sabase := 0, sasize := 0, table := [(3, e)], copies := [], resv := [], unacked := [], broken := false })] }

theorem witness_AtomicsComplete : AtomicForm (.aadd (aop 3)) 0 8 31 3 (.reg 3) ∧
    (Fires (.aadd (aop 3)) (lab (.aadd (aop 3)) 7 0 0) ∧ ((lab (.aadd (aop 3)) 7 0 0).left (labW (lab (.aadd (aop 3)) 7 0 0))).toNat % 8 ≠ 0) ∧
    (Fires (.aadd (aop 3)) (lab (.aadd (aop 3)) 8 0 0) ∧ ((lab (.aadd (aop 3)) 8 0 0).left (labW (lab (.aadd (aop 3)) 8 0 0))).toNat % 8 = 0 ∧
      ((lab (.aadd (aop 3)) 8 0 0).sedge 0 0 3).valid = false) ∧
    (let s := withEntry (lab (.aadd (aop 3)) 8 0 0) (entry 2 true)
     Fires (.aadd (aop 3)) s ∧ (s.left (labW s)).toNat % 8 = 0 ∧ (s.sedge 0 (labT s).ctx 3).valid = true ∧ (s.sedge 0 (labT s).ctx 3).cores.getLsbD 0 = false) ∧
    (let s := withEntry (lab (.aadd (aop 3)) 8 0 0) (entry 3 true)
     Fires (.aadd (aop 3)) s ∧ (s.left (labW s)).toNat % 8 = 0 ∧ (s.sedge 0 (labT s).ctx 3).valid = true ∧ (s.sedge 0 (labT s).ctx 3).cores.getLsbD 0 = true) :=
  ⟨.aadd (aop 3), ⟨fires_lab (by decide) rfl, by decide⟩, ⟨fires_lab (by decide) rfl, by decide, by decide⟩, ⟨fires_lab (by decide) rfl, by decide, by decide, by decide⟩,
    fires_lab (by decide) rfl, by decide, by decide, by decide⟩

theorem witness_BoundedAtomics : (2 ^ 64 - 1 < 2 ^ 64 ∧ 0 < 2 ^ 64) ∧ 2 ^ 32 - 1 < 2 ^ 32 ∧
    amoNew 11 64 (2 ^ 64 - 1) 1 0 = none ∧ amoNew 0 64 (State.reset.homeLe 0 8) 1 0 = some 1 := by decide

/-- Bytes at the start of core 0's scratchpad. -/
def withSp (s : State) (bs : List (Nat × Byte)) : State := { s with mem := bs.map fun b => (spPhys 0 b.1, b.2) }
theorem witness_FencesAndScopesComplete :
    (let s := withEntry (lab (.fenceAcq (aop 3)) 0 0 0) (entry 1 true)
     Fires (.fenceAcq (aop 3)) s ∧ (s.sedge 0 (labT s).ctx 3).valid = true ∧ (s.sedge 0 (labT s).ctx 3).cores.getLsbD 0 = true) ∧
    Fires (.scopeGet (aop 15)) (lab (.scopeGet (aop 15)) 0 0 0) ∧ Fires (.scopeGen (aop 0)) (lab (.scopeGen (aop 0)) 0 0 0) ∧
    Fires (.scopeInv (aop 14)) (withEntry (lab (.scopeInv (aop 14)) 0 0 0) (entry 1 true)) ∧
    (∀ bs, bs = [(0, 1#8)] ∨ bs = [] ∨ bs = [(6, 4#8)] →
      let s := withEntry (withSp (lab (.scopeSet (aop 1)) (BitVec.ofNat 64 spBase) 0 0) bs) (entry 1 true)
      Fires (.scopeSet (aop 1)) s ∧ inSp (s.left (labW s)).toNat 32 ∧ (s.left (labW s)).toNat % 32 = 0 ∧ s.readOpen 0 (labT s) (s.left (labW s)).toNat 32 = true ∧
      s.readFor 0 (labT s) (labW s) [] (s.left (labW s)).toNat 32 = (if bs = [] then 0 else if bs = [(0, 1)] then 1 else 2 ^ 50)) := by
  refine ⟨⟨fires_lab (by decide) rfl, by decide, by decide⟩, fires_lab (by decide) rfl, fires_lab (by decide) rfl, fires_lab (by decide) rfl, ?_⟩
  rintro bs (rfl | rfl | rfl) <;> exact ⟨fires_lab (by decide) rfl, by decide, by decide, by decide, by decide⟩

theorem witness_MeetingPoint : (∃ e : Sedge, e.fabric = true) ∧ (∃ e : Sedge, e.fabric = false ∧ e.host = true) ∧
    (∃ c, c < 32 ∧ ({ entry 0x80000000 true with l2 := 0 }).cores.toNat = 2 ^ c) ∧
    ¬((∃ c, c < 32 ∧ (entry 3 true).cores.toNat = 2 ^ c) ∧ (entry 3 true).l2 = 0 ∧ (entry 3 true).slough = 0) :=
  ⟨⟨{ entry 1 true with fabric := true }, rfl⟩, ⟨{ entry 1 true with host := true }, rfl, rfl⟩, ⟨31, by decide⟩, by intro h; exact absurd h.2.1 (by decide)⟩

def heldW : HeldWrite := { port := 64, bytes := [(4096, ⟨7, 255⟩)], item := none }
/-- The same of a segment of a posted store. -/
def heldS : HeldWrite := { port := 0, bytes := segW.bytes, item := some (0, 3, 0) }
theorem witness_SynchronisationEventsComplete :
    (let s := { withItems (lab (.std mop) 0 0 0) [⟨3, .atomic 0 8 4096 0 1 0 (some 4) (entry 1 true) [], 0, none⟩] with now := 4 }
     s.strands.get? 0 = some (labT s) ∧ (labT s).items.find? (·.q == 3) = some ⟨3, .atomic 0 8 4096 0 1 0 (some 4) (entry 1 true) [], 0, none⟩ ∧
      s.itemOpen (coreOf 0) (labT s) 3 ((List.range 8).map (0 + ·)) ((List.range 8).map (4096 + ·)) = true ∧ placeOf 4096 = .hbm ∧
      s.heldLine 0 (bytesOf 4096 8 0) = none ∧ s.lastNow (coreOf 0) (bytesOf 4096 8 0) = true ∧ s.poisoned 4096 = false) ∧
    (let s := { State.reset with held := [(32, [heldW])] }
     s.held.get? 32 = some [heldW] ∧ heldW.item = none ∧ s.heldLine 256 heldW.bytes = none ∧ s.laterNow heldW.bytes = true ∧ s.hostDown = false) ∧
    (let s := { withItems (lab (.std mop) 0 0 0) [⟨3, .store [{ segW with held := true }] true none false, 0, none⟩] with held := [(64, [heldS])], now := 4 }
     s.held.get? 64 = some [heldS] ∧ heldS.item = some (0, 3, 0) ∧ s.strands.get? 0 = some (labT s) ∧ (labT s).heldSeg 3 heldS.bytes = some 0 ∧ s.heldLine 0 heldS.bytes = none ∧
      s.laterNow heldS.bytes = true ∧ ∃ n u, State.placeBytes { s with held := [] } 0 (labT s).gang heldS.bytes = (n, u)) ∧
    (let s : State := { State.reset with contexts := [(0, { (default : Context) with unacked := [(31, 3)], sentAt := [(3, 1)] })], now := 4 }
     ∃ x, s.contexts.get? 0 = some x ∧ x.unacked.contains (31, 3) = true ∧ x.sentAt.getD 3 0 + 3 ≤ s.now ∧ s.feOpen 31 = true) ∧
    (let s := { (lab (.std mop) 0 0 0).updStrand 0 fun t => { t with sleepTo := some 4, vsleep := some ⟨[5], true⟩, qdl := 4 } with now := 4 }
     s.strands.get? 0 = some (labT s) ∧ NMap.sorted s.strands = true ∧ (labT s).sleepsOn 0 0 5 ∧ (labT s).sleepTo = some 4 ∧ 4 ≤ s.now ∧ (labT s).vsleep = some ⟨[5], true⟩ ∧ (labT s).qdl ≠ 0 ∧
      (labT s).qdl ≤ s.qtime ∧ s.clocked 0 = true) :=
  ⟨⟨rfl, rfl, by decide, by decide, by decide, by decide, by decide⟩, by decide, ⟨rfl, rfl, rfl, by decide, by decide, by decide, _, _, rfl⟩, ⟨_, rfl, by decide, by decide, by decide⟩, rfl, by decide, ⟨by decide, _, rfl, rfl, by decide⟩, rfl, by decide, rfl, by decide, by decide, by decide⟩

theorem witness_StateReadingFormsComplete : StateForm (.vgrant gop) (fun _ t _ => match t.posted with | some n => n | none => t.grant) ∧
    Fires (.vgrant gop) (lab (.vgrant gop) 0 0 0) ∧ Fires (.qtime gop) (lab (.qtime gop) 0 0 0) :=
  ⟨.vgrant _, fires_lab (by decide) rfl, fires_lab (by decide) rfl⟩

theorem witness_PostingFormsComplete : PostingForm (.sleep gop) (fun s _ w => .sleep (s.left w)) (fun _ _ _ => 0) ∧ Fires (.sleep gop) (lab (.sleep gop) 9 0 0) :=
  ⟨.sleep _, fires_lab (by decide) rfl⟩

theorem witness_VectorLengthForms : (Fires (.vlset gop) (lab (.vlset gop) 9 0x400000000 0) ∧ lengthWordBad 0x400000000 = none) ∧
    (Fires (.vlset gop) (lab (.vlset gop) 9 0xFF 0) ∧ ∃ sub, lengthWordBad 0xFF = some sub) ∧
    (Fires (.vlmax gop) (lab (.vlmax gop) 0x400000000 0 0)) ∧ (Fires (.vlmax gop) (lab (.vlmax gop) 0xFF 0 0)) :=
  ⟨⟨fires_lab (by decide) rfl, by decide⟩, ⟨fires_lab (by decide) rfl, _, rfl⟩, fires_lab (by decide) rfl, fires_lab (by decide) rfl⟩

/-- A test machine in supervisor mode. -/
def asSup (s : State) : State := s.updStrand 0 fun t => { t with sup := true }
theorem witness_ControlRegisterForms :
    (∀ n, n = 0x100#64 ∨ n = 0x1FF#64 → Fires (.ctlRd gop) (lab (.ctlRd gop) n 0 0) ∧ (labT (lab (.ctlRd gop) n 0 0)).sup = false ∧ 0x100 ≤ n.toNat ∧ n.toNat ≤ 0x1FF) ∧
    (Fires (.ctlWr gop) (lab (.ctlWr gop) 0x1000 0 0) ∧ 0xFFF < (0x1000#64).toNat) ∧
    (∀ n, n = 0xFF#64 ∨ n = 0x200#64 ∨ n = 0xFFF#64 → Fires (.ctlRd gop) (lab (.ctlRd gop) n 0 0) ∧
      (lab (.ctlRd gop) n 0 0).ctlRead 0 (labT (lab (.ctlRd gop) n 0 0)) n.toNat = none) ∧
    (Fires (.ctlRd gop) (lab (.ctlRd gop) 0x030 0 0) ∧ ∃ x, (lab (.ctlRd gop) 0x030 0 0).ctlRead 0 (labT (lab (.ctlRd gop) 0x030 0 0)) 0x030 = some x) ∧
    (Fires (.ctlWr gop) (asSup (lab (.ctlWr gop) 0x130 9 0)) ∧ ∃ x, (asSup (lab (.ctlWr gop) 0x130 9 0)).ctlRead 0 (labT (asSup (lab (.ctlWr gop) 0x130 9 0))) 0x130 = some x) := by
  refine ⟨?_, ⟨fires_lab (by decide) rfl, by decide⟩, ?_, ⟨fires_lab (by decide) rfl, _, rfl⟩, fires_lab (by decide) rfl, _, rfl⟩
  · rintro n (rfl | rfl) <;> exact ⟨fires_lab (by decide) rfl, by decide, by decide, by decide⟩
  · rintro n (rfl | rfl | rfl) <;> exact ⟨fires_lab (by decide) rfl, by decide⟩

/-- A gang whose only member is strand 0. -/
def gang0 : Gang := { (default : Gang) with members := [0], gsize := 1, resident := true, slabMin := 1, slabPref := 1 }
theorem witness_SupervisorForms :
    (Fires (.tret gop) (lab (.tret gop) 0 0 0) ∧ (labT (lab (.tret gop) 0 0 0)).sup = false) ∧
    (Fires (.tret gop) (asSup (lab (.tret gop) 0 0 0)) ∧ (labT (asSup (lab (.tret gop) 0 0 0))).sup = true) ∧
    (Fires (.tlbInv gop) (asSup (lab (.tlbInv gop) 0 2 0)) ∧ (2#64).toNat % 4 ≠ 3) ∧ (Fires (.tlbInv gop) (asSup (lab (.tlbInv gop) 0 3 0))) ∧
    Fires (.ctxSave gop) (asSup (lab (.ctxSave gop) 256 0 0)) ∧
    (Fires (.ctxSave gop) (asSup (lab (.ctxSave gop) 255 0 0)) ∧ (asSup (lab (.ctxSave gop) 255 0 0)).gangs.get? 255 = none) ∧
    (let s := { asSup (lab (.ctxSave gop) 5 0 0) with gangs := [(5, gang0)], contexts := [(0, { (default : Context) with sasize := 0x1000000 })] }
     Fires (.ctxSave gop) s ∧ s.didFire.saveStatus 5 = 0) ∧
    (∀ bs x, (bs = [] ∧ x = 0) ∨ (bs = [(0, 1#8)] ∧ x = 1) ∨ (bs = [(0, 1#8), (1, 1#8)] ∧ x = 0x101) →
      let s := withSp (asSup (lab (.ctxLoad gop) (BitVec.ofNat 64 spBase) 0 0)) bs
      Fires (.ctxLoad gop) s ∧ inSp (s.left (labW s)).toNat 256 ∧ (s.left (labW s)).toNat % 4096 = 0 ∧ s.readOpen 0 (labT s) (s.left (labW s)).toNat 256 = true ∧
        s.readFor 0 (labT s) (labW s) [] (s.left (labW s)).toNat 256 = x ∧ s.gangs.get? (x / 2 ^ 64 % 2 ^ 8) = none) ∧
    (let s := { withSp (asSup (lab (.ctxLoad gop) (BitVec.ofNat 64 spBase) 0 0)) [(0, 1), (1, 1), (8, 9)] with gangs := [(9, gang0)] }
     Fires (.ctxLoad gop) s ∧ s.readOpen 0 (labT s) (s.left (labW s)).toNat 256 = true ∧ s.readFor 0 (labT s) (labW s) [] (s.left (labW s)).toNat 256 = 0x101 + 9 * 2 ^ 64 ∧
      ∃ g, s.gangs.get? 9 = some g ∧ g.resident = true) := by
  refine ⟨⟨fires_lab (by decide) rfl, by decide⟩, ⟨fires_lab (by decide) rfl, by decide⟩, ⟨fires_lab (by decide) rfl, by decide⟩, fires_lab (by decide) rfl, fires_lab (by decide) rfl,
    ⟨fires_lab (by decide) rfl, by decide⟩, ⟨fires_lab (by decide) rfl, by decide⟩, ?_, fires_lab (by decide) rfl, by decide +kernel, by decide +kernel, _, rfl, by decide⟩
  rintro bs x (⟨rfl, rfl⟩ | ⟨rfl, rfl⟩ | ⟨rfl, rfl⟩) <;> exact ⟨fires_lab (by decide) rfl, by decide, by decide, by decide +kernel, by decide +kernel, by decide⟩

/-- A window of two fp32 elements that adds (R253). -/
def winDesc : Dword := 8 + 0x81 * 2 ^ 16
def win0 (closed : Bool) : AccWin := { gang := 0, base := BitVec.ofNat 64 spBase, desc := winDesc, copies := [], undef := none, closed := closed }
def withWindow (s : State) (closed : Bool) : State := s.updCore 0 fun k => { k with accWin := some (win0 closed) }
theorem witness_SpawnAndWindowForms :
    (Fires (.vawin gop) (lab (.vawin gop) 0 0 0) ∧ winBad 0 0 = true) ∧
    (Fires (.vawin gop) (withWindow (lab (.vawin gop) 0 winDesc 0) false) ∧ winBad 0 winDesc = false ∧ (withWindow (lab (.vawin gop) 0 winDesc 0) false).winTaken 0 = true) ∧
    (Fires (.vawin gop) (lab (.vawin gop) 0 winDesc 0) ∧ (lab (.vawin gop) 0 winDesc 0).winTaken 0 = false) ∧
    (let s := lab (.vamerge gop) 0 0 0
     Fires (.vamerge gop) s ∧ s.gangWin 0 (labT s).gang = none) ∧
    (let s := withWindow (lab (.vamerge gop) 0 0 0) false
     Fires (.vamerge gop) s ∧ s.gangWin 0 (labT s).gang = some (win0 false) ∧
      (∀ p ∈ mergeParts (win0 false).base (win0 false).desc, inSp p.va p.size) ∧ (labT s).pinCheck [] = .fits) ∧
    (let s := withSp (lab (.spawn gop) (BitVec.ofNat 64 spBase) 0 0) [(29, 2), (30, 0)]
     Fires (.spawn gop) s ∧ inSp (s.left (labW s)).toNat 64 ∧ (s.left (labW s)).toNat % 64 = 0 ∧ s.readOpen 0 (labT s) (s.left (labW s)).toNat 64 = true ∧
      s.readFor 0 (labT s) (labW s) [] (s.left (labW s)).toNat 64 = 2 * 2 ^ 232) := by
  refine ⟨⟨fires_lab (by decide) rfl, by decide⟩, ⟨fires_lab (by decide) rfl, by decide, by decide⟩, ⟨fires_lab (by decide) rfl, by decide⟩, ⟨fires_lab (by decide) rfl, by decide⟩,
    ⟨fires_lab (by decide) rfl, by decide, by decide, by decide⟩, fires_lab (by decide) rfl, by decide, by decide, by decide, by decide⟩

def cop_ : CPOp := ⟨.always, 7, .reg 3⟩
/-- A record of a copy stream in the scratchpad (R224): eight fp32 elements from 0x1000 to 0x2000, and what breaks it. -/
def streamBytes (stride dfmt rsv : Byte) : List (Nat × Byte) := [(1, 0x10), (8, stride), (17, 0x20), (24, 4), (32, 8), (40, 7), (42, dfmt), (63, rsv)]
noncomputable def streamLab (bs : List (Nat × Byte)) (st : Nat) : State :=
  (withSp (lab (.cpsCfg cop_) (BitVec.ofNat 64 spBase) 0 0) bs).updCore 0 fun k => { k with streams := [(7, { (default : Stream) with state := st })] }
def streamDesc (scope : Nat) (stride : Nat) : StreamRec :=
  { srcBase := 4096, srcStride := stride, dstBase := 8192, dstStride := 4, n := 8, free := false, scope := scope, red := 0, fmt := 0x81, strip := 8 }
def goLab (i : Instr) (st stride : Nat) : State :=
  (lab i 0 0 0).updCore 0 fun k => { k with streams := [(7, { (default : Stream) with state := st, desc := streamDesc 15 stride })] }
theorem witness_StreamFormsComplete :
    (∀ bs st, (bs = streamBytes 4 0x81 1 ∨ bs = streamBytes 4 0x89 0 ∨ bs = streamBytes 2 0x81 0 ∨ bs = streamBytes 4 0x81 0) → (st = 2 ∨ st = 0) →
      let s := streamLab bs st
      Fires (.cpsCfg cop_) s ∧ inSp (s.left (labW s)).toNat 64 ∧ (s.left (labW s)).toNat % 64 = 0 ∧ s.readOpen 0 (labT s) (s.left (labW s)).toNat 64 = true ∧
        ((s.core 0).stream 7).state = st ∧
        (bs = streamBytes 4 0x81 1 → streamReserved (s.readFor 0 (labT s) (labW s) [] (s.left (labW s)).toNat 64) = true) ∧
        (bs ≠ streamBytes 4 0x81 1 → streamReserved (s.readFor 0 (labT s) (labW s) [] (s.left (labW s)).toNat 64) = false) ∧
        ((streamRecOf (s.readFor 0 (labT s) (labW s) [] (s.left (labW s)).toNat 64)).broken = if bs = streamBytes 4 0x89 0 then some 2 else none) ∧
        (bs = streamBytes 2 0x81 0 → (streamRecOf (s.readFor 0 (labT s) (labW s) [] (s.left (labW s)).toNat 64)).misaligned = some 2) ∧
        (bs = streamBytes 4 0x81 0 → (streamRecOf (s.readFor 0 (labT s) (labW s) [] (s.left (labW s)).toNat 64)).misaligned = none)) ∧
    (∀ st stride, (st = 0 ∨ st = 1 ∨ st = 4) → (stride = 4 ∨ stride = 2 ^ 60) →
      let s := goLab (.cpsGo cop_) st stride
      Fires (.cpsGo cop_) s ∧ (labW s).posts = [] ∧ ((s.core 0).stream 7).state = st ∧ (s.sedge 0 (labT s).ctx ((s.core 0).stream 7).desc.scope).valid = true ∧
        (s.sedge 0 (labT s).ctx ((s.core 0).stream 7).desc.scope).cores.getLsbD 0 = true ∧
        (hullOk ((s.core 0).stream 7).desc.srcHull && hullOk ((s.core 0).stream 7).desc.dstHull) = decide (stride = 4)) ∧
    (∀ st, (st = 1 ∨ st = 2 ∨ st = 4 ∨ st = 5) → Fires (.cpsStep cop_) (goLab (.cpsStep cop_) st 4) ∧ (((goLab (.cpsStep cop_) st 4).core 0).stream 7).state = st ∧
      (((goLab (.cpsStep cop_) st 4).core 0).stream 7).desc.free = false) ∧
    Fires (.cpsAvail cop_) (goLab (.cpsAvail cop_) 2 4) ∧ Fires (.cpsWait cop_) (goLab (.cpsWait cop_) 3 4) ∧ Fires (.cpsKill cop_) (goLab (.cpsKill cop_) 2 4) := by
  refine ⟨?_, ?_, ?_, fires_lab (by decide) rfl, fires_lab (by decide) rfl, fires_lab (by decide) rfl⟩
  · rintro bs st (rfl | rfl | rfl | rfl) (rfl | rfl) <;>
      exact ⟨fires_lab (by decide) rfl, by decide, by decide, by decide +kernel, by decide, by decide +kernel, by decide +kernel, by decide +kernel, by decide +kernel, by decide +kernel⟩
  · rintro st stride (rfl | rfl | rfl) (rfl | rfl) <;> exact ⟨fires_lab (by decide) rfl, by decide, by decide, by decide, by decide, by decide⟩
  · rintro st (rfl | rfl | rfl | rfl) <;> exact ⟨fires_lab (by decide) rfl, by decide, by decide⟩

/-- A running stream of core 0 whose issuing strand holds its two ranges (R231), with this record, this progress and these strips. -/
def runStream (red done_ : Nat) (src : Nat) (ss : List Strip) : Stream :=
  { (default : Stream) with gang := some 0, desc := { streamDesc 15 4 with red := red, srcBase := src }, state := 2, done_ := done_, strips := ss, issuer := 0, item := 9,
                            snap := entry 1 true }
def range0 (write : Bool) : Interlock := { stream := some 7, item := 9, lo := spBase, hi := spBase + 64, write := write }
def streamRun (st : Stream) : State :=
  { (lab (.std mop) 0 0 0).updStrand 0 (fun t => { t with lock := [range0 false, range0 true] }) with
    gangs := [(0, gang0)], cores := [(0, { (lab (.std mop) 0 0 0).core 0 with streams := [(7, st)] })], now := 4 }
/-- Streams within the scratchpad: from its start to 2048 bytes on. -/
def spStream (red done_ : Nat) (ss : List Strip) : Stream :=
  { runStream red done_ spBase ss with desc := { (runStream red done_ spBase ss).desc with dstBase := spBase + 2048 } }

/-- A stream of a format whose last element its source has sent. -/
def sentStream (red fmt : Nat) : Stream :=
  let st := spStream red 0 [⟨0, [(7, 5)], [(7, (0, spPhys 0 28))]⟩]
  { st with desc := { st.desc with fmt := fmt } }
theorem ok_of {x : Except Bad Nat} {n : Nat} (h : (match x with | .ok m => some m | .error _ => none) = some n) : x = .ok n := by
  cases x with
  | ok m => simpa using h
  | error e => cases h
theorem witness_StreamEventsComplete :
    (let s := streamRun (spStream 0 0 [])
     let st := (s.core 0).stream 7
     s.streamOpen st 7 = some (labT s) ∧ 0 = st.done_ / st.desc.strip + st.strips.length ∧ 0 < st.desc.strips ∧ 0 ≤ st.cur + 1 ∧ st.strips.length < 2 ∧ st.draining = false ∧
      st.failKind = 0 ∧ st.desc.overlaps = false) ∧
    (let s := streamRun (spStream 0 0 [⟨0, [], []⟩])
     let st := (s.core 0).stream 7
     s.streamOpen st 7 = some (labT s) ∧ st.due 7 = true ∧ st.source 7 = none ∧ s.streamCheck 0 st (labT s) 0 (st.desc.srcAt 7) = (.ok (spPhys 0 28), s) ∧
      s.streamFree 0 st (labT s) false (st.desc.srcAt 7) (spPhys 0 28) = true ∧ s.poisoned (spPhys 0 28) = false) ∧
    (∀ red fmt, (red, fmt) ∈ [(0, 0x81), (1, 0x81), (1, 0x5F), (2, 0x81)] →
     let s := streamRun (sentStream red fmt)
     let st := (s.core 0).stream 7
     s.streamOpen st 7 = some (labT s) ∧ st.due 7 = true ∧ st.source 7 = some (5, 0, spPhys 0 28) ∧ s.crossedTo true 0 [spPhys 0 28] = true ∧
      s.streamCheck 0 st (labT s) 1 (st.desc.dstAt 7) = (.ok (spPhys 0 2076), s) ∧ s.streamFree 0 st (labT s) (st.desc.red != 2) (st.desc.dstAt 7) (spPhys 0 2076) = true ∧
      s.poisoned (spPhys 0 2076) = false ∧ st.desc.red = red ∧ (fmtOf st.desc.fmt).isInt = (fmt == 0x5F) ∧ st.part.has (7 % st.desc.strip) = false) ∧
    (let s := streamRun { sentStream 2 0x81 with part := [(7, 0x3F800000)] }
     let st := (s.core 0).stream 7
     s.streamOpen st 7 = some (labT s) ∧ st.due 7 = true ∧ st.source 7 = some (5, 0, spPhys 0 28) ∧ st.desc.red = 2 ∧ st.part.get? (7 % st.desc.strip) = some 0x3F800000) ∧
    (let s := streamRun (spStream 2 8 [])
     let st := (s.core 0).stream 7
     s.streamOpen st 7 = some (labT s) ∧ st.desc.red = 2 ∧ st.done_ = st.desc.n ∧ 7 < min st.desc.strip st.desc.n ∧ st.finals.has 7 = false ∧ st.failKind = 0 ∧ s.poisoned (spPhys 0 2076) = false ∧
      s.streamCheck 0 st (labT s) 1 (st.desc.dstAt 7) = (.ok (spPhys 0 2076), s) ∧ s.streamFree 0 st (labT s) true (st.desc.dstAt 7) (spPhys 0 2076) = true) ∧
    ((spStream 0 8 []).state = 2 ∧ (spStream 0 8 []).done_ = (spStream 0 8 []).desc.n ∧ (spStream 0 8 []).desc.red ≠ 2) ∧
    (let st := { spStream 2 8 [] with finals := (List.range 8).map (·, true) }
     st.state = 2 ∧ st.done_ = st.desc.n ∧ st.desc.red = 2 ∧ st.finals.length = min st.desc.strip st.desc.n) ∧
    (let s := streamRun (runStream 0 3 4096 [⟨0, [], []⟩])
     let st := (s.core 0).stream 7
     s.streamOpen st 7 = some (labT s) ∧ st.desc.red ≠ 2 ∧ st.done_ = 3 ∧ 3 < st.desc.n ∧ (st.strips.any fun p => p.t == 3 / st.desc.strip) = true ∧
      (∃ f, s.streamFails 0 st (labT s) 3 (0 != 0) = some f) ∧ (s.core 0).queueFull = false) ∧
    (let s := (lab (.std mop) 0 0 0).updStrand 0 fun t => { t with lock := [{ range0 true with stream := none }] }
     s.strands.get? 0 = some (labT s) ∧ (labT s).lock = [{ range0 true with stream := none }] ∧ ((labT s).items.any (·.q == 9)) = false) := by
  refine ⟨⟨rfl, by decide +kernel, by decide +kernel, by decide, by decide, by decide, by decide, by decide +kernel⟩,
    ⟨rfl, by decide, by decide, Prod.ext (ok_of (by decide +kernel)) (by decide +kernel), by decide, by decide⟩, ?_, ⟨rfl, by decide, by decide, by decide, by decide⟩,
    ⟨rfl, by decide, by decide, by decide, by decide, by decide, by decide, Prod.ext (ok_of (by decide +kernel)) (by decide +kernel), by decide⟩, by decide, by decide, ⟨rfl, by decide, by decide, by decide, by decide, ⟨_, rfl⟩, by decide⟩, rfl, rfl, by decide⟩
  intro red fmt h
  simp only [List.mem_cons, List.not_mem_nil, or_false, Prod.mk.injEq] at h
  rcases h with ⟨rfl, rfl⟩ | ⟨rfl, rfl⟩ | ⟨rfl, rfl⟩ | ⟨rfl, rfl⟩ <;>
    exact ⟨rfl, by decide, by decide, by decide, Prod.ext (ok_of (by decide +kernel)) (by decide +kernel), by decide, by decide, by decide, by decide, by decide⟩

/-- Memory with a context descriptor at 64 whose page table maps the first GiB onto itself, writable and not executable (R304, R306). -/
def mapped : List Host.Cell := [(66, 1), (65536, 1), (65538, 2), (131072, 0x23)]
/-- A stream whose source another device holds, by port 0, which may refuse its access. -/
def farLab : State :=
  { streamRun { runStream 0 3 0x40000000 [⟨0, [], []⟩] with snap := { entry 1 true with fabric := true } } with
    mem := mapped ++ [(131080, 0x23), (131085, 0x40)], contexts := [(0, { (default : Context) with ptroot := 65536 })],
    ports := [(0, { State.reset.port 0 with state := 2 })], board := { State.reset.board with phase := 6, devnum := 5, route := [(0, 1)] } }
theorem witness_StreamEventsComplete_refused :
    let s := farLab
    let st := (s.core 0).stream 7
    3 < refusedMark ∧ s.streamOpen st 7 = some (labT s) ∧ st.desc.red ≠ 2 ∧ st.done_ = 3 ∧ 3 < st.desc.n ∧ (st.strips.any fun p => p.t == 3 / st.desc.strip) = true ∧
      s.streamFails 0 st (labT s) 3 (0 != 0) = none ∧ s.streamFails 0 st (labT s) 3 (1 != 0) = some (0x11, 0x4000000C) :=
  ⟨Nat.lt_of_lt_of_le (show 3 < 2 ^ 2 by decide) (Nat.pow_le_pow_right (by decide) (by decide)), rfl, by decide, by decide, by decide, by decide, by decide +kernel, by decide +kernel⟩

/-- A test machine whose strand has this vector length and this format word in g56. -/
def withVec (s : State) (vl : BitVec 22) (fw : Dword) : State := s.updStrand 0 fun t => { t with vl := vl, g := t.g.set 56 fw }
def fwF32 : Dword := 0x818181
theorem witness_LaneFormsComplete : LaneForm (.vadd vop) ∧ Executes (.vadd vop) (withVec vlab 2 fwF32) := ⟨.vadd _, executes_lab (by decide)⟩
theorem witness_VectorArithmetic : ArithForm (.vadds vop) vop true opAdd ∧ Executes (.vadds vop) (withVec (lab (.vadds vop) 0x3F800000 0 0) 2 fwF32) := ⟨.vadds _, executes_lab (by decide)⟩
theorem witness_ElementsOfADestination :
    let e := vEnv (labT (withVec vlab 2 fwF32)) (labW (withVec vlab 2 fwF32)) 0 (Instr.vadd vop).view vop none
    0 < 32 ∧ 1 < e.n ∧ e.n * 32 ≤ 8192 ∧ e.n * 32 < 8192 := by decide +kernel
/-- No register is written in a block in which nothing has run. -/
theorem noWriter_nil {r idx idx' : Nat} (h : idx < idx') (h' : idx' ≤ 128) : noWriterBetween [] r idx idx' := ⟨rfl, h, h', fun _ _ _ => rfl⟩
theorem witness_GroupsReadBack : 30 + 2 ≤ 32 ∧ NMap.sorted (labW vlab).v = true ∧ 5 < 128 ∧ (∀ k, k < 2 → noWriterBetween (labW vlab).v (30 + k) 5 128) ∧ 5 ≤ 5 ∧ 1 < 2 ∧
    (29 < 30 ∨ 30 + 2 ≤ 29) := ⟨by decide, rfl, by decide, fun _ _ => noWriter_nil (by decide) (by decide), by decide, by decide, by decide⟩
theorem witness_VectorBitwise : RawForm (.vshls vop) vop true (fun w a _ c => if w ≤ c then 0 else a * 2 ^ c % 2 ^ w) ∧
    Executes (.vshls vop) (withVec (lab (.vshls vop) 32 0 0) 2 0x1F1F1F) := ⟨.vshls _, executes_lab (by decide)⟩
theorem witness_MaskResults :
    (let s := withVec (lab (.mand vop) 0 0 0) 2 fwF32
     Executes (.mand vop) s ∧ noWriterBetween (labW s).m vop.vd.toNat s.cursor.idx 1 ∧ 1 < (labW s).countOf (labT s) (Instr.mand vop).view ((labT s).fw (Instr.mand vop).view) (labT s).vb ∧ 1 < 64 * (labT s).vb ∧ vop.vd ≠ 0) ∧
    (let s := withVec (lab (.vceq vop) 0 0 0) 2 fwF32
     Executes (.vceq vop) s ∧ noWriterBetween (labW s).m vop.vd.toNat s.cursor.idx 128 ∧ 1 < (vEnv (labT s) (labW s) 0 (Instr.vceq vop).view vop none).n ∧ (vEnv (labT s) (labW s) 0 (Instr.vceq vop).view vop none).mask.testBit 1 = true) :=
  ⟨⟨executes_lab (by decide), noWriter_nil (by decide) (by decide), by decide +kernel, by decide +kernel, by decide +kernel⟩, executes_lab (by decide),
    noWriter_nil (by decide) (by decide), by decide +kernel, by decide +kernel⟩

def vxop : VXOp := ⟨.reg 3, 0, 0, 3⟩
/-- A block of a `vldff` with LSID 3 and the `vcnt` that names it, at the `vcnt`, whose count is this. -/
noncomputable def cntLab (n : NMap Nat) : State :=
  { (lab (.vcnt vxop) 0 0 0).updWin 0 (fun w => { w with
      blk := { w.blk with body := [((encode (.vldff ⟨0, 0, 3, 0, 4⟩)).getD (0, 0)).2, ((encode (.vcnt vxop)).getD (0, 0)).2] }, counts := n, ops := [(0, { l := none, r := none, t := none, fired := true, nulled := n.isEmpty })] }) with cursor := ⟨0, 1⟩ }
theorem witness_ElementAndCountForms :
    Executes (.vext vxop) (withVec (lab (.vext vxop) 1 0 0) 2 fwF32) ∧ Executes (.mpop vxop) (withVec (lab (.mpop vxop) 0 0 0) 2 0) ∧
    Executes (.mfirst vxop) (withVec (lab (.mfirst vxop) 0 0 0) 2 0) ∧
    (∀ n, n = [(0, 5)] ∨ n = [] → Fires (.vcnt vxop) (cntLab n) ∧ (0, View.vm 0x2C 4 ⟨0, 0, 3, 0, 4⟩) ∈ (labW (cntLab n)).blk.views ∧ (3#5) = vxop.vs1 ∧
      (∀ kv ∈ (labW (cntLab n)).blk.views, (∃ x r, kv.2 = .vm 0x2C x r ∧ (x = 4 ∨ x = 7) ∧ r.lsid = vxop.vs1) → kv.1 = 0) ∧
      (labW (cntLab n)).counts.get? 0 = if n = [] then none else some 5) := by
  refine ⟨executes_lab (by decide), executes_lab (by decide), executes_lab (by decide), ?_⟩
  have hv : ∀ n, (labW (cntLab n)).blk.views = [(0, View.vm 0x2C 4 ⟨0, 0, 3, 0, 4⟩), (1, .vx 1 vxop)] := fun n => rfl
  rintro n (rfl | rfl) <;> refine ⟨fires_lab (by decide) rfl, by rw [hv]; simp, rfl, ?_, by decide +kernel⟩ <;>
    (rw [hv]; intro kv hk; simp only [List.mem_cons, List.not_mem_nil, or_false] at hk; rcases hk with rfl | rfl <;> simp)

def vmop : VMOp := ⟨0, 0, 3, 1, 4⟩
noncomputable def vmLab (i : Instr) (l r : Nat) : State := withVec (lab i (BitVec.ofNat 64 l) (BitVec.ofNat 64 r) 0) 2 fwF32
noncomputable def vmEnv (i : Instr) (l r : Nat) (store : Bool) : MEnv := (vmLab i l r).mEnvOf i vmop store (labT (vmLab i l r)) (labW (vmLab i l r))
theorem witness_VectorAccessesComplete :
    (∀ i, i = .vldx vmop ∨ i = .vlds vmop → ∀ b, b = spBase ∨ b = spBase + 1 → Executes i (vmLab i b 4) ∧ (vmEnv i b 4 false).actives = [0, 1] ∧ (vmEnv i b 4 false).cb = 4) ∧
    ContainedForm (.vsts vmop) vmop 1 1 false (fun _ b s j => b + j * s) ∧ Executes (.vsts vmop) (vmLab (.vsts vmop) spBase 4) ∧
    (∀ j, j ∈ [0, 1] → (spBase + j * 4) % 2 ^ 64 % 4 = 0) ∧
    (([0, 1].map fun j => { key := j, va := (spBase + 2 + j * 4) % 2 ^ 64, bit := 0, w := 32, size := 4 : Part }).find? (fun q => q.va % 4 != 0)).isSome = true ∧
    PackedForm (.vsto vmop) vmop 1 true ∧ Executes (.vsto vmop) (vmLab (.vsto vmop) spBase 0) ∧ Executes (.vld vmop) (vmLab (.vld vmop) (spBase + 2) 0) ∧
    (vmEnv (.vld vmop) (spBase + 2) 0 false).w % 8 = 0 ∧ (spBase + 2) % 4 ≠ 0 := by
  refine ⟨?_, .vsts _, executes_lab (by decide), by decide +kernel, by decide +kernel, .vsto _, executes_lab (by decide), executes_lab (by decide), by decide +kernel, by decide +kernel⟩
  rintro i (rfl | rfl) b (rfl | rfl) <;> exact ⟨executes_lab (by decide), by decide +kernel, by decide +kernel⟩

theorem witness_OtherVectorAccessesComplete :
    (∀ i, i = .vldseg vmop ∨ i = .vstseg vmop → ∀ b, b = spBase ∨ b = spBase + 2 → Executes i (vmLab i b 0) ∧ (vmEnv i b 0 (i == .vstseg vmop)).actives = [0, 1]) ∧
    (∀ i, i = .vldmx vmop ∨ i = .vstmx vmop → ∀ b, b = spBase ∨ b = spBase + 64 → Executes i (vmLab i b 0) ∧ (vmEnv i b 0 (i == .vstmx vmop)).actives ≠ []) ∧
    (∀ b, b = spBase ∨ b = spBase + 2 → Executes (.vsc vmop) (vmLab (.vsc vmop) b 0)) ∧ Executes (.vwait vmop) (vmLab (.vwait vmop) spBase 0) ∧
    (Executes (.vldcs vmop) ((vmLab (.vldcs vmop) 0 0).updCore 0 fun k => { k with streams := [(1, spStream 0 0 [])] }) ∧
      (labW (vmLab (.vldcs vmop) 0 0)).counts.has 0 = false ∧
      ((((vmLab (.vldcs vmop) 0 0).updCore 0 fun k => { k with streams := [(1, spStream 0 0 [])] }).core 0).stream 1).fixes 2 = none) ∧
    (∀ s, s = withWindow (vmLab (.vacc vmop) 0 0) false ∨ s = vmLab (.vacc vmop) 0 0 → Executes (.vacc vmop) s ∧ (labW s).posts = [] ∧
      ((s.core 0).accWin = some (win0 false) ∨ (s.core 0).accWin = none)) ∧ (win0 false).gang = (labT vlab).gang ∧ (win0 false).closed = false := by
  refine ⟨?_, ?_, ?_, executes_lab (by decide), ⟨executes_lab (by decide), by decide +kernel, by decide +kernel⟩, ?_, by decide +kernel, by decide +kernel⟩
  · rintro i (rfl | rfl) b (rfl | rfl) <;> exact ⟨executes_lab (by decide), by decide +kernel⟩
  · rintro i (rfl | rfl) b (rfl | rfl) <;> exact ⟨executes_lab (by decide), by decide +kernel⟩
  · rintro b (rfl | rfl) <;> exact executes_lab (by decide)
  · rintro s (rfl | rfl) <;> exact ⟨executes_lab (by decide), rfl, by decide +kernel⟩

/-- A vector load of one fp32 element of the scratchpad, with its last segment still to come. -/
def vAcc : Access := { Access.new 3 0 1 [{ key := 0, va := spBase, bit := 0, w := 32, size := 4 }] with phase := .reading, segs := [spPhys 0 0 / 64], fw := 0x818181, n := 1, vlenb := 1024 }
theorem witness_VectorLoadsReturn :
    let s := { withAcc (vmLab (.vld vmop) spBase 0) vAcc with now := 4 }
    let seg := spPhys 0 0 / 64
    s.strands.get? 0 = some (labT s) ∧ (labT s).win = some (labW s) ∧ (labW s).accs.get? 0 = some vAcc ∧ (labW s).view 0 = some (.vm 0x2C 0 vmop) ∧
      vAcc.phase = .reading ∧ (labW s).fault = none ∧ (labW s).lowerResolved vAcc.lsid = true ∧ fencesHoldLoad (labT s) (labW s) vAcc.lsid = false ∧ vAcc.segs = [seg] ∧
      (labW s).loadBefore 0 vAcc seg = false ∧ itemsHoldBytes (labT s) ((vAcc.bytesIn 0 seg).map (·.1)) ((vAcc.bytesIn 0 seg).map (·.2)) = false ∧
      lockHolds (s.core 0) (labT s) s.seq false ((vAcc.bytesIn 0 seg).map (·.1)) = false ∧ (∀ b : Nat × Nat, b ∈ vAcc.bytesIn 0 seg → s.loads 0 (labT s) (labW s) vAcc b.2 (s.homeByte b.2)) ∧
      (vAcc.bytesIn 0 seg).length = 4 ∧ s.crossedTo true vAcc.sent ((vAcc.bytesIn 0 seg).map (·.2)) vAcc.route = true ∧ (labW s).uncounted 0 = false ∧
      (∀ p ∈ (vAcc.bytesIn 0 seg).map (·.2), s.chanOpen p = true) :=
  ⟨rfl, rfl, rfl, rfl, rfl, rfl, by decide, by decide, rfl, by decide, by decide, by decide, loads_home (fun _ _ => rfl) (by decide), by decide, by decide, by decide, by decide⟩

/-- The same with every segment read, at lanes that stand at a boundary. -/
theorem witness_VectorLoadsReturn_arrival :
    let a := { vAcc with segs := [] }
    let s := { withAcc (vmLab (.vld vmop) spBase 0) a with now := 4 }
    s.strands.get? 0 = some (labT s) ∧ (labT s).win = some (labW s) ∧ (labW s).accs.get? 0 = some a ∧ (labW s).view 0 = some (.vm 0x2C 0 vmop) ∧ a.phase = .reading ∧
      (labW s).fault = none ∧ (labW s).lowerResolved a.lsid = true ∧ fencesHoldLoad (labT s) (labW s) a.lsid = false ∧ s.crossedTo true a.sent (a.places (coreOf 0)) a.route = true ∧ a.segs = [] ∧
      s.clocked (coreOf 0) = true ∧ (s.core (coreOf 0)).lanesStand s.now = true ∧ NMap.sorted (labW s).v = true ∧ NMap.sorted (labW s).scl = true ∧ vmop.vd.toNat + fwGroup a.fw ≤ 32 ∧
      ∀ k, k < fwGroup a.fw → noWriterBetween (labW s).v (vmop.vd.toNat + k) 0 1 :=
  ⟨rfl, rfl, rfl, rfl, rfl, rfl, by decide, by decide, by decide, rfl, by decide, by decide, rfl, rfl, by decide, fun _ _ => noWriter_nil (by decide) (by decide)⟩

/-- A tile instruction of accumulator 2 with no other field set but these. -/
def tileOp (imm : BitVec 15) : TOp := ⟨0, 0, 0, 0, 0, 0, 2, imm, 0, 3, .none⟩
/-- A test machine whose tile 2 has this committed shape. -/
def withShape (s : State) (sh : Option Shape) : State :=
  { s with cores := [(0, { s.core 0 with tiles := [(2, { Tile.reset with gang := some 0, shape := sh, committed := sh })] })] }
def sh32 : Shape := ⟨32, 32, 0⟩
noncomputable def tileLab (i : Instr) (sh : Option Shape) (fw : Dword) : State := withShape (withVec (lab i (BitVec.ofNat 64 spBase) 128 0) 2 fw) sh
theorem witness_TileFormsComplete :
    (∀ imm, imm = 0#15 ∨ imm = 0x3FF#15 → Fires (.mshape (tileOp imm)) (lab (.mshape (tileOp imm)) 0 0 0)) ∧
    (∀ sh, sh = none ∨ sh = some sh32 → Fires (.mzero (tileOp 0)) (tileLab (.mzero (tileOp 0)) sh fwF32) ∧
      (tileLab (.mzero (tileOp 0)) sh fwF32).shapeFor 0 (labW (tileLab (.mzero (tileOp 0)) sh fwF32)) 0 2 = sh ∧ tileMismatch 1 0 (fmtOf 0x81) = false) ∧
    (∀ imm sh, imm = 31#15 ∧ sh = some sh32 ∨ imm = 32#15 ∧ sh = some sh32 ∨ imm = 0#15 ∧ sh = some ⟨32, 32, 1⟩ ∨ imm = 0#15 ∧ sh = none →
      let s := tileLab (.mvrow (tileOp imm)) sh fwF32
      Fires (.mvrow (tileOp imm)) s ∧ s.shapeFor 0 (labW s) 0 2 = sh ∧ fmtWordBad (Instr.mvrow (tileOp imm)).view fwF32.toNat (some sh32) false = none ∧
        tileMismatch 8 1 (fmtOf 0x81) = true ∧ tileMismatch 8 0 (fmtOf 0x81) = false ∧ fwFrnd fwF32.toNat ≠ 5 ∧ (labT s).fw (Instr.mvrow (tileOp imm)).view = fwF32.toNat) := by
  refine ⟨?_, ?_, ?_⟩
  · rintro imm (rfl | rfl) <;> exact fires_lab (by decide) rfl
  · rintro sh (rfl | rfl) <;> exact ⟨fires_lab (by decide) rfl, by decide, by decide⟩
  · rintro imm sh (⟨rfl, rfl⟩ | ⟨rfl, rfl⟩ | ⟨rfl, rfl⟩ | ⟨rfl, rfl⟩) <;> exact ⟨fires_lab (by decide) rfl, by decide, by decide +kernel, by decide, by decide, by decide, by decide⟩

/-- What an `mld` (5) or `mst` (6) of one row fixes as it is accepted (R202). -/
noncomputable def moveOp (pm : Nat) (s : State) (i : Instr) (o : TOp) : TileOp :=
  { idx := 0, item := 0, op := pm, tile := 2, shape := sh32, va := [], vb := [], mask := (labW s).readM (labT s) 0 0, sca := 0, scb := 0, fw := (labT s).fw i.view,
    n := (labW s).countOf (labT s) i.view ((labT s).fw i.view) (labT s).vb, kg := o.depth, vlenb := (labT s).vb, row := o.row0, count := o.rowCount,
    base := (s.left (labW s)).toNat, stride := (s.right (labW s)).toNat, xl := [] }
theorem moveOp_fixed (pm : Nat) (s : State) (i : Instr) (h : pm = 5 ∨ pm = 6) (hc : s.cursor.idx = 0) :
    (moveOp pm s i (tileOp 0)).fixedBy pm (tileOp 0) sh32 s (labT s) (labW s) i.view := by
  refine ⟨rfl, rfl, rfl, hc.symm, rfl, rfl, rfl, by rw [hc]; rfl, ?_, ?_, ?_, fun _ => ⟨rfl, rfl, rfl, rfl⟩⟩ <;> intro h' <;> omega
theorem witness_TileMovesComplete :
    (∀ i pm, i = .mld (tileOp 0) ∧ pm = 5 ∨ i = .mst (tileOp 0) ∧ pm = 6 →
      let s := tileLab i (some sh32) fwF32
      Fires i s ∧ s.shapeFor 0 (labW s) 0 2 = some sh32 ∧ fmtWordBad i.view ((labT s).fw i.view) (some sh32) false = none ∧
        tileMismatch pm sh32.cell (fmtOf (fwSrc1 ((labT s).fw i.view))) = false ∧ 32 * ((0#15).toNat % 32) + 32 * ((0#15).toNat / 32 % 32 + 1) ≤ sh32.rows ∧
        fwFrnd ((labT s).fw i.view) ≠ 5 ∧ (moveOp pm s i (tileOp 0)).fixedBy pm (tileOp 0) sh32 s (labT s) (labW s) i.view ∧
        (s.didFire.probeNow 0 (labT s).asid (labT s).ctx 1 (pm - 5) (labT s).sup (moveOp pm s i (tileOp 0)).parts).1 = none ∧
        (labT s).pinCheck (accessPins (s.didFire.probeNow 0 (labT s).asid (labT s).ctx 1 (pm - 5) (labT s).sup (moveOp pm s i (tileOp 0)).parts).2.1 (moveOp pm s i (tileOp 0)).parts) = .fits ∧ s.partsOpen 0 (labT s) (moveOp pm s i (tileOp 0)).parts = true ∧
        (s.left (labW s)).toNat % 64 = 0 ∧ (s.right (labW s)).toNat % 64 = 0 ∧ (labW s).loadOver 0 3 ((moveOp pm s i (tileOp 0)).moves 0) = none) ∧
    Executes (.mrowv (tileOp 31)) (tileLab (.mrowv (tileOp 31)) (some sh32) fwF32) ∧ Executes (.mcolv (tileOp 31)) (tileLab (.mcolv (tileOp 31)) (some sh32) fwF32) := by
  refine ⟨?_, executes_lab (by decide), executes_lab (by decide)⟩
  rintro i pm (⟨rfl, rfl⟩ | ⟨rfl, rfl⟩) <;>
    exact ⟨fires_lab (by decide) rfl, by decide, by decide +kernel, by decide, by decide, by decide, moveOp_fixed _ _ _ (by decide) rfl, by decide +kernel, by decide +kernel, by decide +kernel,
      by decide, by decide, rfl⟩

/-- A test machine whose strand's oldest posted tile form has run its fill. -/
noncomputable def filled (o : TileOp) : State :=
  let s := (lab (.tret gop) 0 0 0).updStrand 0 fun t => { t with mq := [o], items := [⟨3, .tile true 0 0 [] [], 0, none⟩] }
  { s with now := 4, cores := [(0, { s.core 0 with planeFill := [⟨0, 0⟩] })] }
def cellOp (op : Nat) : TileOp := { (default : TileOp) with op := op, item := 3, tile := 2, shape := sh32, n := 32, kg := 1, count := 1 }
/-- Every form; an `mld` before its lines are read and with them come. -/
theorem witness_TileResults : ∀ o, o ∈ { cellOp 5 with read := true } :: [0, 1, 2, 3, 4, 5, 6, 8].map cellOp →
    let s := filled o
    (s.core 0).plane.stepping s.now = false ∧ s.clocked 0 = true ∧ s.planeReady 0 = some (0, labT s, o) ∧ s.strands.get? 0 = some (labT s) ∧ s.tilePoison 0 o = none ∧
      NMap.sorted ((s.core 0).tile 2).cells = true ∧ 0 < o.shape.cols ∧ NMap.sorted o.early = true := by
  intro o h
  simp only [List.map, List.mem_cons, List.not_mem_nil, or_false] at h
  rcases h with rfl | rfl | rfl | rfl | rfl | rfl | rfl | rfl | rfl <;> exact ⟨by decide, by decide, by rfl, rfl, by decide +kernel, by decide, by decide, by decide⟩

theorem witness_TileEventsComplete :
    (let s : State := { (filled (cellOp 5)).updCore 0 (fun k => { k with planeFill := [], planeRr := 7 }) with now := 4 }
     0 = ((s.core 0).planeRr + 1 + 0) % 8 ∧ (s.core 0).planeCur = none ∧ (s.core 0).plane.stepping s.now = false ∧ s.clocked 0 = true ∧ s.planeHead 0 0 = some (cellOp 5)) ∧
    (let e (n : Nat) : Interlock := { stream := none, item := n, lo := 0, hi := 64, write := false }
     let a := (labT ((lab (.tret gop) 0 0 0).updStrand 0 fun t => { t with lock := [e 3], items := [⟨3, .tile true 0 0 [] [], 0, none⟩] }))
     let b := { a with cid := 1, lock := [e 3] ++ e 4 :: [e 5] }
     let s := { State.reset with strands := [(0, a), (1, b)] }
     NMap.sorted s.strands = true ∧ s.strands.get? 1 = some b ∧ coreOf 1 = 0 ∧ b.lock = [e 3] ++ e 4 :: [e 5] ∧ (e 4).stream = none ∧ (b.items.any (·.q == 4)) = false ∧
      (∀ f ∈ [e 3], (b.items.any (·.q == f.item)) = true) ∧
      ∀ sid' t', sid' < 1 → s.strands.get? sid' = some t' → coreOf sid' = 0 → ∀ f ∈ t'.lock, f.stream = none → (t'.items.any (·.q == f.item)) = true) := by
  refine ⟨⟨by decide, rfl, by decide, by decide, rfl⟩, by decide, rfl, by decide, rfl, rfl, by decide, by decide, ?_⟩
  intro sid' t' h h' _ f hf _
  obtain rfl : sid' = 0 := by omega
  injection h' with h'
  subst h'
  rw [List.mem_singleton.1 hf]
  rfl

/-- A test machine between the steps of its front end, of one resident gang. -/
def quietLab (i : Instr) (f : Window → Window) : State := 
  { ((lab i 0 0 0).updWin 0 f).updCore 0 (fun k => { k with issue := none, ex := none }) with now := 4, gangs := [(0, gang0)] }
def exit0 : Exit := { idx := 0, at_ := 0, kind := 0, target := 64, link := 0 }
/-- The same with a block of one branch that has fired. -/
def doneLab (f : Window → Window) : State :=
  quietLab (.br ⟨.always, 0, 2⟩) fun w => f { w with ops := [(0, { l := none, r := none, t := none, fired := true, nulled := false })], exit := some exit0 }
theorem witness_TakingAnException :
    ((doneLab id).strands.get? 0 = some (labT (doneLab id)) ∧ (labT (doneLab id)).win = some (labW (doneLab id)) ∧ ((doneLab id).core (coreOf 0)).queue.length < 32) ∧
    (let s := (doneLab id).updCore 0 fun k => { k with queue := List.replicate 32 default }
     s.strands.get? 0 = some (labT s) ∧ 32 ≤ (s.core (coreOf 0)).queue.length) ∧
    (let s := doneLab fun w => { w with fault := some ⟨4, 4, 5, 0, 0, 0, 0, 0⟩ }
     s.strands.get? 0 = some (labT s) ∧ (labT s).win = some (labW s) ∧ (s.core (coreOf 0)).fe.stepping s.now = false ∧ (labT s).run = .active ∧ s.clocked (coreOf 0) = true ∧
      (labT s).runs = true ∧ (∃ f, (labW s).fault = some f ∧ f.key ≤ s.now)) ∧
    (let s := doneLab fun w => { w with exit := none }
     s.strands.get? 0 = some (labT s) ∧ (labW s).fault = none ∧ s.quiet 0 (labT s) (labW s) = true ∧ (labW s).complete = false) ∧
    (let s := { (lab (.add gop) 0 0 0).updStrand 0 (fun t => { t with btmo := 3 }) with now := 4 }
     (labW s).fault = none ∧ (labT s).btmo ≠ 0 ∧ (labT s).btmo.toNat < s.now - (labW s).start - (labW s).excluded ∧ s.commits 0 (labT s) (labW s) = false ∧ s.quiet 0 (labT s) (labW s) = false) :=
  ⟨⟨rfl, rfl, by decide⟩, ⟨rfl, by decide⟩, ⟨rfl, rfl, by decide, rfl, by decide, rfl, _, rfl, by decide⟩, ⟨rfl, rfl, by decide, by decide⟩, rfl, by decide, by decide, by decide +kernel, by decide +kernel⟩

/-- A test machine whose strand has a block fetched and none running. -/
def fetchedLab (f : Option FaultRec) (d : List FaultRec) (hdr : Header) : State :=
  { (quietLab (.br ⟨.always, 0, 2⟩) id).updStrand 0 (fun t => { t with win := none, deferred := d, fetched := some { base := 0, hdr := hdr, body := [0x0000821C], len := 36, sup := false, fault := f } }) with now := 4 }
theorem witness_BlocksStartAndCommit :
    (let s := fetchedLab none [] default
     s.strands.get? 0 = some (labT s) ∧ s.clocked (coreOf 0) = true ∧ s.mayRun 0 (labT s) = true ∧ (labT s).pc.toNat % 32 = 0 ∧ (labT s).win = none ∧
      (s.core (coreOf 0)).fe.stepping s.now = false ∧ (∃ f, (labT s).fetched = some f ∧ f.base = (labT s).pc ∧ f.sup = (labT s).sup ∧ f.fault = none ∧
        s.startCheck (coreOf 0) (labT s).gang f = none ∧ s.crossedTo false f.at_ f.home = true) ∧ (labT s).deferred = []) ∧
    ((labT (fetchedLab none [heldFault 0x11 2 0xFF 0 0 0] default)).deferred = [heldFault 0x11 2 0xFF 0 0 0] ∧ (fetchedLab none [heldFault 0x11 2 0xFF 0 0 0] default).mayRun 0
        (labT (fetchedLab none [heldFault 0x11 2 0xFF 0 0 0] default)) = true) ∧
    (∃ f, (labT (fetchedLab (some (heldFault 1 2 0xFF 0 0 0)) [] default)).fetched = some f ∧ f.fault.isSome = true) ∧
    (let s := (fetchedLab none [] { (default : Header) with acmask := 1 }).updCore 0 fun k => { k with tiles := [(0, { Tile.reset with gang := some 9 })] }
     ∃ f, (labT s).fetched = some f ∧ f.fault = none ∧ (s.startCheck (coreOf 0) (labT s).gang f).isSome = true) ∧
    (∀ k, k ∈ [0, 1, 2, 3, 4, 5] →
     let s := doneLab fun w => { w with exit := some { exit0 with kind := k } }
     (labT s).win = some (labW s) ∧ (labT s).runs = true ∧ (s.core (coreOf 0)).fe.stepping s.now = false ∧ (labW s).fault = none ∧ s.quiet 0 (labT s) (labW s) = true ∧
      (labW s).complete = true ∧ s.commitWaits 0 (labT s) (labW s) = false ∧ (labW s).exit = some { exit0 with kind := k } ∧ (s.core (coreOf 0)).queue.length < 32 ∧
      NMap.sorted (labW s).slots = true ∧ NMap.sorted (labW s).v = true ∧ NMap.sorted (labW s).m = true ∧ NMap.sorted (labW s).scl = true ∧ NMap.sorted (labW s).stores = true) ∧
    (∀ p, p ∈ [Post.bar, .scopeSet 3 (entry 1 true), .scopeInv 3] →
     let s := withEntry (doneLab fun w => { w with posts := [(0, p)] }) (entry 1 true)
     s.quiet 0 (labT s) (labW s) = true ∧ (labW s).complete = true ∧ s.commitWaits 0 (labT s) (labW s) = false ∧ (labW s).exit = some exit0 ∧
      (labW s).posts = [(0, p)] ∧ ∃ x, s.contexts.get? (labT s).ctx = some x) ∧
    (∀ p, p ∈ [Post.vacc 2 [] 5, .vamerge 0 0 [] 5, .tile (cellOp 6), .tile (cellOp 1)] →
     let w := labW (doneLab fun w => { w with posts := [(0, p)] })
     w.stores = [] ∧ w.posts = [(0, p)]) ∧
    (∀ c hit qdl, c ∈ [0, 7] → qdl ∈ [0#64, 4] →
     let s := (doneLab fun w => { w with posts := [(0, .vwait c 9)], armed := [5], armedHit := hit }).updStrand 0 fun t => { t with qdl := qdl }
     (labW s).posts = [(0, .vwait c 9)] ∧ s.strands.get? 0 = some (labT s) ∧ (labW s).armedHit = hit ∧ ((labT s).qdl ≠ 0 ∧ (labT s).qdl ≤ s.qtime ↔ qdl = 4)) ∧
    (let s := doneLab fun w => { w with posts := [(0, .fence 2 0 (entry 1 true)), (1, .atomic 1 0 8 0 0 0 0 none (entry 1 true) [])] }
     (labW s).stores = [] ∧ 1 < 2 ∧ (labW s).posts = [(0, .fence 2 0 (entry 1 true)), (1, .atomic 1 0 8 0 0 0 0 none (entry 1 true) [])]) ∧
    (let evs : NMap Nat := [(8 * 3 + 5, 7), (8 * 127 + 5, 9)]
     NMap.sorted evs = true ∧ NMap.sorted (labT (doneLab id)).eix = true ∧ 5 < 6 ∧ evs.get? (8 * 127 + 5) = some 9 ∧ (∀ kv ∈ evs, eventOf kv.1 = 5 → eventIdx kv.1 ≤ 127) ∧
      ∀ kv ∈ evs, eventOf kv.1 ≠ 4) := by
  refine ⟨⟨rfl, by decide, by decide, by decide, rfl, by decide, ⟨_, rfl, rfl, rfl, rfl, by decide, by decide⟩, rfl⟩, ⟨by decide, by decide⟩, ⟨_, rfl, rfl⟩, ⟨_, rfl, rfl, by decide⟩, ?_, ?_, ?_, ?_,
    ⟨rfl, by decide, rfl⟩, by decide⟩
  · intro k h
    simp only [List.mem_cons, List.not_mem_nil, or_false] at h
    rcases h with rfl | rfl | rfl | rfl | rfl | rfl <;> exact ⟨rfl, rfl, by decide, rfl, by decide, by decide, by decide, rfl, by decide, rfl, rfl, rfl, rfl, rfl⟩
  · intro p h
    simp only [List.mem_cons, List.not_mem_nil, or_false] at h
    rcases h with rfl | rfl | rfl <;> exact ⟨by decide, by decide, by decide, rfl, rfl, _, rfl⟩
  · intro p h; exact ⟨rfl, rfl⟩
  · intro c hit qdl hc hq
    simp only [List.mem_cons, List.not_mem_nil, or_false] at hq
    simp only [List.mem_cons, List.not_mem_nil, or_false] at hc
    rcases hc with rfl | rfl <;> cases hit <;> rcases hq with rfl | rfl <;> exact ⟨rfl, rfl, rfl, by decide⟩
/-- A test machine whose page 0 is executable and holds a block of one branch; `v` is the first byte of its header. -/
def codeLab (v : Byte) : State :=
  { (fetchedLab none [] default).updCore 0 (fun k => { k with tlb := [{ asid := 0, leaf := { page := 0, level := 0, pa := 0, w := false, sup := false, x := true, glob := false } }] }) with
    mem := [(0, v), (1, 0x10), (32, 0x1C), (33, 0x82)] }
def okBody (x : Except Bad (List Nat × Nat)) : Option (List Nat × Nat) := match x with | .ok y => some y | .error _ => none
def okBytes (x : Except Bad Nat) : Option Nat := match x with | .ok y => some y | .error _ => none
theorem witness_BlocksStartAndCommit_fetch : ∀ v, v = 0x11#8 ∨ v = 0x12#8 →
    let s := codeLab v
    let x := s.xlateAll 0 (labT s).asid.toNat (s.rootOf (labT s).ctx) (if canonical (labT s).pc.toNat && (labT s).pc.toNat < spBase then [pageOf (labT s).pc.toNat] else []) []
    s.mayRun 0 (labT s) = true ∧ s.fetchOpen 0 (labT s) (s.fetchBlock 0 (labT s).asid (s.rootOf (labT s).ctx) (labT s).sup (labT s).pc).1 = true ∧ okBytes (x.2.codeBytes 0 (labT s).sup x.1 (labT s).pc.toNat 32) = some (v.toNat + 256 * 0x10) ∧
      (checkHeader (headerOf (v.toNat + 256 * 0x10)) = if v = 0x11 then none else some 4) ∧
      okBody (x.2.codeWords 0 (labT s).sup x.1 (((labT s).pc.toNat + 32) % 2 ^ 64) 0 (headerOf (v.toNat + 256 * 0x10)).icount) = some ([0x821C], 4) := by
  rintro v (rfl | rfl) <;> exact ⟨by decide, by decide +kernel, by decide +kernel, by decide, by decide +kernel⟩

/-- A test machine whose strand 0 has stopped like this. -/
def stoppedLab (r : RunState) (kind : Nat) : State :=
  { (quietLab (.br ⟨.always, 0, 2⟩) id).updStrand 0 (fun t => { t with win := none, run := r, parkKind := kind }) with now := 4 }
def fabPa : Nat := fabBase
/-- A test machine whose running block has an atomic that pins page 0. -/
def pinnedLab : State :=
  { (lab (.aadd (aop 3)) 0 0 0).updWin 0 (fun w => { w with posts := [(0, .atomic 31 0 8 4096 4096 1 0 (some 3) (entry 1 true) [0])] }) with now := 4 }
theorem witness_TrapEventsComplete :
    ((stoppedLab .parked 3).strands.get? (8 * 0 + 0) = some (labT (stoppedLab .parked 3)) ∧ (labT (stoppedLab .parked 3)).run = .parked ∧ (labT (stoppedLab .parked 3)).stopped = false ∧
      ((stoppedLab .parked 3).cluster (clusterOf 0)).state = 0 ∧ (({ stoppedLab .parked 3 with clusters := [(0, { State.reset.cluster 0 with state := 3 })] }).cluster (clusterOf 0)).state ≠ 0 ∧ (∃ g, (stoppedLab .parked 3).gangs.get? (labT (stoppedLab .parked 3)).gang = some g)) ∧
    (((stoppedLab .pend 3).core 0).queue.length + (stoppedLab .pend 3).replaying 0 < 32 ∧ (stoppedLab .pend 3).strands.get? (8 * 0 + 0) = some (labT (stoppedLab .pend 3)) ∧ (labT (stoppedLab .pend 3)).run = .pend ∧ (labT (stoppedLab .pend 3)).stopped = false) ∧
    (let s := stoppedLab .active 0
     (∃ g, s.gangs.get? 0 = some g ∧ g.resident = true ∧ (s.core g.core).fatal = none) ∧ placeOf devBase ≠ .hbm ∧ placeOf devBase ≠ .host) ∧
    (let s := (stoppedLab .active 0).updCore 0 fun k => { k with fatal := some default }
     ∃ g, s.gangs.get? 0 = some g ∧ g.resident = true ∧ (s.core g.core).fatal = some default) ∧
    (let s := { (stoppedLab .active 0).updCore 31 (fun k => { k with queue := [default] }) with rings := [(0, { State.reset.ring 0 with rsize := 3 })] }
     (s.core 31).fatal = none ∧ (s.core 31).notices = [] ∧ (s.core 31).queue = [default] ∧ s.hostDown = false ∧
      0 = (Memory.read s.mem (s.trtbase.toNat + (default : TrapRec).asid.toNat)).toNat ∧ s.routerTurn = some 31 ∧ Memory.wf s.mem = true ∧ s.linkOpen [(s.ring 0).slot] = true ∧ s.linkOpen [s.trtbase.toNat + (default : TrapRec).asid.toNat] = true ∧
      s.lastNow 64 (bytesOf (s.ring 0).slot 64 0) = true) ∧
    (State.reset.tlbBusy = false ∧ State.reset.board.tkind ≠ 3) ∧
    (let i : Inval := { id := 5, kind := 0, asid := 0, va := 0, sid := some 0, walks := 5 }
     let s := { (stoppedLab .active 0) with invals := [i] }
     s.invals.find? (·.id == 5) = some i ∧ (∀ kv ∈ s.walks, i.walks ≤ kv.1) ∧ (∀ kv ∈ s.strands, kv.2.items = [] ∧ kv.2.win = none)) ∧
    (let i : Inval := { id := 5, kind := 0, asid := 0, va := 0, sid := some 3, walks := 5 }
     let a := labT pinnedLab
     let s := { pinnedLab with invals := [i], strands := [(0, a), (3, { a with cid := 1, win := none, items := [⟨3, .fence 0 (entry 1 true), 0, none⟩], tlbWait := some 5 })] }
     s.invals.find? (·.id == 5) = some i ∧ NMap.sorted s.strands = true ∧ (∀ kv ∈ s.walks, i.walks ≤ kv.1) ∧ (∀ kv ∈ s.strands, ∀ p ∈ kv.2.items.flatMap PItem.pins, i.namesPin kv.2.asid p = false) ∧
      i.hits a ∧ s.commitDue 0 = false ∧ (∀ j ∈ s.invals, j.id ≠ 5 → j.sid ≠ some 3)) ∧
    (let k := PKind.atomic 0 8 fabPa 0 1 0 (some 63) (entry 1 true) []
     let s := { (stoppedLab .active 0).updStrand 0 (fun t => { t with items := [⟨3, k, 0, some 0⟩], pend := [(63, ⟨3, true, none, 0, 0⟩)] }) with
                ports := [(0, { State.reset.port 0 with state := 5 })], board := { State.reset.board with devnum := 5, route := [(0, 1)] } }
     s.strands.get? 0 = some (labT s) ∧ (labT s).run ≠ .halted ∧ (labT s).items = [⟨3, k, 0, some 0⟩] ∧ placeOf fabPa = .fabric ∧
      fabDev fabPa ≠ s.board.devnum.toNat ∧ (s.port 0).state = 5 ∧ (labT s).pend.get? 63 = some ⟨3, true, none, 0, 0⟩) := by
  refine ⟨⟨rfl, rfl, rfl, by decide, by decide, _, rfl⟩, ⟨by decide, rfl, rfl, rfl⟩, ⟨⟨_, rfl, rfl, rfl⟩, by decide⟩, ⟨_, rfl, rfl, rfl⟩, ⟨rfl, rfl, rfl, rfl, by decide, by decide, by decide, by decide, by decide, by decide +kernel⟩, by decide,
    ⟨rfl, by decide, ?_⟩, ⟨rfl, by decide, by decide, by decide, ⟨_, rfl, by decide⟩, by decide, by decide⟩, rfl, by decide, rfl, by decide, by decide, by decide, rfl⟩
  intro kv h
  rw [List.mem_singleton.1 h]
  exact ⟨rfl, rfl⟩

/-- A resident strand that has arrived at its gang's barrier (or has not), beside one that has not. -/
def barLab (others : Bool) : State :=
  let s := (stoppedLab .active 0).updStrand 0 fun t => { t with barWait := true }
  if others then { s with strands := s.strands ++ [(1, { labT s with cid := 1, barWait := false })] } else s
def vUp : VUpdate := { elem := 3, group := 1, index := 1, bits := 0, draw := 0, fw := 0x81 }
def clusterLab (f : Cluster → Cluster) : State := { State.reset with clusters := [(7, f (State.reset.cluster 7))] }
theorem witness_SharedUnitEventsComplete :
    (∀ b, let s := withWindow (withItems (stoppedLab .active 0) [⟨3, .vacc [vUp], 0, none⟩]) b
      s.strands.get? 0 = some (labT s) ∧ (labT s).items = [⟨3, .vacc [vUp], 0, none⟩] ∧ s.crossed 0 = true ∧ s.mergeBefore (labT s).gang 3 = false ∧ (s.core (coreOf 0)).accWin = some (win0 b) ∧ (win0 b).gang = (labT s).gang ∧ (win0 b).closed = b ∧ s.bankFree (coreOf 0) vUp.group = true) ∧
    (let k := PKind.vamerge 0 winDesc.toNat [(0, .ok { page := 0, level := 0, pa := 0, w := true, sup := false, x := false, glob := false })] 126
     let s₀ := (withItems (stoppedLab .active 0) [⟨3, k, 0, none⟩]).updStrand 0 fun t => { t with lock := [⟨none, 3, 0, 0 + winLen winDesc, true⟩] }
     let u := withWindow s₀ false
     let x : AccWin := { win0 false with out := [(3, List.replicate 64 0)] }
     let s := s₀.updCore 0 fun k => { k with accWin := some x }
     (u.strands.get? 0 = some (labT u) ∧ (labT u).items = [⟨3, k, 0, none⟩] ∧ (u.core (coreOf 0)).accWin = some (win0 false) ∧ (win0 false).out.get? 3 = none ∧ u.crossed 0 = true ∧
      ∀ g, g < 64 → u.bankFree (coreOf 0) g = true) ∧
     s.strands.get? 0 = some (labT s) ∧ (labT s).items = [⟨3, k, 0, none⟩] ∧ (∀ kv ∈ s.strands, kv.2.gang = (labT s).gang → kv = (0, labT s)) ∧ s.crossedTo true 0 [4, 5, 6, 7] = true ∧
      (∀ p ∈ [4, 5, 6, 7], s.chanOpen p = true) ∧ s.lastNow (coreOf 0) (bytesOf 4 4 0) = true ∧ (s.core (coreOf 0)).accWin = some x ∧ x.out.get? 3 = some (List.replicate 64 0) ∧ winCb winDesc = 4 ∧
      (labT s).lock = [⟨none, 3, 0, 0 + winLen winDesc, true⟩] ∧
      (((List.range 4).map (0 + 126 / 64 * 4 + ·)).filterMap (physOf 0 [(0, .ok { page := 0, level := 0, pa := 0, w := true, sup := false, x := false, glob := false })])) = [4, 5, 6, 7] ∧
      placeOf 4 = .hbm ∧ s.resv = [] ∧ s.poisoned 4 = false ∧ 126 + 1 < 64 * winCount winDesc) ∧
    (∀ b, let s := barLab b
      s.strands.get? 0 = some (labT s) ∧ s.gangs.get? (labT s).gang = some gang0 ∧ (labT s).barWait = true ∧ (labT s).run ≠ .halted ∧ (labT s).cid ∉ gang0.arrived ∧ (labT s).mq = [] ∧ (labT s).items = [] ∧
        (b = true → (s.strands.any fun kv => kv.2.gang == 0 && kv.2.run != .halted && kv.2.cid == 1) = true) ∧ (b = false → (s.strands.all fun kv => kv.2.cid == 0) = true)) ∧
    ((State.reset.updCore 31 fun k => { k with l1 := [(7, default)] }).core 31).l1.has 7 = true ∧
    ((∃ gl, gl ∈ ((State.reset.updCore 31 fun k => { k with gl1 := [{ (default : GLine) with bytes := [(7 * 64 + 63, 1)] }] }).core 31).gl1 ∧ ∃ b, b ∈ gl.bytes ∧ lineOf b.1 = 7)) ∧
    (7 ∈ ((State.reset.updDie 7 fun d => { d with l2 := [7] }).die 7).l2) ∧
    (let s : State := { withAcc (lab (.ldd mop) 0 0 0) { (Access.new 31 0 0 [{ key := 0, va := 65536, bit := 0, w := 64, size := 8 }]) with phase := .probing } with
       walks := [(4, { asid := 0, root := 0, page := 1, cores := [0] })] }
     s.walks.get? 4 = some { asid := 0, root := 0, page := 1, cores := [0] } ∧ s.strands.get? 0 = some (labT s) ∧ (labT s).win = some (labW s) ∧
      (∃ a, (labW s).accs.get? 0 = some a ∧ a.phase = .probing ∧ a.xl.has 1 = false ∧ 1 ∈ partPages a.parts) ∧ coreOf 0 ∈ [0] ∧ (labT s).asid = 0) ∧
    ((State.reset).now % 65536 = 0 ∧ 31 < 32 ∧ 7 < 8 ∧ State.reset.retraining = false) ∧
    (let s := clusterLab fun x => { x with floor := 8 }
     (s.cluster 7).state = 0 ∧ (s.cluster 7).stopAt = none ∧ s.retraining = false ∧ (s.cluster 7).level ≠ levelOf (max s.pkg.floor (s.cluster 7).floor) ∧ s.effOpen 7 = true) ∧
    (let s := clusterLab fun x => { x with stopAt := some 0 }
     (s.cluster 7).stopAt.isSome = true ∧ (∀ j, j < 4 → (s.core (4 * 7 + j)).standing s.now = true)) := by
  refine ⟨fun b => ⟨rfl, rfl, by cases b <;> decide, by cases b <;> decide, rfl, rfl, rfl, by cases b <;> decide⟩,
    ⟨⟨rfl, rfl, rfl, rfl, by decide, by decide⟩, rfl, rfl, fun kv h _ => List.mem_singleton.1 h, by decide, by decide, by decide, rfl, rfl, by decide, rfl, by decide, by decide, rfl, by decide, by decide⟩, ?_, by decide,
    ⟨_, List.mem_singleton.2 rfl, _, List.mem_singleton.2 rfl, by decide⟩, by decide,
    ⟨rfl, rfl, rfl, ⟨_, rfl, rfl, rfl, by decide⟩, by decide, rfl⟩, by decide, ⟨by decide, by decide, by decide, by decide, by decide⟩, by decide⟩
  intro b; cases b <;> exact ⟨rfl, rfl, rfl, by decide, by decide, rfl, rfl, by decide, by decide⟩

/-- The package awake, with clusters all in C3 and a tolerance that allows C4. -/
def c4Lab (idles : List Nat) : State :=
  { State.reset with clusters := (List.range 8).map (fun k => (k, { State.reset.cluster 0 with state := 3 })), pkg := { State.reset.pkg with pltr := 500000, idles := idles } }
theorem witness_PowerEventsComplete :
    (deepestRepaid 0 none [] 4 = 4 ∧ deepestRepaid 0 none [5] 4 = 1) ∧
    (let s := { State.reset with pkg := { State.reset.pkg with emergency := true } }
     (s.cluster 7).waking = false ∧ (s.cluster 7).state < 3 ∧ (s.cluster 7).stopAt = none ∧ s.board.reduced = false ∧ s.clusterIdle 7 (!(s.forced 7)) = true ∧ s.forced 7 = true) ∧
    (let s := clusterLab fun x => { x with cltr := 50 }
     (s.cluster 7).waking = false ∧ (s.cluster 7).qreq = false ∧ (s.cluster 7).stopAt = none ∧ s.board.reduced = false ∧ s.clusterIdle 7 (!(s.forced 7)) = true ∧ s.forced 7 = false ∧
      (s.cluster 7).state < deepestRepaid s.now (earliest s.now (s.clusterStrands 7)) (s.cluster 7).idles (deepOf (s.cluster 7).cltr.toNat)) ∧
    (let s := { (stoppedLab .active 0) with clusters := [(0, { State.reset.cluster 0 with state := 1 })] }
     (s.cluster 0).state ≠ 0 ∧ (s.cluster 0).waking = false ∧ s.pkg.c4 = false ∧ s.wakeDue 0 = true) ∧
    ((clusterLab fun x => { x with waking := true }).cluster 7).waking = true ∧ ({ State.reset with links := [(15, { State.reset.link 15 with retraining := true })] } : State).retraining = true ∧
    ((c4Lab []).c4Ready = true ∧ repays (c4Lab []).now (earliest (c4Lab []).now (c4Lab []).strands) (c4Lab []).pkg.idles 4 = true) ∧
    ((c4Lab [39999999]).c4Ready = true ∧ repays (c4Lab [39999999]).now (earliest (c4Lab [39999999]).now (c4Lab [39999999]).strands) (c4Lab [39999999]).pkg.idles 4 = false) ∧
    ({ State.reset.pkg with c4 := true }).c4 = true ∧ (State.reset.cluster 7).qreq = false ∧ 1 % 2 = 1 ∧
    (let s := clusterLab fun x => { x with qreq := true }
     (s.cluster 7).qreq = true ∧ (s.cluster 7).quiesced = false ∧ s.quiesceDone 7 = true) ∧
    ((clusterLab fun x => { x with qreq := true, mode := 2 }).cluster 7).mode ≠ 0 ∧ State.reset.pkg.mayDraw 1950 = true ∧ 1900 < 1901 ∧ 255 < 256 ∧
    (State.reset.pkg.ctlAt < 65536 / 65536 ∧ State.reset.pkg.thmAt < 65536 / 65536) ∧
    (emergLevel ≤ ({ State.reset.pkg with tmax := 255 }).tmax.toNat ∧ ({ State.reset.pkg with tmax := 255 }).emergency = false ∧ tripLevel ≤ ({ State.reset.pkg with tmax := 255 }).tmax.toNat) := by
  decide +kernel

def rec0 : StartRec :=
  { (default : StartRec) with entry := 32, ctx := 64, done := 8192, doneScope := 15, prio := 1, affinity := 1, gsize := 1, slabPref := 1, slabMin := 1, vceil := 1, reservedOk := true }
def dispLab (f : Dispatcher → Dispatcher) : State := { State.reset with mem := mapped, disp := f State.reset.disp, board := { State.reset.board with phase := 5 } }
def spawnLab (r : StartRec) : State := (dispLab id).updCore 0 fun k => { k with spawn := [(r, 0)] }
def head0 (r : StartRec) : HeadRec := { start := r, since := 0, id := 9 }
def headLab : State := dispLab fun d => { d with heads := [(64, head0 rec0)] }
def res0 : Resume := { (default : Resume) with gang := 0, ctx := 64, via := 64, prio := 1, affinity := 1, gsize := 1, slabMin := 1, slabPref := 1, idKept := true }
/-- A core filled by a gang of lower priority, with a record at its head that has waited. -/
def fullLab (grant : Nat) (rcltmo : BitVec 32) (rc : Option (Nat × Nat)) : State :=
  { (stoppedLab .active 0).updStrand 0 (fun t => { t with grant := grant }) with
    now := 0x100000, gangs := [(0, { gang0 with reclaim := rc })], board := { State.reset.board with phase := 5 },
    disp := { State.reset.disp with rcltmo := rcltmo, heads := [(64, head0 { rec0 with slabMin := 32 - 7, slabPref := 32 })] } }
def placed : State → Option (Nat × Nat × Nat) := fun s => s.pickOffer.map fun o => (o.cls, o.src, o.core)
theorem witness_DispatcherEventsComplete :
    (2 ^ (State.reset.queue 63).qsize.toNat < (BitVec.ofNat 32 2 - (State.reset.queue 63).qrd).toNat ∧ (BitVec.ofNat 32 1 - (State.reset.queue 63).qrd).toNat ≤ 2 ^ (State.reset.queue 63).qsize.toNat) ∧
    (let s := spawnLab rec0
     s.dispatching = true ∧ s.disp.heads.has 64 = false ∧ s.sourceRec 64 = some rec0 ∧ s.judge rec0 = .good) ∧
    (let s := dispLab fun d => { d with queues := [(63, { State.reset.queue 63 with en := true, qwr := 1, qbase := 4096 })] }
     s.dispatching = true ∧ s.disp.heads.has 63 = false ∧ (s.sourceRec 63).isSome = true ∧ (s.sourceRec 63).map s.judge = some (.skip 0x10)) ∧
    (let s := spawnLab { rec0 with done := 8200 }
     64 ≤ 64 ∧ s.dispatching = true ∧ s.disp.heads.has 64 = false ∧ s.sourceRec 64 = some { rec0 with done := 8200 } ∧ s.judge { rec0 with done := 8200 } = .skip 0x10) ∧
    (let s := spawnLab { rec0 with gsize := 9 }
     s.sourceRec 64 = some { rec0 with gsize := 9 } ∧ s.judge { rec0 with gsize := 9 } = .reject 2 8192 ∧ Memory.wf s.mem = true ∧ placeOf 8192 = .hbm ∧
      s.resv.has (lineOf 8192) = false ∧ (∀ k, k < 64 → (s.marks.getD (8192 + k) ⟨0, 0⟩).before (s.stampAt 8192) 83 = true)) ∧
    (headLab.dispatching = true ∧ placed headLab = some (1, 64, 0) ∧ headLab.disp.heads.get? 64 = some (head0 rec0) ∧
      rec0.gsize.toNat ≤ (headLab.freeCtxs 0).length ∧ NMap.sorted headLab.disp.heads = true) ∧
    (let s := dispLab fun d => { d with resumes := [res0] }
     s.dispatching = true ∧ placed s = some (0, 0, 0) ∧ s.disp.resumes[0]? = some res0 ∧ res0.gsize ≤ (s.freeCtxs 0).length) ∧
    (let s := fullLab 32 0 none
     s.dispatching = true ∧ 0 + s.disp.pwait.toNat ≤ s.now ∧ s.bestCore 1 25 1 = none ∧ s.freeGang.isSome = true ∧
      (∀ kv ∈ s.gangs, kv.2.reclaim = none ∧ kv.2.save = none) ∧ s.victim 9 1 1 = some (0, gang0) ∧ s.gangs.get? 0 = some gang0 ∧ s.disp.rcltmo = 0 ∧ s.resumeRoom = true) ∧
    (let s := fullLab 32 1 none
     s.disp.rcltmo ≠ 0 ∧ s.bestCore 1 25 1 = none ∧ s.reclaimTo gang0 1 25 = some 6) ∧
    (let s := fullLab 32 1 (some (6, 0))
     s.gangs.get? 0 = some { gang0 with reclaim := some (6, 0) } ∧ 0 + s.disp.rcltmo.toNat ≤ s.now ∧ gang0.save = none ∧ s.pkg.emergency = false ∧ s.resumeRoom = true) ∧
    (let s := { vlab.updStrand 0 (fun t => { t with grant := 0 }) with gangs := [(0, gang0)] }
     s.gangs.get? 0 = some gang0 ∧ gang0.members = [0] ∧ gang0.resident = true ∧ gang0.reclaim = none ∧ gang0.save = none ∧ s.strands.get? 0 = some (labT s) ∧ (labT s).grant = 0 ∧
      (labT s).wantsGrant = true ∧ s.grantFor 0 1 1 1 = 1 ∧ 1 ≤ s.freeSlabs 0 ∧ dieOk (s.grants 0 ++ [1]) = true) := by
  refine ⟨?_, ?_, ?_, ?_, ?_, ?_, ?_, ?_, ?_, ?_, ?_⟩ <;> decide +kernel

theorem witness_DispatcherEventsComplete_end :
    let g := { gang0 with donePa := some 8192, doneScope := 3 }
    let far : PItem := ⟨3, .store [{ segW with bytes := [(hostBase, ⟨7, 255⟩)] }] true none false, 0, none⟩
    let s := { withItems (stoppedLab .halted 0) [far] with gangs := [(0, g)], contexts := [(0, { (default : Context) with table := [(3, entry 1 true)] })] }
    s.gangs.get? 0 = some g ∧ g.resident = true ∧ g.save = none ∧ g.restore = none ∧ g.stopped = none ∧ placeOf 8192 = .hbm ∧ s.resv.has (lineOf 8192) = false ∧
      (∀ sid t, sid ∈ g.members → s.strands.get? sid = some t → t.run = .halted ∧ t.mq = [] ∧ t.fenced = false ∧ ∀ i ∈ t.items, i.awaited (s.doneEntry g) = false) ∧
      (∀ kv ∈ (s.core g.core).streams, kv.2.gang = some 0 → kv.2.state ≠ 2) ∧ s.linkOpen [8192] = true ∧ s.homeFree 8192 = true ∧
      (∀ k, k < 64 → (s.marks.getD (8192 + k) ⟨0, 0⟩).before (s.stampAt 8192) g.core = true) ∧ NMap.sorted s.gangs = true ∧ Memory.wf s.mem = true := by
  refine ⟨rfl, rfl, rfl, rfl, rfl, by decide, by decide, ?_, by decide, by decide +kernel, by decide +kernel, by decide +kernel, by decide, by decide⟩
  intro sid t h ht
  rw [List.mem_singleton.1 h] at ht
  injection ht with ht
  subst ht
  refine ⟨rfl, rfl, rfl, fun i hi => ?_⟩
  rw [List.mem_singleton.1 hi]
  decide +kernel

/-- A resident gang of one halted strand under a context with this save area and this save in hand; the second GiB is mapped on the
host window, whose link is down. -/
def saveLab (op : Option SaveOp) (base size : Dword) : State :=
  { (stoppedLab .halted 0).updStrand 0 (fun t => { t with grant := 0 }) with
    mem := mapped ++ [(131080, 0x23), (131085, 0x10)], gangs := [(0, { gang0 with ctx := 64, save := op })],
    board := { State.reset.board with notif := 8 },
    contexts := [(64, { (default : Context) with ptroot := 65536, sabase := base, sasize := size })] }
def saveOp (by_ : Nat) (scalar started : Bool) : SaveOp := { by_ := by_, scalarOnly := scalar, started := started }
def saveGang (op : SaveOp) (killed : Bool) : Gang := { gang0 with ctx := 64, save := some op, killed := killed }
theorem witness_ContextSwitchesComplete :
    (∀ sz b, sz = 0x100000#64 ∨ sz = 0#64 → b ∈ [0, 1, 2, 3] →
      let s := saveLab (some (saveOp b false false)) 8192 sz
      let g := saveGang (saveOp b false false) false
      s.gangs.get? 0 = some g ∧ g.resident = true ∧ g.save = some (saveOp b false false) ∧ (saveOp b false false).started = false ∧ g.restore = none ∧ s.listRoom = true ∧
        (s.cluster (clusterOf g.core)).state = 0 ∧ s.saveFlies (clusterOf g.core) = false ∧ (∀ sid ∈ g.members, s.commitDue sid = false) ∧
        (b = 3 → s.saveFlies (clusterOf g.core) = false) ∧ (∃ x, s.contexts.get? g.ctx = some x ∧ x.broken = false ∧ decide (s.saveSize 0 g false ≤ x.sasize.toNat) = decide (sz = 0x100000)) ∧ s.saveLate = false ∧
        (s.core g.core).queueFull = false) ∧
    (∀ by_ scalar k b, by_ ∈ [0, 1] → b = 0x40000000#64 ∨ b = 0x80000000#64 →
      let op := saveOp by_ scalar true
      let g := saveGang op k
      let s := { saveLab (some op) b 0x100000 with gangs := [(0, g)] }
      s.gangs.get? 0 = some g ∧ g.resident = true ∧ g.save = some op ∧ op.started = true ∧ (s.contexts.get? g.ctx).isSome = true ∧ s.linkWait (fun l => l < 8) = false ∧
        (∀ kv ∈ (s.core g.core).streams, kv.2.gang = some 0 → kv.2.state = 2 → kv.2.written = [] ∧ kv.2.draining = false) ∧
        ((s.evenGrants g).saveArea 0 g scalar).1 = (if b = 0x40000000 then .done else .failed 0) ∧ (((s.evenGrants g).saveArea 0 g scalar).2.core g.core).fatal = none ∧ NMap.sorted s.gangs = true ∧ g.donePa.all (s.doneOpen g.core) = true) ∧
    (∀ sid t, sid ∈ gang0.members → (saveLab (some (saveOp 0 false true)) 8192 0x100000).strands.get? sid = some t → t.pend = [] ∧ t.busy = false ∧ t.win = none ∧ t.tlbWait = none) := by
  refine ⟨?_, ?_, ?_⟩
  · intro sz b h hb
    simp only [List.mem_cons, List.not_mem_nil, or_false] at hb
    rcases h with rfl | rfl <;> rcases hb with rfl | rfl | rfl | rfl <;>
      exact ⟨rfl, rfl, rfl, rfl, rfl, by decide, by decide, by decide, by decide, by decide, ⟨_, rfl, rfl, by decide +kernel⟩, by decide +kernel, by decide⟩
  · intro by_ scalar k b hb h
    simp only [List.mem_cons, List.not_mem_nil, or_false] at hb
    rcases hb with rfl | rfl <;> cases scalar <;> cases k <;> rcases h with rfl | rfl <;>
      exact ⟨rfl, rfl, rfl, rfl, by decide, by decide, by decide, by decide +kernel, by decide +kernel, by decide, by decide⟩
  · intro sid t h ht
    rw [List.mem_singleton.1 h] at ht
    injection ht with ht
    subst ht
    exact ⟨rfl, rfl, rfl, rfl⟩

/-- A placed resumption whose save area lies at 1 MiB in mapped memory: its head word, then its scalar block. -/
def restoreLab : State :=
  { stoppedLab .active 0 with
    mem := mapped ++ [(0x100000, 1), (0x100001, 1)], gangs := [(0, { gang0 with ctx := 64, restore := some (0x100000, 64) })],
    contexts := [(64, { (default : Context) with ptroot := 65536, sabase := 0x100000, sasize := 0x100000 })],
    cores := [(0, { (stoppedLab .active 0).core 0 with owner := some 0 })] }
/-- A save area whose dwords all read as zero reads as zero. -/
theorem areaNat_zero (s : State) (root : Nat) : ∀ k va, (∀ j, j < k → s.areaNat root ((va + 8 * j) % 2 ^ 64) 1 = some 0) → va < 2 ^ 64 → s.areaNat root va k = some 0 := by
  intro k
  induction k with
  | zero => intros; rfl
  | succ k ih =>
    intro va h hva
    have h0 := h 0 (Nat.succ_pos k)
    have h1 : s.areaNat root ((va + 8) % 2 ^ 64) k = some 0 := by
      refine ih _ (fun j hj => ?_) (Nat.mod_lt _ (by decide))
      have := h (j + 1) (Nat.succ_lt_succ hj)
      have e : ((va + 8) % 2 ^ 64 + 8 * j) % 2 ^ 64 = (va + 8 * (j + 1)) % 2 ^ 64 := by omega
      rwa [e]
    rw [Nat.mul_zero, Nat.add_zero, Nat.mod_eq_of_lt hva] at h0
    simp only [State.areaNat] at h0 ⊢
    split at h0 <;> first | (split at h0 <;> simp_all) | simp_all
theorem witness_ContextSwitchesComplete_restore :
    let g := { gang0 with ctx := 64, restore := some (0x100000, 64) }
    let s := restoreLab
    s.gangs.get? 0 = some g ∧ g.resident = true ∧ g.restore = some (0x100000, 64) ∧ g.members = [0] ∧ s.strands.get? 0 = some (labT s) ∧ (labT s).run ≠ .halted ∧
      s.areaNat (Memory.dword s.mem 64).toNat 0x100000 32 = some 0x101 ∧ getBits 0x101 0 8 = 1 ∧ getBits 0x101 88 16 = 0 ∧ Nat.testBit 0x101 104 = false ∧ getBits 0x101 76 6 = 0 ∧
      (s.core g.core).owner = some (BitVec.ofNat 16 (getBits 0x101 112 16)) ∧ (s.core g.core).queue = [] ∧ (s.cluster (clusterOf g.core)).state = 0 ∧ s.linkWait (fun l => l < 8) = false ∧
      s.areaNat (Memory.dword s.mem 64).toNat (0x100000 + 256) 256 = some 0 ∧ Nat.testBit 0 65 = false ∧ Nat.testBit 0 66 = false ∧
      s.areaNat (Memory.dword s.mem 64).toNat (0x100000 + 256 + 2048) (13 * vlenb 0) = some 0 := by
  exact ⟨rfl, rfl, rfl, rfl, rfl, by decide, by decide +kernel, by decide, by decide, by decide, by decide, rfl, rfl, rfl, by decide, areaNat_zero _ _ _ _ (by decide +kernel) (by decide), by decide, by decide, by decide +kernel⟩
/-- The leaf of `mapped`: the first GiB, writable. -/
def bigLeaf : Leaf := { page := 0, level := 2, pa := 0, w := true, sup := false, x := false, glob := false }
/-- Every page of the first GiB walks to it. -/
theorem restoreLab_walk (p : Nat) (h : p < 16384) : restoreLab.walk 65536 p = .ok bigLeaf := by
  have h0 : p / 2 ^ (5 + 9 * 2) % 8192 = 0 := by omega
  have h1 : p / 2 ^ (5 + 9 * 1) % 512 = 0 := by omega
  have e1 : Memory.readLe restoreLab.mem 65536 8 = 0x20001 := by decide +kernel
  have e2 : Memory.readLe restoreLab.mem 131072 8 = 0x23 := by decide +kernel
  have p1 : restoreLab.poisoned 65536 = false := by decide +kernel
  have p2 : restoreLab.poisoned 131072 = false := by decide +kernel
  have hl : leafOf 0x23 2 p = some bigLeaf := by
    have hs : p - p % (2 ^ 30 / 65536) = 0 := by omega
    have ha : getBits 0x23 16 31 * 65536 = 0 := by decide
    have hb : getBits 0x23 8 8 = 0 := by decide
    simp only [leafOf, ha, hb, Leaf.size, ne_eq, not_true_eq_false, Nat.zero_mod, or_self, if_false, bigLeaf, hs]
    decide
  unfold State.walk
  simp only [walkFrom, if_true, h0, Nat.mul_zero, Nat.add_zero, e1, p1, Bool.false_eq_true, if_false]
  rw [if_neg (by decide), if_neg (by decide), if_neg (by decide), if_neg (by decide)]
  have hn : getBits 131073 8 39 * 256 = 131072 := by decide
  simp only [hn, if_neg (show ¬ (1 = 2) by decide), h1, Nat.mul_zero, Nat.add_zero, e2, p2, Bool.false_eq_true, if_false]
  rw [if_neg (by decide), if_neg (by decide), if_pos (by decide)]
  rw [hl]
/-- Every aligned dword of the first GiB can be read. -/
theorem restoreLab_area (va : Nat) (h8 : va % 8 = 0) (h : va < 2 ^ 30) : (restoreLab.areaNat 65536 va 1).isSome = true := by
  have pg : pageOf va = va / 65536 := by unfold pageOf; omega
  have hsp : 2 ^ 30 ≤ spBase := by decide
  have scr : ∀ b, b < 2 ^ 30 → inScratch b = false := fun b hb => by rw [inScratch, Bool.and_eq_false_iff]; exact .inl (decide_eq_false (by omega))
  have b0 : ∀ b, b < 2 ^ 30 → b / 65536 = va / 65536 →
      byteBad restoreLab 1 0 true [(va / 65536, .ok bigLeaf)] va b = none := by
    intro b hb hp
    have c : canonical b = true := by unfold canonical; simp; omega
    have sc := scr b hb
    have bs : beyondScratch b = false := decide_eq_false (by omega)
    have pb : pageOf b = va / 65536 := by unfold pageOf; omega
    have ph : bigLeaf.phys b = b := by show 0 + b % 2 ^ 30 = b; omega
    have pl : placeOf b = .hbm := by unfold placeOf; rw [if_pos (by unfold hbmTop; omega)]
    have rd : restoreLab.board.reduced = false := rfl
    simp [byteBad, c, sc, bs, pb, NMap.get?, leafFault, bigLeaf, placeFault, show Leaf.phys { page := 0, level := 2, pa := 0, w := true, sup := false, x := false, glob := false } b = b from ph, pl, rd]
  have e0 : va % 2 ^ 64 = va := by omega
  have e7 : (va + 8 - 1) % 2 ^ 64 = va + 7 := by omega
  have s0 := scr va h
  have s7 := scr (va + 7) (by omega)
  have pb : partBad restoreLab 1 0 true [(va / 65536, .ok bigLeaf)] ((onePart va 8).headD default) = none := by
    have e : ((onePart va 8).headD default).ends = [va, va + 7] := by show [va % 2 ^ 64, (va + 8 - 1) % 2 ^ 64] = _; rw [e0, e7]
    unfold partBad
    rw [e, if_neg (by show ¬ (8 = 0); decide), if_neg (by simp [s0, s7])]
    simp only [List.findSome?, b0 va h rfl, b0 (va + 7) (by omega) (by omega), show ((onePart va 8).headD default).va = va from rfl]
  have po : physOf 0 [(va / 65536, .ok bigLeaf)] va = some va := by
    have ph : bigLeaf.phys va = va := by show 0 + va % 2 ^ 30 = va; omega
    simp [physOf, s0, pg, NMap.get?, ph]
  have po' : restoreLab.poisoned va = false := by
    have : ∀ d, (restoreLab.die d).poison = [] := by intro d; rfl
    simp [State.poisoned, this]
  have pl : placeOf va ≠ .host := by unfold placeOf; rw [if_pos (by unfold hbmTop; omega)]; decide
  simp only [State.areaNat, pg, restoreLab_walk _ (show va / 65536 < 16384 by omega), pb, po, s0, po', pl, Bool.false_eq_true, false_and, or_self, if_false, Option.map_some, Option.isSome_some]

/-- A placed resumption whose save area is whole: its queue has room, and every dword of its area can be read. -/
theorem witness_ContextSwitchesComplete_restoreWhole :
    let g := { gang0 with ctx := 64, restore := some (0x100000, 64) }
    let s := restoreLab
    let len := 256 + 2048 * 1 + (1 * (104 * vlenb 0) + 8 * 524288 + 8 * 262400 + 64 * roundUp256 (winLen (BitVec.ofNat 64 (getBits 0x101 384 64))))
    s.gangs.get? 0 = some g ∧ g.members.length = 1 ∧ s.areaNat (Memory.dword s.mem 64).toNat 0x100000 32 = some 0x101 ∧ Nat.testBit 0x101 1 = false ∧
      (∀ k, k < 8 → Nat.testBit 0x101 (88 + k) = false) ∧ (∀ k, k < 8 → Nat.testBit 0x101 (96 + k) = false) ∧ Nat.testBit 0x101 104 = false ∧
      (s.core g.core).queue.length + s.savedParked (Memory.dword s.mem 64).toNat 0x100000 1 ≤ 32 ∧ (s.cluster (clusterOf g.core)).state = 0 ∧ s.linkWait (fun l => l < 8) = false ∧
      (Memory.dword s.mem 64).toNat < 2 ^ 47 ∧ 0x100000 + len ≤ 2 ^ 64 ∧
      (∀ k, 8 * k < len → (s.areaNat (Memory.dword s.mem 64).toNat (0x100000 + 8 * k) 1).isSome = true) := by
  have hr : (Memory.dword restoreLab.mem 64).toNat = 65536 := by decide +kernel
  have hl : 256 + 2048 * 1 + (1 * (104 * vlenb 0) + 8 * 524288 + 8 * 262400 + 64 * roundUp256 (winLen (BitVec.ofNat 64 (getBits 0x101 384 64)))) < 2 ^ 29 := by decide +kernel
  refine ⟨rfl, rfl, by decide +kernel, by decide, by decide, by decide, by decide, by decide +kernel, rfl, by decide, by decide +kernel, by omega, fun k hk => ?_⟩
  rw [hr]
  have hk' : 8 * k < 2 ^ 29 := Nat.lt_trans hk hl
  clear hk hl
  exact restoreLab_area _ (by omega) (by omega)
/-- The same of an area that holds scalar blocks only (VLOST = 1). -/
theorem witness_ContextSwitchesComplete_restoreLost :
    let g := { gang0 with ctx := 64, restore := some (0x100000, 64) }
    let s := { restoreLab with mem := mapped ++ [(0x100000, 3), (0x100001, 1)] }
    s.gangs.get? 0 = some g ∧ g.members.length = 1 ∧ s.areaNat (Memory.dword s.mem 64).toNat 0x100000 32 = some 0x103 ∧ Nat.testBit 0x103 1 = true ∧
      (∀ k, k < 8 → Nat.testBit 0x103 (96 + k) = false) ∧ (s.core g.core).queue.length + s.savedParked (Memory.dword s.mem 64).toNat 0x100000 1 ≤ 32 ∧
      (s.cluster (clusterOf g.core)).state = 0 ∧ s.linkWait (fun l => l < 8) = false ∧ (Memory.dword s.mem 64).toNat < 2 ^ 47 ∧
      (∀ k, 8 * k < 256 + 2048 * 1 → (s.areaNat (Memory.dword s.mem 64).toNat (0x100000 + 8 * k) 1).isSome = true) := by
  refine ⟨rfl, rfl, by decide +kernel, by decide, by decide, by decide +kernel, rfl, by decide, by decide +kernel, fun k hk => ?_⟩
  have : ∀ k, k < 288 → (State.areaNat { restoreLab with mem := mapped ++ [(0x100000, 3), (0x100001, 1)] } 65536 (0x100000 + 8 * k) 1).isSome = true := by decide +kernel
  exact this k (by omega)

def dieLab (f : Die → Die) : State := { State.reset with dies := [(7, f (State.reset.die 7))], now := 100000 }
def linkLab (f : DieLink → DieLink) : State := { State.reset with links := [(15, f (State.reset.link 15))], gangs := [(0, gang0)] }
def phaseLab (p : BitVec 4) : State := { State.reset with board := { State.reset.board with phase := p } }
theorem witness_BoardEventsComplete :
    hbmTop - 1 < hbmTop ∧
    ((∃ c, c < 32 ∧ ((dieLab fun x => { x with lastUse := [(1, 99999)] }).die 7).chanIdle 100000 c = true ∧
      ((dieLab fun x => { x with lastUse := [(1, 99999)] }).die 7).chanIdle 100000 (c ^^^ 1) = false) ∧ (State.reset.die 7).lend = true ∧ (State.reset.die 7).lent = 0 ∧ (State.reset.die 7).handshake = []) ∧
    (∀ k, k ∈ [1, 2] → ((dieLab fun x => { x with handshake := [(31, k)] }).die 7).handshake = [(31, k)]) ∧
    (let s := dieLab fun x => { x with lent := 1, lastUse := [(0, 99999)] }
     (s.die 7).lent.getLsbD 0 = true ∧ (s.die 7).handshake.has 0 = false ∧ (s.die 7).chanIdle s.now 0 = false) ∧
    (let s := dieLab fun x => { x with lent := 1 }
     (s.die 7).lent.getLsbD 0 = true ∧ (s.die 7).handshake.has 0 = false ∧ (s.die 7).chanIdle s.now 1 = true) ∧
    (∃ pa, pa < hbmTop ∧ homeDie pa = 7 ∧ homeChan pa = 0 ∧ ((dieLab fun x => { x with lent := 1 }).die 7).cached (lineOf pa) = false) ∧
    (((linkLab id).link 15).lost = false ∧ ((linkLab id).link 15).retraining = false ∧ ((linkLab id).link 15).mods ≠ 1 ∧ ((linkLab fun k => { k with mods := 1 }).link 15).mods = 1 ∧
      NMap.sorted (linkLab id).gangs = true ∧ gang0.resident = true ∧ ((linkLab fun k => { k with retraining := true }).link 15).retraining = true) ∧
    (∀ c, c = none ∨ c = some 4 → let s : State := { clusterLab (fun x => { x with stopAt := c }) with now := 4 }
      (s.cluster 7).stopAt = c ∧ (s.now = 4)) ∧
    Memory.wf State.reset.mem = true ∧ State.reset.ao.trip = false ∧ ({ State.reset.ao with trip := true }).trip = true ∧ (∀ p, p ∈ [2#4, 3#4, 4#4, 5#4] → (phaseLab p).board.phase = p) ∧ (State.reset.port 17).en = true ∧ (State.reset.port 17).state = 0 ∧
    State.reset.board.refClock = true ∧ ({ State.reset.board with refClock := false }).refClock = false := by
  refine ⟨by decide, ⟨⟨0, by decide, by decide, by decide⟩, by decide, by decide, by decide⟩, by decide, by decide, by decide, ⟨1792, by decide⟩, by decide, ?_, by decide, by decide, by decide, by decide, by decide, by decide, by decide, by decide⟩
  rintro c (rfl | rfl) <;> exact ⟨rfl, rfl⟩

def portLab (f : Port → Port) : State :=
  { State.reset with ports := [(17, f { State.reset.port 17 with state := 2 })], now := 8192, board := { State.reset.board with phase := 6, fxsize := 64, fxbase := 0x10000 } }
/-- The checksum of a flit depends on its first 252 bytes. -/
theorem crcBytes_mod : ∀ n x y c, x % 256 ^ n = y % 256 ^ n → crcBytes x n c = crcBytes y n c := by
  intro n
  induction n with
  | zero => intros; rfl
  | succ n ih =>
    intro x y c h
    rw [Nat.pow_succ, Nat.mul_comm, Nat.mod_mul, Nat.mod_mul] at h
    have h1 : x % 256 = y % 256 := by omega
    have h2 : x / 256 % 256 ^ n = y / 256 % 256 ^ n := by omega
    simp only [crcBytes, h1]
    exact ih _ _ _ h2
theorem crcBit_lt : ∀ n c, c < 2 ^ 32 → crcBit c n < 2 ^ 32 := by
  intro n
  induction n with
  | zero => intro c h; exact h
  | succ n ih =>
    intro c h
    simp only [crcBit]
    apply ih
    split
    · exact Nat.xor_lt_two_pow (by omega) (by decide)
    · omega
theorem crcBytes_lt : ∀ n x c, c < 2 ^ 32 → crcBytes x n c < 2 ^ 32 := by
  intro n
  induction n with
  | zero => intro x c h; exact h
  | succ n ih => intro x c h; exact ih _ _ (crcBit_lt _ _ (Nat.xor_lt_two_pow h (by omega)))
theorem crc_shift (k : Nat) : crc32c (k * 2 ^ 2016) 252 = crc32c 0 252 := by
  have e : (2 : Nat) ^ 2016 = 256 ^ 252 := by rw [show (256 : Nat) = 2 ^ 8 from rfl, ← Nat.pow_mul]
  have h : crcBytes (k * 256 ^ 252) 252 0xFFFFFFFF = crcBytes 0 252 0xFFFFFFFF := crcBytes_mod _ _ _ _ (by rw [Nat.mul_mod_left, Nat.zero_mod])
  rw [crc32c, crc32c, e, h]
theorem crc_lt (x : Nat) : crc32c x 252 < 2 ^ 32 := Nat.xor_lt_two_pow (crcBytes_lt _ _ _ (by decide)) (by decide)

theorem mul_lt_pow {a b c k : Nat} (h : k < 2 ^ a) (e : a + b = c) : k * 2 ^ b < 2 ^ c := by
  rw [← e, Nat.pow_add]; exact Nat.mul_lt_mul_of_pos_right h (Nat.pow_pos (by decide))

/-- A flit with a wrong checksum and one with the right one. -/
theorem witness_OutsideEventsComplete_flits : (∃ f, f < 2 ^ 2048 ∧ crc32c f 252 ≠ f / 2 ^ 2016) ∧
    (∃ f, f < 2 ^ 2048 ∧ crc32c f 252 = f / 2 ^ 2016 ∧ f % 4096 = ((portLab id).port 17).expect) := by
  have hp : ∀ k, k < 2 ^ 32 → k * 2 ^ 2016 < 2 ^ 2048 := fun k hk => mul_lt_pow hk (by decide)
  have hd : ∀ k, k * 2 ^ 2016 / 2 ^ 2016 = k := fun k => Nat.mul_div_cancel _ (Nat.pow_pos (by decide))
  refine ⟨?_, crc32c 0 252 * 2 ^ 2016, hp _ (crc_lt 0), by rw [crc_shift, hd], ?_⟩
  · by_cases h : crc32c 0 252 = 0
    · exact ⟨1 * 2 ^ 2016, hp 1 (by decide), by rw [crc_shift, hd, h]; decide⟩
    · exact ⟨0 * 2 ^ 2016, hp 0 (by decide), by rw [crc_shift, hd]; exact h⟩
  · have e : crc32c 0 252 * 2 ^ 2016 = 4096 * (crc32c 0 252 * 2 ^ 2004) := by
      rw [show (2 : Nat) ^ 2016 = 2 ^ 2004 * 4096 by rw [show (4096 : Nat) = 2 ^ 12 from rfl, ← Nat.pow_add]]; simp only [Nat.mul_comm, Nat.mul_left_comm, Nat.mul_assoc]
    rw [e, Nat.mul_mod_right]; rfl

theorem witness_OutsideEventsComplete :
    (let s := phaseLab 5
     s.hostOpen = true ∧ s.homeFree (hbmTop - 1) = true ∧ s.linkOpen [hbmTop - 1] = true ∧ s.linkOpen [hbmTop - 8] = true ∧ s.board.reduced = false ∧ s.resv = [] ∧ s.poisoned (hbmTop - 8) = false ∧ s.lastNow 64 (bytesOf (hbmTop - 8) 8 0) = true ∧ (s.marks.getD (hbmTop - 1) ⟨0, 0⟩).before (s.stampAt (hbmTop - 1)) 64 = true) ∧
    (State.reset.out.linkUp = true ∧ ({ State.reset.out with linkUp := false }).linkUp = false) ∧
    (((portLab id).port 17).up = true ∧ ((portLab id).port 17).unacked = []) ∧
    (let s := portLab fun p => { p with unacked := [(5, 62)] }
     (s.port 17).up = true ∧ (s.port 17).unacked = [(5, 62)] ∧ 5 ≠ 4 ∧ (∀ u ∈ (s.port 17).unacked, u.2 < 63) ∧ (s.port 17).sentAt + 8192 ≤ s.now) ∧
    (let s := portLab fun p => { p with unacked := [(4, 0), (5, 63)] }
     (s.port 17).up = true ∧ ∃ u ∈ (s.port 17).unacked, 63 ≤ u.2) ∧
    (∀ k, k ∈ [2#3, 3#3, 4#3] → ((portLab fun p => { p with state := k }).port 17).up = true ∧ ((portLab fun p => { p with state := k }).port 17).state = k) ∧
    (((portLab fun p => { p with state := 1, retraining := true, pending := 3 }).port 17).retraining = true ∧ (3#3 ≠ 2) ∧
      ((portLab id).port 17).since + 800000000 ≤ ({ portLab id with now := 800000000 } : State).now ∧ (portLab id).now < ((portLab id).port 17).since + 800000000) ∧
    ((portLab id).pkg.c4 = false ∧ (portLab id).linkOpen [(portLab id).board.fxbase.toNat + 56] = true ∧ 63 < (portLab id).board.fxsize.toNat ∧ (portLab id).board.fxbase.toNat + 56 + 8 ≤ hbmTop ∧ 56 % 64 ≤ 56 ∧ (portLab id).board.fxsize.toNat ≤ 64 ∧
      (portLab id).poisoned ((portLab id).board.fxbase.toNat + 56) = false ∧ (portLab id).arriveOpen (65 + 17) (bytesOf ((portLab id).board.fxbase.toNat + 56) 8 0) = true) ∧
    (State.reset.board.romOnly = false ∧ ({ State.reset.board with romOnly := true }).romOnly = true) := by
  refine ⟨by decide, by decide, by decide, by decide, by decide, by decide, by decide, by decide, by decide⟩

theorem witness_OutsideEventsComplete_more :
    (let s := farLab
     (s.port 0).state ≠ 5 ∧ (s.core 0).streams.get? 7 = some ((s.core 0).stream 7) ∧ ((s.core 0).stream 7).state = 2 ∧ ((s.core 0).stream 7).snap.fabric = true ∧
      ((s.core 0).stream 7).failKind = 0 ∧ s.strands.get? ((s.core 0).stream 7).issuer = some (labT s) ∧ ∃ e, s.portElem 0 ((s.core 0).stream 7) (labT s) 0 = some e) ∧
    (∀ k, k ∈ [2, 16] →
      let s := portLab id
      let n := if 14 ≤ k then 4 else 8
      (s.port 17).up = true ∧ s.board.phase = 6 ∧ s.pkg.c4 = false ∧ s.linkOpen [s.board.fxbase.toNat + 8] = true ∧ 8 % n = 0 ∧ 8 < s.board.fxsize.toNat ∧ s.board.fxbase.toNat + 8 + n ≤ hbmTop ∧
        s.poisoned (s.board.fxbase.toNat + 8) = false ∧ s.resv = [] ∧ s.lastNow (65 + 17) (bytesOf (s.board.fxbase.toNat + 8) n 0) = true) ∧
    0xFFF < 0x1000 := by
  refine ⟨⟨by decide, rfl, rfl, rfl, rfl, rfl, 3, by decide +kernel⟩, ?_, by decide⟩
  intro k h
  simp only [List.mem_cons, List.not_mem_nil, or_false] at h
  rcases h with rfl | rfl <;> decide +kernel

theorem witness_DecodeEncode : (Instr.mop ⟨3, 7, 0, 0, 24, 24, 7, 0, 7, 0, .third 127⟩).wf = true ∧ isEvent (Instr.mop ⟨3, 7, 0, 0, 24, 24, 7, 0, 7, 0, .third 127⟩) = false := by decide

theorem witness_StepRunsTheInstruction :
    (let s := lab (.add gop) 1 2 0
     s.plan = .fire 0 0 :: [] ∧ s.board.railsOn = true ∧ s.strands.get? 0 = some (labT s) ∧ (labT s).win = some (labW s) ∧ (labW s).blk.body[0]? = some 0x3F80C040 ∧
      decodeWord 0x3F80C040 = .ok (.add gop)) ∧ (∃ e, decodeWord 0 = .error e) ∧
    isEvent .packageReset = true ∧ isEvent (.blockStart 3) = true ∧ State.reset.plan = [] ∧ State.reset.board.railsOn = true ∧ Activity.tick 4 ≠ .event .packageReset :=
  ⟨⟨rfl, rfl, rfl, rfl, rfl, rfl⟩, ⟨.illegal, rfl⟩, by decide, by decide, rfl, rfl, by decide⟩

/-- Time waits for an instruction that is ready, and passes where nothing is. -/
theorem witness_StepRunsTheInstruction_tick : ((lab (.add gop) 1 2 0).updCore 0 fun k => { k with issue := none, ex := none }).pressing = true ∧ State.reset.pressing = false :=
  ⟨by decide +kernel, by decide +kernel⟩

theorem witness_StepKeepsMemoryForm : Memory.wf ({ phaseLab 5 with mem := mapped, plan := [.event (.hostPostedWrite 66 1 0)] }).mem = true ∧
    ∃ s', step { phaseLab 5 with mem := mapped, plan := [.event (.hostPostedWrite 66 1 0)] } = .next s' := ⟨by decide, _, rfl⟩

theorem witness_NothingCommitsBeforeTheBlock : isEvent (.add gop) = false ∧ ∃ s', exec (.add gop) (lab (.add gop) 1 2 0) = .next s' := ⟨by decide, _, rfl⟩

theorem witness_MzeroZeroes :
    (∀ sh, sh = none ∨ sh = some sh32 → Fires (.mzero (tileOp 0)) (tileLab (.mzero (tileOp 0)) sh fwF32) ∧
      (tileLab (.mzero (tileOp 0)) sh fwF32).shapeFor 0 (labW (tileLab (.mzero (tileOp 0)) sh fwF32)) 0 2 = sh) ∧
    (cellOp 1).op = 1 ∧ (filled (cellOp 1)).clocked 0 = true ∧ ((filled (cellOp 1)).core 0).plane.stepping (filled (cellOp 1)).now = false ∧ (filled (cellOp 1)).planeReady 0 = some (0, labT (filled (cellOp 1)), cellOp 1) := by
  refine ⟨?_, by decide, by decide, by decide, by rfl⟩
  rintro sh (rfl | rfl) <;> exact ⟨fires_lab (by decide) rfl, by decide⟩

/-- A test machine whose lane pipe is empty. -/
def frontLab (s : State) : State := s.updCore 0 fun k => { k with ex := none }
theorem frontLab_ex (s : State) : ∀ e, ((frontLab s).core 0).ex = some e → False := by
  intro e h
  simp only [frontLab, State.core, State.updCore, NMap.getD, NMap.get?_put_self] at h
  cases h
/-- Nulled forms of the other classes: bit counts, stores, atomics, scopes, posting, control, supervisor, window and stream forms, lane and tile forms. -/
theorem witness_NullOperands_classes : ∀ i, i ∈ [Instr.clz gop, .stb mop, .stqd mop, .aadd (aop 3), .scopeSet (aop 1), .sleep gop, .ctlRd gop, .tlbInv gop, .ctxLoad gop, .vawin gop, .vlset gop,
      .spawn gop, .cpsCfg cop_, .vadds vop, .vshls vop, .vld vmop, .vldseg vmop, .vsc vmop, .mld (tileOp 0), .vext vxop] →
    FiresNull i (frontLab (labTok i .null .null .null)) ∧ isEvent i = false ∧ (∀ e, ((frontLab (labTok i .null .null .null)).core 0).ex = some e → False) := by
  intro i h
  refine ⟨?_, ?_, frontLab_ex _⟩ <;> simp only [List.mem_cons, List.not_mem_nil, or_false] at h <;>
    rcases h with rfl | rfl | rfl | rfl | rfl | rfl | rfl | rfl | rfl | rfl | rfl | rfl | rfl | rfl | rfl | rfl | rfl | rfl | rfl | rfl <;>
    decide

/-- `probed` as a check that can be run. -/
def probedB (s : State) (a : Access) : Bool :=
  (s.strands.get? 0).isSome && (labT s).win.isSome && (labW s).accs.get? 0 == some a && a.phase == .probing && (labW s).fault.isNone && s.clocked (coreOf 0) &&
  (partPages a.parts).all a.xl.has && a.parts.all fun p => (partBad s a.place a.acc (labT s).sup a.xl p).isNone
theorem probed_lab {s : State} {a : Access} (h : probedB s a = true) : s.probed 0 0 (labT s) (labW s) a := by
  simp only [probedB, Bool.and_eq_true, beq_iff_eq, Option.isNone_iff_eq_none, List.all_eq_true, Option.isSome_iff_exists] at h
  obtain ⟨⟨⟨⟨⟨⟨⟨⟨t, ht⟩, ⟨w, hw⟩⟩, h3⟩, h4⟩, h5⟩, h6⟩, h7⟩, h8⟩ := h
  have et : labT s = t := by simp [labT, ht]
  have ew : labW s = w := by rw [et] at hw; simp [labW, et, hw]
  exact ⟨by rw [et]; exact ht, by rw [ew]; exact hw, h3, h4, h5, h6, h7, h8⟩
/-- An access of one part of the scratchpad whose probe is under way. -/
def spProbe (acc place size : Nat) : Access := .new 31 acc place [{ key := 0, va := spBase, bit := 0, w := 8 * size, size := size }]
noncomputable def probeLab (i : Instr) (acc place size : Nat) : State := withAcc (vmLab i spBase 0) (spProbe acc place size)
theorem witness_ProbesComplete_kinds :
    (let s := probeLab (.vld vmop) 0 1 4
     s.probed 0 0 (labT s) (labW s) (spProbe 0 1 4) ∧ (∃ op xop, (labW s).view 0 = some (.vm op xop vmop) ∧ ¬(op = 0x2E ∧ xop = 3)) ∧ (labW s).atomicOver 31 [spPhys 0 0] = false ∧
      (labW s).tileOver 0 31 [spPhys 0 0] = false) ∧
    (∀ i x, i = .std mop ∧ x = 3 ∨ i = .stqw mop ∧ x = 5 ∨ i = .stqd mop ∧ x = 6 →
     let s := probeLab i 1 0 8
     s.probed 0 0 (labT s) (labW s) (spProbe 1 0 8) ∧ (labW s).view 0 = some (.mem 0x1A x mop) ∧ (labT s).pinCheck (accessPins [] (spProbe 1 0 8).parts) = .fits) ∧
    (let s := probeLab (.vst vmop) 1 1 4
     s.probed 0 0 (labT s) (labW s) (spProbe 1 1 4) ∧ (∃ op xop, (labW s).view 0 = some (.vm op xop vmop) ∧ ¬(op = 0x2E ∧ xop = 1)) ∧
      (labT s).pinCheck (accessPins [] (spProbe 1 1 4).parts) = .fits) ∧
    (let s := probeLab (.vsc vmop) 1 2 4
     s.probed 0 0 (labT s) (labW s) (spProbe 1 2 4) ∧ (labW s).view 0 = some (.vm 0x2E 1 vmop) ∧ (labT s).pinCheck (accessPins [] (spProbe 1 2 4).parts) = .fits) ∧
    (let s := (probeLab (.aadd (aop 3)) 3 17 8).updWin 0 fun w => { w with posts := [(0, .atomic 31 0 8 0 spBase 1 0 (some 3) (entry 1 true) [])] }
     s.probed 0 0 (labT s) (labW s) (spProbe 3 17 8) ∧ (labW s).view 0 = some (.amo 0x1B 0 (aop 3)) ∧ (aop 3).t0 = .reg 3 ∧
      (labW s).posts.get? 0 = some (.atomic 31 0 8 0 spBase 1 0 (some 3) (entry 1 true) []) ∧ (labT s).pinCheck (accessPins [] (spProbe 3 17 8).parts) = .fits ∧
      physOf 0 [] spBase = some (spPhys 0 0) ∧ s.noRoute (spPhys 0 0) = false ∧ (labW s).loadOver 0 31 (fun b => spPhys 0 0 ≤ b && b < spPhys 0 0 + 8) = none) ∧
    (let s := probeLab (.vwait vmop) 0 1 1
     s.probed 0 0 (labT s) (labW s) (spProbe 0 1 1) ∧ (labW s).view 0 = some (.vm 0x2E 3 vmop)) := by
  refine ⟨⟨probed_lab (by decide +kernel), ⟨_, _, rfl, by decide⟩, by decide +kernel, by decide +kernel⟩, ?_, ⟨probed_lab (by decide +kernel), ⟨_, _, rfl, by decide⟩, by decide +kernel⟩,
    ⟨probed_lab (by decide +kernel), rfl, by decide +kernel⟩, ⟨probed_lab (by decide +kernel), rfl, rfl, rfl, by decide +kernel, by decide, by decide +kernel, by decide +kernel⟩,
    probed_lab (by decide +kernel), rfl⟩
  rintro i x (⟨rfl, rfl⟩ | ⟨rfl, rfl⟩ | ⟨rfl, rfl⟩) <;> exact ⟨probed_lab (by decide +kernel), rfl, by decide +kernel⟩

/-- The other answers of `ctx.save`, and `ctx.load` of a gang that is listed and not resident. -/
theorem witness_SupervisorForms_more :
    (∀ g x, (g = { gang0 with save := some ⟨0, false, false⟩ } ∧ x = { (default : Context) with sasize := 0x1000000 }) ∨ (g = gang0 ∧ x = { (default : Context) with sasize := 0x1000000, broken := true }) ∨
        (g = gang0 ∧ x = { (default : Context) with sasize := 0, broken := false }) →
      let s := { asSup (lab (.ctxSave gop) 5 0 0) with gangs := [(5, g)], contexts := [(0, x)] }
      Fires (.ctxSave gop) s ∧ s.gangs.get? 5 = some g ∧ g.resident = true ∧ s.contexts.get? g.ctx = some x ∧ (x.sasize = 0 → x.sasize.toNat < s.saveSize 5 g false)) ∧
    (let s := { withSp (asSup (lab (.ctxLoad gop) (BitVec.ofNat 64 spBase) 0 0)) [(0, 1), (1, 1), (8, 9)] with gangs := [(9, { gang0 with resident := false })] }
     Fires (.ctxLoad gop) s ∧ s.readOpen 0 (labT s) (s.left (labW s)).toNat 256 = true ∧ s.readFor 0 (labT s) (labW s) [] (s.left (labW s)).toNat 256 = 0x101 + 9 * 2 ^ 64 ∧
      ∀ g, s.gangs.get? 9 = some g → g.resident = false) := by
  refine ⟨?_, fires_lab (by decide) rfl, by decide +kernel, by decide +kernel, ?_⟩
  · rintro g x (⟨rfl, rfl⟩ | ⟨rfl, rfl⟩ | ⟨rfl, rfl⟩) <;> exact ⟨fires_lab (by decide) rfl, rfl, rfl, rfl, by decide +kernel⟩
  · intro g h; cases (show some _ = some g from h); rfl

/-- A `spawn` whose DONE at 8192 lies in a page that the L1 TLB holds; one whose DONE lies in the scratchpad. -/
noncomputable def spawnFrom (sup : Bool) (bs : List (Nat × Byte)) : State :=
  let s := (withSp (lab (.spawn gop) (BitVec.ofNat 64 spBase) 0 0) bs).updCore 0 fun k => { k with tlb := [{ asid := 0, leaf := { page := 0, level := 0, pa := 0, w := true, sup := false, x := false, glob := false } }] }
  if sup then asSup s else s
theorem witness_SpawnAndWindowForms_done :
    (∀ sup bs, bs = [(25, 0x20#8)] ∨ bs = [(25, 0x20#8), (36, 0x80#8)] →
      let s := spawnFrom sup bs
      Fires (.spawn gop) s ∧ s.readOpen 0 (labT s) (s.left (labW s)).toNat 64 = true ∧ (labT s).sup = sup ∧
        (startRecOf (s.readFor 0 (labT s) (labW s) [] (s.left (labW s)).toNat 64)).super = decide (bs.length = 2) ∧
        (startRecOf (s.readFor 0 (labT s) (labW s) [] (s.left (labW s)).toNat 64)).done = 0x2000 ∧
        ((s.didFire.hasRead (s.left (labW s)).toNat 64).doneBad 0 (labT s).asid (labT s).ctx (labT s).sup 0x2000).1 = none ∧
        (s.didFire.hasRead (s.left (labW s)).toNat 64).lookup 0 0 0 ≠ none) ∧
    (let x := startRecOf (spBase * 2 ^ 192); spBase ≤ x.done.toNat ∧ x.done.toNat < spBase + spSize) := by
  refine ⟨?_, by decide⟩
  rintro sup bs (rfl | rfl) <;> cases sup <;> exact ⟨fires_lab (by decide) rfl, by decide +kernel, by decide, by decide +kernel, by decide +kernel, by decide +kernel, by decide +kernel⟩

theorem witness_VectorArithmetic_more :
    (∃ f, ElemForm (.vcvt vop) vop false (fun e => rounds e.f1 e.fd) f) ∧ Executes (.vcvt vop) (withVec (lab (.vcvt vop) 0 0 0) 2 0x840081) ∧
    (∃ d f, ElemForm (.vbcast vop) vop true d f) ∧ Executes (.vbcast vop) (withVec (lab (.vbcast vop) 5 0 0) 2 fwF32) ∧
    ReduceForm (.vrosum vop) vop true rosumOf ∧ Executes (.vrosum vop) (withVec (lab (.vrosum vop) 5 0 0) 2 fwF32) ∧
    (∀ n fw, n ∈ [0#22, 2] → fw ∈ [fwF32, 0x5F5F5F] →
      let e := vEnv (labT (withVec vlab n fw)) (labW (withVec vlab n fw)) 0 (Instr.vadd vop).view vop none
      e.actives = (if n = 0 then [] else [0, 1]) ∧ e.f1.isInt = decide (fw = 0x5F5F5F) ∧ fwFrnd e.fw ≠ 5) := by
  refine ⟨⟨_, .vcvt _⟩, executes_lab (by decide), ⟨_, _, .vbcast _⟩, executes_lab (by decide), .vrosum _, executes_lab (by decide), ?_⟩
  intro n fw hn hf
  simp only [List.mem_cons, List.not_mem_nil, or_false] at hn hf
  rcases hn with rfl | rfl <;> rcases hf with rfl | rfl <;> decide +kernel

theorem witness_ElementsOfADestination_vcvtmx :
    let s := withVec (lab (.vcvtmx vop) 0 0 0) 33 0x908181
    let e := vEnv (labT s) (labW s) 0 (Instr.vcvtmx vop).view vop none
    Executes (.vcvtmx vop) s ∧ fwFrnd e.fw ≠ 5 ∧ 0 < e.fd.width ∧ e.n * e.fd.width ≤ 8 * e.vb * fwGroup e.fw ∧ 32 < e.n ∧ e.mask.testBit 32 = true :=
  ⟨executes_lab (by decide), by decide +kernel, by decide +kernel, by decide +kernel, by decide +kernel, by decide +kernel⟩

theorem witness_VectorBitwise_moves :
    (∃ f, MoveForm (.vperm vop) vop f) ∧
    (∀ i, i = .vperm vop ∨ i = .vcompress vop →
      let s := withVec (lab i 0 0 0) 2 0x1F1F1F
      let e := vEnv (labT s) (labW s) 0 i.view vop none
      Executes i s ∧ 0 < e.fd.width ∧ e.n * e.fd.width ≤ 8 * e.vb * fwGroup e.fw ∧ 1 < e.n ∧ e.mask.testBit 1 = true) ∧
    (∀ j, j ∈ [1#64, 2] →
      let s := withVec (lab (.vins vop) 7 j 0) 2 0x1F1F1F
      let e := vEnv (labT s) (labW s) 0 (Instr.vins vop).view vop none
      Executes (.vins vop) s ∧ 0 < e.fd.width ∧ (s.right (labW s)).toNat = j.toNat ∧ decide (j.toNat < e.n) = decide (j = 1)) := by
  refine ⟨⟨_, .vperm _⟩, ?_, ?_⟩
  · rintro i (rfl | rfl) <;> exact ⟨executes_lab (by decide), by decide +kernel, by decide +kernel, by decide +kernel, by decide +kernel⟩
  · intro j h
    simp only [List.mem_cons, List.not_mem_nil, or_false] at h
    rcases h with rfl | rfl <;> exact ⟨executes_lab (by decide), by decide +kernel, by decide +kernel, by decide +kernel⟩

theorem witness_MaskResults_mfromv :
    let s := withVec (lab (.mfromv vop) 0 0 0) 2 fwF32
    Executes (.mfromv vop) s ∧ noWriterBetween (labW s).m vop.vd.toNat s.cursor.idx 1 ∧
      1 < (labW s).countOf (labT s) (Instr.mfromv vop).view ((labT s).fw (Instr.mfromv vop).view) (labT s).vb ∧ 1 < 64 * (labT s).vb ∧ vop.vd ≠ 0 :=
  ⟨executes_lab (by decide), noWriter_nil (by decide) (by decide), by decide +kernel, by decide +kernel, by decide +kernel⟩

/-- A misaligned stride over aligned elements; a form with no active element. -/
theorem witness_VectorAccessesComplete_stride :
    (Executes (.vlds vmop) (vmLab (.vlds vmop) spBase (2 ^ 62 + 2)) ∧ (vmEnv (.vlds vmop) spBase 2 false).actives = [0, 1] ∧ 2 % 4 ≠ 0 ∧
      Executes (.vlds vmop) (withVec (vmLab (.vlds vmop) spBase 2) 1 fwF32) ∧
      ((withVec (vmLab (.vlds vmop) spBase 2) 1 fwF32).mEnvOf (.vlds vmop) vmop false (labT (withVec (vmLab (.vlds vmop) spBase 2) 1 fwF32))
        (labW (withVec (vmLab (.vlds vmop) spBase 2) 1 fwF32))).actives = [0]) ∧
    (∀ i, i = .vld vmop ∨ i = .vlds vmop ∨ i = .vldmx vmop →
      let s := withVec (vmLab i (spBase + 1) 0) 0 fwF32
      Executes i s ∧ (s.mEnvOf i vmop false (labT s) (labW s)).actives = []) := by
  refine ⟨⟨executes_lab (by decide), by decide +kernel, by decide, executes_lab (by decide), by decide +kernel⟩, ?_⟩
  rintro i (rfl | rfl | rfl) <;> exact ⟨executes_lab (by decide), by decide +kernel⟩

/-- The window of a `vacc`: of a `vawin` of its block, of its gang, and none. -/
theorem witness_OtherVectorAccessesComplete_window :
    (let s := (vmLab (.vacc vmop) 0 0).updWin 0 fun w => { w with posts := [(0, .vawin 5 0 winDesc)] }
     ({ s with cursor := ⟨0, 1⟩ } : State).givesWindow (labT s) (labW s) 5 winDesc) ∧
    (let s := withWindow (vmLab (.vacc vmop) 0 0) false
     Executes (.vacc vmop) s ∧ s.givesWindow (labT s) (labW s) (win0 false).id winDesc) ∧
    (let s := vmLab (.vacc vmop) 0 0
     Executes (.vacc vmop) s ∧ (labW s).noVawin s.cursor.idx ∧ ∀ x, (s.core 0).accWin = some x → x.gang ≠ (labT s).gang ∨ x.closed = true) := by
  refine ⟨.inl ⟨0, 0, List.mem_singleton.2 rfl, by decide, fun kv h _ _ => List.mem_singleton.1 h⟩, ⟨executes_lab (by decide), .inr ⟨?_, _, rfl, by decide +kernel, rfl, rfl, rfl⟩⟩, executes_lab (by decide), ?_, ?_⟩
  · intro kv h; exact absurd h (by rw [show (labW (withWindow (vmLab (.vacc vmop) 0 0) false)).posts = [] from rfl]; exact List.not_mem_nil)
  · intro kv h; exact absurd h (by rw [show (labW (vmLab (.vacc vmop) 0 0)).posts = [] from rfl]; exact List.not_mem_nil)
  · intro x h; exact nomatch (show (none : Option AccWin) = some x from h)

/-- The other loads that come to the lanes: a segment, a fault-only-first, an MX load with the scale of its block, a counted stream load, a gather with links. -/
theorem witness_VectorLoadsReturn_kinds :
    (∀ i op x, (i = .vldseg vmop ∧ op = 0x2C ∧ x = 3) ∨ (i = .vldff vmop ∧ op = 0x2C ∧ x = 4) ∨ (i = .vldmx vmop ∧ op = 0x2C ∧ x = 6) ∨ (i = .vldcs vmop ∧ op = 0x2C ∧ x = 7) ∨
        (i = .vgl vmop ∧ op = 0x2E ∧ x = 0) →
      let a := { vAcc with segs := [] }
      let s := { (withAcc (vmLab i spBase 0) a).updWin 0 (fun w => { w with counts := [(0, 1)] }) with now := 4 }
      s.strands.get? 0 = some (labT s) ∧ (labT s).win = some (labW s) ∧ (labW s).accs.get? 0 = some a ∧ (labW s).view 0 = some (.vm op x vmop) ∧ (labW s).uncounted 0 = false ∧
        (labW s).fault = none ∧ (labW s).lowerResolved a.lsid = true ∧ fencesHoldLoad (labT s) (labW s) a.lsid = false ∧ s.crossedTo true a.sent (a.places (coreOf 0)) a.route = true ∧
        s.clocked (coreOf 0) = true ∧ (s.core (coreOf 0)).lanesStand s.now = true ∧ NMap.sorted (labW s).v = true ∧ NMap.sorted (labW s).scl = true ∧
        vmop.vd.toNat + vmop.vi.toNat < 32 ∧ noWriterBetween (labW s).v (vmop.vd.toNat + 1) 0 1 ∧ noWriterBetween (labW s).scl (vmop.vi.toNat % 8) 0 1 ∧ 0 < (a.n + 31) / 32) ∧
    (let s := { withAcc (vmLab (.vgl vmop) spBase 0) vAcc with now := 4 }
     ∀ b ∈ vAcc.bytesIn 0 (spPhys 0 0 / 64), s.linkRead (labW s) vAcc b.2 (s.homeByte b.2)) := by
  refine ⟨?_, ?_⟩
  · rintro i op x (⟨rfl, rfl, rfl⟩ | ⟨rfl, rfl, rfl⟩ | ⟨rfl, rfl, rfl⟩ | ⟨rfl, rfl, rfl⟩ | ⟨rfl, rfl, rfl⟩) <;>
      exact ⟨rfl, rfl, rfl, rfl, by decide, rfl, by decide, by decide, by decide, by decide, by decide, rfl, rfl, by decide, noWriter_nil (by decide) (by decide),
        noWriter_nil (by decide) (by decide), by decide⟩
  · intro s b hb
    have h : ∀ b ∈ vAcc.bytesIn 0 (spPhys 0 0 / 64), placeOf b.2 ≠ .host := by decide
    exact ⟨rfl, rfl, rfl, rfl, by revert b; decide, by revert b; decide, fun e => absurd e (h b hb), by revert b; decide, rfl⟩
/-- A walk that ends with a leaf, and one that fails. -/
theorem witness_SharedUnitEventsComplete_walks :
    (let s : State := { restoreLab with walks := [(4, { asid := 0, root := 65536, page := 1, cores := [0] })] }
     s.walks.get? 4 = some { asid := 0, root := 65536, page := 1, cores := [0] } ∧ s.linkWait (· == tlbDie 1) = false ∧ s.linkOpen (walkPath s.mem 1 3 65536) = true ∧ s.walk 65536 1 = .ok bigLeaf) ∧
    (let s : State := { withAcc (lab (.ldd mop) 0 0 0) { (Access.new 31 0 0 [{ key := 0, va := 65536, bit := 0, w := 64, size := 8 }]) with phase := .probing } with
       walks := [(4, { asid := 0, root := 0, page := 1, cores := [0] })] }
     s.walks.get? 4 = some { asid := 0, root := 0, page := 1, cores := [0] } ∧ s.linkWait (· == tlbDie 1) = false ∧ s.linkOpen (walkPath s.mem 1 3 0) = true ∧ ∀ l, s.walk 0 1 ≠ .ok l) := by
  refine ⟨⟨rfl, by decide, by decide +kernel, restoreLab_walk 1 (by decide)⟩, rfl, by decide, by decide +kernel, ?_⟩
  have h : ∀ x : XRes, (match x with | .ok _ => false | _ => true) = true → ∀ l, x ≠ .ok l := by
    intro x hx l e; rw [e] at hx; cases hx
  exact h _ (by decide +kernel)
end Sys2Proof.Tests
end

/-! SUPPORT. Every step keeps memory in its canonical form. Bytes of memory change in three ways only: a byte of a write lands in coherence order
(`State.coherent`, R245), a core clears its scratchpad (`State.ownCore`, R313), and a reset keeps nothing but what lies outside the package
(`hardTrip`, `State.packageResetOf`, R346, R365). Each keeps the form. Every other operation leaves the bytes as they were: one frame lemma for each
operation says so, and `exec_mem` says it of every instruction and of every event that is not one of `mayWrite`. -/

namespace Sys2Proof.Machine

open Sys2Proof

/-! ### What leaves memory as it was -/

/-- An event that, when it happens, leaves these bytes in memory. -/
structure SameMem (m : List Host.Cell) (o : Option State) : Prop where
  mem_eq : ∀ s ∈ o, s.mem = m

@[simp] theorem sameMem_none (m : List Host.Cell) : SameMem m none := ⟨by simp⟩
@[simp] theorem sameMem_some (m : List Host.Cell) (s : State) :
    SameMem m (some s) ↔ s.mem = m := ⟨fun h => h.mem_eq s rfl, fun h => ⟨by simpa using h⟩⟩
@[simp] theorem sameMem_map {α : Type} (m : List Host.Cell) (o : Option α) (f : α → State) : SameMem m (o.map f) ↔ ∀ a ∈ o, (f a).mem = m := by
  cases o <;> simp
theorem SameMem.of_eq {m m' : List Host.Cell} {o : Option State} (h : SameMem m o) (e : m = m') : SameMem m' o := e ▸ h
@[simp] theorem sameMem_ite (m : List Host.Cell) (c : Prop) [Decidable c] (o p : Option State) :
    SameMem m (if c then o else p) ↔ (c → SameMem m o) ∧ (¬c → SameMem m p) := by split <;> simp_all
@[simp] theorem ite_mem (c : Prop) [Decidable c] (s t : State) : (if c then s else t).mem = if c then s.mem else t.mem := apply_ite State.mem c s t

@[simp] theorem getD_mem {s : State} {o : Option State} (h : SameMem s.mem o) : (o.getD s).mem = s.mem := by
  cases o <;> simp_all

/-- A body over states, of a loop or of an instruction, that leaves memory as it was. -/
def KeepsMem {α : Type} (f : State → α → State) : Prop := ∀ s a, (f s a).mem = s.mem
@[simp] theorem keepsMem_iff {α : Type} (f : State → α → State) : KeepsMem f ↔ ∀ s a, (f s a).mem = s.mem := by simp [KeepsMem]

@[simp] theorem foldl_mem {α : Type} {f : State → α → State} (l : List α) (s : State) (h : KeepsMem f) : (l.foldl f s).mem = s.mem := by
  induction l generalizing s with
  | nil => rfl
  | cons a l ih => rw [List.foldl_cons, ih, h]
/-- The same of a loop that carries something beside the state. -/
theorem foldl_fst_mem {α β : Type} {f : State × β → α → State × β} (h : ∀ x a, (f x a).1.mem = x.1.mem) (l : List α) (x : State × β) :
    (l.foldl f x).1.mem = x.1.mem := by
  induction l generalizing x with
  | nil => rfl
  | cons a l ih => rw [List.foldl_cons, ih, h]

/-! ### The frame of each operation that writes no memory, in the order of the model -/

section
variable (s : State)

/-! Machine/Mem -/

@[simp] theorem State.touchL2_mem (pa : Nat) : (s.touchL2 pa).mem = s.mem := by simp [State.touchL2]
@[simp] theorem State.afterWrite_mem (port : Nat) (writer : Option Nat) (bytes late : NMap BByte) :
    (s.afterWrite port writer bytes late).mem = s.mem := by simp [State.afterWrite]

/-! Machine/Ops -/

@[simp] theorem State.updStream_mem (c k : Nat) (f : Stream → Stream) : (s.updStream c k f).mem = s.mem := rfl
@[simp] theorem State.updTile_mem (c k : Nat) (f : Tile → Tile) : (s.updTile c k f).mem = s.mem := rfl
@[simp] theorem State.raise_mem (sid kind sub index vaddr info : Nat) (info2 : Nat) : (s.raise sid kind sub index vaddr info info2).mem = s.mem := rfl
@[simp] theorem State.fresh_mem : s.fresh.2.mem = s.mem := rfl
@[simp] theorem State.undef_mem (w : Nat) : (s.undef w).2.mem = s.mem := rfl
@[simp] theorem State.takeTrap_mem (sid : Nat) (f : FaultRec) (block : Dword) (rpl : Bool) :
    (s.takeTrap sid f block rpl).mem = s.mem := by unfold State.takeTrap; split <;> simp
@[simp] theorem State.notice_mem (core : Nat) (r : TrapRec) : (s.notice core r).mem = s.mem := rfl
@[simp] theorem State.stopGang_mem (gid : Nat) (on : Bool) : (s.stopGang gid on).mem = s.mem := rfl
@[simp] theorem State.fatal_mem (gid core sub : Nat) (pa : Nat) : (s.fatal gid core sub pa).mem = s.mem := by unfold State.fatal; split <;> rfl
@[simp] theorem State.abortBlock_mem (sid : Nat) : (s.abortBlock sid).mem = s.mem := by unfold State.abortBlock; split <;> simp
@[simp] theorem State.faultBlock_mem (sid : Nat) (f : FaultRec) : (s.faultBlock sid f).mem = s.mem := by unfold State.faultBlock; split <;> simp
@[simp] theorem State.resumeAt_mem (sid : Nat) (block : Dword) : (s.resumeAt sid block).mem = s.mem := rfl
@[simp] theorem State.notify_mem (bit : Nat) : (s.notify bit).mem = s.mem := rfl
@[simp] theorem State.msix_mem (vec : Nat) : (s.msix vec).mem = s.mem := by simp [State.msix]

/-! Machine/Operands -/

@[simp] theorem State.nullInstr_mem (c : Ctx) (v : View) : (s.nullInstr c v).mem = s.mem := rfl
@[simp] theorem State.give_mem (c : Ctx) (v : View) (x : Tok) : (s.give c v x).mem = s.mem := rfl
@[simp] theorem State.nullOnly_mem (v : View) : (s.nullOnly v).mem = s.mem := by unfold State.nullOnly; split <;> simp

/-! Machine/Translate -/

@[simp] theorem State.meetError_mem (pa : Nat) : (s.meetError pa).mem = s.mem := rfl
@[simp] theorem State.walked_mem (r : XRes) : (s.walked r).mem = s.mem := by unfold State.walked; split <;> rfl
@[simp] theorem State.fillTlb_mem (core asid page : Nat) (leaf : Leaf) : (s.fillTlb core asid page leaf).mem = s.mem := rfl
@[simp] theorem State.xlate_mem (core asid root page : Nat) : (s.xlate core asid root page).2.mem = s.mem := by fun_cases State.xlate <;> simp
@[simp] theorem State.xlateAll_mem (core asid root : Nat) (ps : List Nat) (xl : NMap XRes) : (s.xlateAll core asid root ps xl).2.mem = s.mem := by
  induction ps generalizing s xl with
  | nil => rfl
  | cons p ps ih => rw [State.xlateAll, ih, State.xlate_mem]
@[simp] theorem State.probeNow_mem (core : Nat) (asid : BitVec 16) (ctx place acc : Nat) (sup : Bool) (ps : List Part) :
    (s.probeNow core asid ctx place acc sup ps).2.2.mem = s.mem := by simp [State.probeNow]
@[simp] theorem State.startWalk_mem (core : Nat) (asid : BitVec 16) (root : Dword) (page : Nat) :
    (s.startWalk core asid root page).mem = s.mem := by unfold State.startWalk; split <;> simp
@[simp] theorem tlbWalkComplete_mem (k : Nat) : SameMem s.mem (tlbWalkComplete k s) := by
  rw [tlbWalkComplete, sameMem_map]
  intro w _
  dsimp only
  split <;> simp

/-! Machine/Access -/

@[simp] theorem State.saw_mem (sid q : Nat) (pas : List Nat) : (s.saw sid q pas).mem = s.mem := rfl
@[simp] theorem State.fillL1_mem (core : Nat) (lines : List Nat) : (s.fillL1 core lines).mem = s.mem := by simp [State.fillL1]
@[simp] theorem State.fillGather_mem (core : Nat) (tag : Nat × Nat) (pas : List Nat) :
    (s.fillGather core tag pas).mem = s.mem := by simp [State.fillGather]
@[simp] theorem State.sendFlit_mem (pa : Nat) : (s.sendFlit pa).mem = s.mem := by unfold State.sendFlit; split <;> rfl
@[simp] theorem State.loseOthers_mem (sid line : Nat) : (s.loseOthers sid line).mem = s.mem := rfl
@[simp] theorem State.vscTake_mem (sid idx : Nat) (t : Strand) (w : Window) (a : Access) (msk : Nat) :
    (s.vscTake sid idx t w a msk).1.mem = s.mem := by
  simp only [State.vscTake, State.updWin_mem]
  refine foldl_fst_mem (fun x p => ?_) _ _
  split
  · split <;> simp
  · rfl
@[simp] theorem State.armWatches_mem (sid idx : Nat) (a : Access) : (s.armWatches sid idx a).mem = s.mem := rfl
@[simp] theorem State.probePassed_mem (sid idx : Nat) (w : Window) (a : Access) : (s.probePassed sid idx w a).mem = s.mem := by
  simp only [State.probePassed]
  repeat' split
  all_goals simp
@[simp] theorem State.probeChecked_mem (sid idx : Nat) (t : Strand) (w : Window) (a : Access) : SameMem s.mem (s.probeChecked sid idx t w a) := by
  simp only [State.probeChecked]
  repeat' split
  all_goals simp
@[simp] theorem scalarProbeComplete_mem (sid idx : Nat) : SameMem s.mem (scalarProbeComplete sid idx s) := by
  simp only [scalarProbeComplete]
  split
  · exact sameMem_none _
  split
  · exact sameMem_none _
  split
  · exact sameMem_none _
  split
  · exact sameMem_none _
  split
  · exact (State.probeChecked_mem ..).of_eq (by simp)
  split
  · exact sameMem_none _
  · simp
@[simp] theorem State.loadDone_mem (sid idx : Nat) (t : Strand) (a : Access) : (s.loadDone sid idx t a).mem = s.mem := rfl
@[simp] theorem State.loadArrive_mem (sid idx : Nat) (t : Strand) (w : Window) (a : Access) :
    SameMem s.mem (s.loadArrive sid idx t w a) := by simp [State.loadArrive]
@[simp] theorem State.loadSegment_mem (sid idx k : Nat) (t : Strand) (w : Window) (a : Access) (bs : List (Nat × Nat)) (vgl : Bool) :
    (s.loadSegment sid idx k t w a bs vgl).mem = s.mem := by
  simp only [State.loadSegment, State.updWin_mem, State.updStrand_mem, ite_mem]
  cases a.gath with
  | none => simp
  | some st => simp
@[simp] theorem readAhead_mem (sid : Nat) (lines : List Nat) : SameMem s.mem (readAhead sid lines s) := by
  simp only [readAhead]
  repeat' split
  all_goals simp
@[simp] theorem loadDataReturn_mem (sid idx k : Nat) : SameMem s.mem (loadDataReturn sid idx k s) := by
  simp only [loadDataReturn]
  repeat' split
  all_goals simp

/-! Machine/Vector -/

@[simp] theorem State.laneToken_mem (c : Ctx) (x : Tok) : (s.laneToken c x).mem = s.mem := rfl

/-! Machine/Counts -/

@[simp] theorem State.fixVldcs_mem (sid idx : Nat) : (s.fixVldcs sid idx).mem = s.mem := by
  simp only [State.fixVldcs]
  repeat' split
  all_goals simp

/-! Machine/VecMem -/

@[simp] theorem State.vecAccess_mem (c : Ctx) (bad : Option Nat) (a : Access) :
    (s.vecAccess c bad a).mem = s.mem := by unfold State.vecAccess; split <;> rfl

/-! Machine/Pipe -/

@[simp] theorem vectorDispatch_mem (core : Nat) : SameMem s.mem (vectorDispatch core s) := by
  simp only [vectorDispatch]
  split
  · exact sameMem_none _
  rw [sameMem_map]
  intro x _
  split
  · simp
  · split <;> simp
@[simp] theorem vectorExecuteStart_mem (core : Nat) : SameMem s.mem (vectorExecuteStart core s) := by fun_cases vectorExecuteStart <;> simp
@[simp] theorem vectorExecuteDone_mem (core : Nat) : SameMem s.mem (vectorExecuteDone core s) := by simp only [vectorExecuteDone]; split <;> simp
@[simp] theorem fifoAccept_mem (core side : Nat) : SameMem s.mem (fifoAccept core side s) := by
  simp only [fifoAccept]
  repeat' split
  all_goals simp
@[simp] theorem laneSliceGate_mem (core die : Nat) : SameMem s.mem (laneSliceGate core die s) := by simp [laneSliceGate]
@[simp] theorem divideStart_mem (core : Nat) : SameMem s.mem (divideStart core s) := by simp only [divideStart]; split <;> simp
@[simp] theorem State.divideGive_mem (core : Nat) (d : DivOp) : (s.divideGive core d).mem = s.mem := rfl
@[simp] theorem divideComplete_mem (core unit : Nat) : SameMem s.mem (divideComplete core unit s) := by simp only [divideComplete]; split <;> simp
@[simp] theorem fpDivideStart_mem (core : Nat) : SameMem s.mem (fpDivideStart core s) := by simp only [fpDivideStart]; split <;> simp
@[simp] theorem fpDivideComplete_mem (core : Nat) : SameMem s.mem (fpDivideComplete core s) := by simp only [fpDivideComplete]; split <;> simp

/-! Machine/Fetch -/

@[simp] theorem State.fetchBlock_mem (core : Nat) (asid : BitVec 16) (root : Nat) (sup : Bool) (base : Dword) :
    (s.fetchBlock core asid root sup base).2.mem = s.mem := by
  simp only [State.fetchBlock]
  repeat' split
  all_goals simp
@[simp] theorem blockFetch_mem (sid addr : Nat) : SameMem s.mem (blockFetch sid addr s) := by unfold blockFetch; split <;> simp
@[simp] theorem State.bindNames_mem (core gang : Nat) (b : Fetched) : (s.bindNames core gang b).mem = s.mem := by simp [State.bindNames]
@[simp] theorem blockStart_mem (sid : Nat) : SameMem s.mem (blockStart sid s) := by
  simp only [blockStart]
  repeat' split
  all_goals simp

/-! Machine/Exits -/

@[simp] theorem State.leave_mem (c : Ctx) (kind : Nat) (target link : Dword) :
    (s.leave c kind target link).mem = s.mem := by unfold State.leave; split <;> rfl
@[simp] theorem State.leaveTo_mem (c : Ctx) (kind : Nat) (link : Dword) : (s.leaveTo c kind link).mem = s.mem := by simp [State.leaveTo]

/-! Machine/Control -/

@[simp] theorem State.doneBad_mem (core : Nat) (asid : BitVec 16) (ctx : Nat) (sup : Bool) (done : Nat) :
    (s.doneBad core asid ctx sup done).2.mem = s.mem := by unfold State.doneBad; split <;> simp

/-! Machine/Streams -/

@[simp] theorem State.wakeVldcs_mem (core k : Nat) : (s.wakeVldcs core k).mem = s.mem := by
  refine foldl_mem _ _ fun s x => foldl_mem _ _ fun s kv => ?_
  split <;> simp
@[simp] theorem State.setStream_mem (core k : Nat) (f : Stream → Stream) : (s.setStream core k f).mem = s.mem := by simp [State.setStream]
@[simp] theorem State.postCfg_mem (core k : Nat) (r : StreamRec) : (s.postCfg core k r).mem = s.mem := by simp [State.postCfg]
@[simp] theorem State.postGo_mem (sid k : Nat) (sn : Sedge) : (s.postGo sid k sn).mem = s.mem := by unfold State.postGo; split <;> simp
@[simp] theorem State.postStep_mem (core k : Nat) : (s.postStep core k).mem = s.mem := by simp [State.postStep]
@[simp] theorem State.postKill_mem (core k : Nat) : (s.postKill core k).mem = s.mem := by simp [State.postKill]
@[simp] theorem State.streamCheck_mem (core : Nat) (st : Stream) (t : Strand) (acc va : Nat) : (s.streamCheck core st t acc va).2.mem = s.mem := by
  simp only [State.streamCheck]
  repeat' split
  all_goals simp
@[simp] theorem State.streamTake_mem (st : Stream) (pa : Nat) : (s.streamTake st pa).mem = s.mem := by simp [State.streamTake]
@[simp] theorem State.readStrip_mem (core : Nat) (st : Stream) (t : Strand) (is : List Nat) (vals : NMap Nat) (came : NMap (Nat × Nat)) :
    (s.readStrip core st t is vals came).2.2.mem = s.mem := by
  induction is generalizing s vals came with
  | nil => rfl
  | cons i is ih =>
    rw [State.readStrip]
    split
    · exact State.streamCheck_mem ..
    · rw [ih, State.streamTake_mem, State.streamCheck_mem]
@[simp] theorem State.streamFatal_mem (core : Nat) (st : Stream) (pa : Nat) : (s.streamFatal core st pa).mem = s.mem := by simp [State.streamFatal]
@[simp] theorem State.streamPoison_mem (core : Nat) (st : Stream) (pa : Nat) : (s.streamPoison core st pa).mem = s.mem := by simp [State.streamPoison]
@[simp] theorem streamStripFetch_mem (core k : Nat) : SameMem s.mem (streamStripFetch core k s) := by
  simp only [streamStripFetch]
  repeat' split
  all_goals simp
@[simp] theorem streamDone_mem (core k : Nat) : SameMem s.mem (streamDone core k s) := by simp [streamDone]
@[simp] theorem State.streamStop_mem (core k : Nat) (t : Strand) (e kind va : Nat) :
    (s.streamStop core k t e kind va).mem = s.mem := by simp [State.streamStop]
@[simp] theorem streamAccessFault_mem (core k e refused : Nat) :
    SameMem s.mem (streamAccessFault core k e refused s) := by simp only [streamAccessFault]; split <;> simp
@[simp] theorem interlockWaitEnd_mem (sid : Nat) : SameMem s.mem (interlockWaitEnd sid s) := by unfold interlockWaitEnd; split <;> simp

/-! Machine/Matrix -/

@[simp] theorem State.tilePost_mem (c : Ctx) (v : View) (op : TileOp) : (s.tilePost c v op).mem = s.mem := rfl
@[simp] theorem matrixIssue_mem (core : Nat) : SameMem s.mem (matrixIssue core s) := by
  simp only [matrixIssue]
  split
  · exact sameMem_none _
  rw [sameMem_map]
  intro r _
  simp
@[simp] theorem State.tileFetch_mem (core : Nat) (o : TileOp) : (s.tileFetch core o).1.mem = s.mem := by simp [State.tileFetch]
@[simp] theorem State.performTile_mem (core sid : Nat) (o : TileOp) :
    (s.performTile core sid o).mem = s.mem := by unfold State.performTile; split <;> rfl
@[simp] theorem matrixPerformDone_mem (core : Nat) : SameMem s.mem (matrixPerformDone core s) := by
  simp only [matrixPerformDone]
  split
  · exact sameMem_none _
  rw [sameMem_map]
  intro x _
  split
  · split <;> simp
  · simp
@[simp] theorem tileMemoryMoveDone_mem (core : Nat) : SameMem s.mem (tileMemoryMoveDone core s) := by simp only [tileMemoryMoveDone]; split <;> simp

/-! Machine/Block -/

@[simp] theorem State.resize_mem (unit a b x : Nat) : (s.resize unit a b x).2.mem = s.mem := by
  unfold State.resize
  split <;> rfl
@[simp] theorem State.resizeAll_mem (unit a b : Nat) (rs : List Nat) (m : NMap Nat) : (s.resizeAll unit a b m rs).2.mem = s.mem := by
  induction rs generalizing s m with
  | nil => rfl
  | cons r rs ih => rw [State.resizeAll, ih, State.resize_mem]
@[simp] theorem State.setGrant_mem (sid b : Nat) : (s.setGrant sid b).mem = s.mem := by unfold State.setGrant; split <;> simp
@[simp] theorem State.settleReclaim_mem (gid : Nat) : (s.settleReclaim gid).mem = s.mem := by simp [State.settleReclaim]
@[simp] theorem State.commitValues_mem (sid : Nat) (t : Strand) (w : Window) : (s.commitValues sid t w).mem = s.mem := by simp [State.commitValues]
@[simp] theorem State.changeEntry_mem (core ctx e : Nat) (d : Sedge) : (s.changeEntry core ctx e d).mem = s.mem := rfl
@[simp] theorem State.openWindow_mem (core gang id : Nat) (base desc : Dword) : (s.openWindow core gang id base desc).mem = s.mem := rfl
@[simp] theorem State.closeWindow_mem (core gang : Nat) : (s.closeWindow core gang).mem = s.mem := rfl
@[simp] theorem State.applyPost_mem (sid : Nat) (t : Strand) (w : Window) (p : Post) : (s.applyPost sid t w p).mem = s.mem := by
  cases p with
  | cpsCfg k r => exact State.postCfg_mem ..
  | cpsGo k sn _ => exact State.postGo_mem ..
  | cpsStep k => exact State.postStep_mem ..
  | cpsKill k => exact State.postKill_mem ..
  | sleep q => exact (ite_mem ..).trans (ite_self s.mem)
  | ctxLoad addr h => exact State.undef_mem s 128
  | vawin k b d => exact State.openWindow_mem ..
  | vawclr => exact State.closeWindow_mem ..
  | vlset k => exact (State.settleReclaim_mem ..).trans (by rw [State.updStrand_mem, State.updStrand_mem]; split <;> simp)
  | _ => rfl
@[simp] theorem State.commitScopes_mem (sid : Nat) (t : Strand) (w : Window) : (s.commitScopes sid t w).mem = s.mem := by simp [State.commitScopes]
@[simp] theorem State.commitWait_mem (sid : Nat) (w : Window) : (s.commitWait sid w).mem = s.mem := by simp only [State.commitWait]; split <;> simp
@[simp] theorem State.settleBarrier_mem (gid : Nat) : (s.settleBarrier gid).mem = s.mem := by unfold State.settleBarrier; split <;> simp
@[simp] theorem State.latchDone_mem (gid : Nat) : (s.latchDone gid).mem = s.mem := by unfold State.latchDone; split <;> simp
@[simp] theorem State.takeExit_mem (sid : Nat) (e : Exit) : (s.takeExit sid e).mem = s.mem := by
  simp only [State.takeExit]
  split
  case h_2 => split <;> simp
  all_goals simp
@[simp] theorem State.commitBlock_mem (sid : Nat) (t : Strand) (w : Window) (e : Exit) :
    (s.commitBlock sid t w e).mem = s.mem := by simp [State.commitBlock]
@[simp] theorem State.endBlock_mem (sid : Nat) : (s.endBlock sid).mem = s.mem := by fun_cases State.endBlock <;> simp
@[simp] theorem blockQuiescent_mem (sid : Nat) : SameMem s.mem (blockQuiescent sid s) := by fun_cases blockQuiescent <;> simp
@[simp] theorem blockTimeout_mem (sid : Nat) : SameMem s.mem (blockTimeout sid s) := by fun_cases blockTimeout <;> simp

/-! Machine/Launch -/

@[simp] theorem State.doneMsix_mem (src : Option Nat) : (s.doneMsix src).mem = s.mem := by unfold State.doneMsix; split <;> simp
@[simp] theorem State.updQueue_mem (q : Nat) (f : HostQueue → HostQueue) : (s.updQueue q f).mem = s.mem := rfl
@[simp] theorem State.popSource_mem (src : Nat) : (s.popSource src).mem = s.mem := by simp [State.popSource]
@[simp] theorem State.openCtx_mem (pa : Nat) (table : NMap Sedge) : (s.openCtx pa table).mem = s.mem := rfl
@[simp] theorem State.addStrands_mem (core n : Nat) (f : Nat → Strand) : (s.addStrands core n f).2.mem = s.mem := by simp [State.addStrands]
@[simp] theorem State.placeResume_mem (k : Nat) (r : Resume) (core : Nat) : (s.placeResume k r core).mem = s.mem := by
  simp only [State.placeResume, State.updDisp_mem]
  refine (foldl_mem _ _ fun s cid => ?_).trans (State.addStrands_mem ..)
  split <;> rfl
@[simp] theorem State.postReclaim_mem (gid : Nat) (g : Gang) (x : Nat) : (s.postReclaim gid g x).mem = s.mem := by simp [State.postReclaim]
@[simp] theorem preemptWaitExpiry_mem (src : Nat) : SameMem s.mem (preemptWaitExpiry src s) := by fun_cases preemptWaitExpiry <;> simp
@[simp] theorem reclaimTimeout_mem (gid : Nat) : SameMem s.mem (reclaimTimeout gid s) := by
  simp only [reclaimTimeout]
  repeat' split
  all_goals simp
@[simp] theorem laneGrant_mem (gid : Nat) : SameMem s.mem (laneGrant gid s) := by unfold laneGrant; split <;> simp
@[simp] theorem State.leaveCtx_mem (ctx core : Nat) : (s.leaveCtx ctx core).mem = s.mem := by simp [State.leaveCtx]
@[simp] theorem State.clearGang_mem (gid : Nat) (g : Gang) : (s.clearGang gid g).mem = s.mem := by simp [State.clearGang]
@[simp] theorem State.closeCtx_mem (ctx : Nat) : (s.closeCtx ctx).mem = s.mem := by simp [State.closeCtx]
@[simp] theorem State.looseStores_mem (g : Gang) : (s.looseStores g).mem = s.mem := by simp [State.looseStores]
@[simp] theorem State.dropHead_mem (src : Nat) : (s.dropHead src).mem = s.mem := rfl
@[simp] theorem State.writeQwr_mem (q : Nat) (x : BitVec 32) : (s.writeQwr q x).mem = s.mem := by simp [State.writeQwr]
@[simp] theorem qwrWrite_mem (q value : Nat) : SameMem s.mem (qwrWrite q value s) := by simp [qwrWrite]

/-! Machine/Saves -/

@[simp] theorem State.killNow_mem (gid : Nat) (g : Gang) : (s.killNow gid g).mem = s.mem := by simp [State.killNow]
@[simp] theorem State.kill_mem (gid : Nat) : (s.kill gid).mem = s.mem := by unfold State.kill; split <;> simp
@[simp] theorem State.refuseNotice_mem (gid : Nat) (g : Gang) (size : Nat) : (s.refuseNotice gid g size).mem = s.mem := rfl
@[simp] theorem State.refuseSave_mem (gid : Nat) (g : Gang) (op : SaveOp) (size : Nat) :
    (s.refuseSave gid g op size).mem = s.mem := by simp [State.refuseSave]
@[simp] theorem State.hurrySaves_mem : s.hurrySaves.mem = s.mem := by simp [State.hurrySaves]
@[simp] theorem State.startSave_mem (gid : Nat) (g : Gang) (op : SaveOp) : (s.startSave gid g op).mem = s.mem := by simp [State.startSave]
@[simp] theorem contextSaveStart_mem (gid : Nat) : SameMem s.mem (contextSaveStart gid s) := by
  simp only [contextSaveStart]
  repeat' split
  all_goals simp
@[simp] theorem State.flushDeferred_mem (sid : Nat) : (s.flushDeferred sid).mem = s.mem := by unfold State.flushDeferred; split <;> simp
@[simp] theorem State.holdNotes_mem (gid area : Nat) (g : Gang) : (s.holdNotes gid area g).mem = s.mem := rfl
@[simp] theorem State.evenGrants_mem (g : Gang) : (s.evenGrants g).mem = s.mem :=
  foldl_mem _ _ fun s sid => by split <;> simp
@[simp] theorem State.ownGrants_mem (s was : State) (g : Gang) : (s.ownGrants was g).mem = s.mem :=
  foldl_mem _ _ fun s sid => by split <;> simp
@[simp] theorem State.placeRestored_mem (sid : Nat) (t : Strand) (x : Option (Nat × Nat)) : (s.placeRestored sid t x).mem = s.mem := by
  cases x <;> simp [State.placeRestored]
@[simp] theorem State.restoreStreams_mem (root area gid : Nat) (g : Gang) (lost : Bool) (first : Nat) (ks : List Nat) (off : Nat) :
    SameMem s.mem (s.restoreStreams root area gid g lost first ks off) := by
  induction ks generalizing s off with
  | nil => simp [State.restoreStreams]
  | cons k ks ih =>
    simp only [State.restoreStreams]
    split
    · exact (ih _ _).of_eq (State.updStream_mem ..)
    split
    · exact sameMem_none _
    split
    · exact sameMem_none _
    · exact (ih _ _).of_eq (by simp only [ite_mem, State.updStrand_mem, State.updStream_mem, ite_self])
@[simp] theorem State.restoreStrands_mem (root area gid : Nat) (g : Gang) (asid : BitVec 16) (slabs : Nat) (lost : Bool) (cs : List Nat) :
    SameMem s.mem (s.restoreStrands root area gid g asid slabs lost cs) := by
  induction cs generalizing s with
  | nil => simp [State.restoreStrands]
  | cons cid cs ih =>
    simp only [State.restoreStrands]
    split
    · exact sameMem_none _
    split
    · exact (ih _).of_eq (State.placeRestored_mem ..)
    split
    · exact sameMem_none _
    · exact (ih _).of_eq (State.placeRestored_mem ..)
@[simp] theorem State.restoreTiles_mem (root area gid core : Nat) (h : Nat) (ks : List Nat) (off : Nat) :
    SameMem s.mem (s.restoreTiles root area gid core h ks off) := by
  induction ks generalizing s off with
  | nil => simp [State.restoreTiles]
  | cons k ks ih =>
    rw [State.restoreTiles]
    split
    · exact sameMem_none _
    · exact (ih _ _).of_eq (State.updTile_mem ..)
@[simp] theorem State.restoreWindow_mem (root area gid core : Nat) (base desc : Dword) (off : Nat) :
    SameMem s.mem (s.restoreWindow root area gid core base desc off) := by simp [State.restoreWindow]
@[simp] theorem State.releaseNotes_mem (gid area : Nat) (g : Gang) : (s.releaseNotes gid area g).mem = s.mem := by simp [State.releaseNotes]

/-! Machine/Resume -/

@[simp] theorem State.runOn_mem (gid : Nat) : (s.runOn gid).mem = s.mem := rfl
@[simp] theorem State.goStopped_mem (gid : Nat) : (s.goStopped gid).mem = s.mem := by fun_cases State.goStopped <;> simp
@[simp] theorem State.resumeNow_mem (core ctxn action : Nat) (pc : Dword) :
    (s.resumeNow core ctxn action pc).mem = s.mem := by fun_cases State.resumeNow <;> simp
@[simp] theorem State.resume_mem (core ctxn action : Nat) : (s.resume core ctxn action).mem = s.mem := by simp [State.resume]
@[simp] theorem State.applyResumes_mem (core : Nat) : (s.applyResumes core).mem = s.mem := by simp [State.applyResumes]
@[simp] theorem resumeGo_mem (core ctxn : Nat) : SameMem s.mem (resumeGo core ctxn s) := by simp [resumeGo]
@[simp] theorem resumeRedirect_mem (core ctxn : Nat) : SameMem s.mem (resumeRedirect core ctxn s) := by simp [resumeRedirect]
@[simp] theorem resumeKill_mem (core ctxn : Nat) : SameMem s.mem (resumeKill core ctxn s) := by simp [resumeKill]
@[simp] theorem State.atomicLost_mem (sid q gang pa : Nat) (reg : Option Nat) :
    (s.atomicLost sid q gang pa reg).mem = s.mem := by simp [State.atomicLost]
@[simp] theorem fatalRecord_mem (gid sub pa : Nat) : SameMem s.mem (fatalRecord gid sub pa s) := by fun_cases fatalRecord <;> simp
@[simp] theorem replayPendingReplay_mem (core : Nat) : SameMem s.mem (replayPendingReplay core s) := by simp [replayPendingReplay]
@[simp] theorem tlbInvalidatePerform_mem (k : Nat) : SameMem s.mem (tlbInvalidatePerform k s) := by
  simp only [tlbInvalidatePerform]
  repeat' split
  all_goals simp
@[simp] theorem State.startInv_mem : s.startInv.mem = s.mem := by simp [State.startInv]
@[simp] theorem tlbInvStart_mem : SameMem s.mem (tlbInvStart s) := by simp [tlbInvStart]
@[simp] theorem remoteLostDeferred_mem (sid : Nat) : SameMem s.mem (remoteLostDeferred sid s) := by
  simp only [remoteLostDeferred]
  repeat' split
  all_goals simp

/-! Machine/Power -/

@[simp] theorem State.spillL2_mem : s.spillL2.mem = s.mem := rfl
@[simp] theorem State.enterPower_mem (k d : Nat) (refused under : Bool) : (s.enterPower k d refused under).mem = s.mem := by simp [State.enterPower]
@[simp] theorem clusterIdleEntry_mem (k : Nat) : SameMem s.mem (clusterIdleEntry k s) := by simp [clusterIdleEntry]
@[simp] theorem clusterWake_mem (k : Nat) : SameMem s.mem (clusterWake k s) := by simp [clusterWake]
@[simp] theorem clusterExitDone_mem (k : Nat) : SameMem s.mem (clusterExitDone k s) := by simp [clusterExitDone]
@[simp] theorem packageC4Entry_mem : SameMem s.mem (packageC4Entry s) := by simp [packageC4Entry]
@[simp] theorem packageC4Exit_mem : SameMem s.mem (packageC4Exit s) := by simp [packageC4Exit]
@[simp] theorem State.dropEvicts_mem (k : Nat) : (s.dropEvicts k).mem = s.mem := rfl
@[simp] theorem State.quiesce_mem (k mode : Nat) : (s.quiesce k mode).mem = s.mem := by simp [State.quiesce]
@[simp] theorem quiesceDrain_mem (k : Nat) : SameMem s.mem (quiesceDrain k s) := by simp [quiesceDrain]
@[simp] theorem quiesceEvict_mem (k : Nat) : SameMem s.mem (quiesceEvict k s) := by simp [quiesceEvict]
@[simp] theorem quiesceHold_mem (k : Nat) : SameMem s.mem (quiesceHold k s) := by simp [quiesceHold]
@[simp] theorem State.unquiesce_mem (k : Nat) : (s.unquiesce k).mem = s.mem := by simp [State.unquiesce]
@[simp] theorem quiesceRelease_mem (k : Nat) : SameMem s.mem (quiesceRelease k s) := by simp [quiesceRelease]
@[simp] theorem clusterWakeWrite_mem (k value : Nat) : SameMem s.mem (clusterWakeWrite k value s) := by simp [clusterWakeWrite]
@[simp] theorem clusterQuiesced_mem (k : Nat) : SameMem s.mem (clusterQuiesced k s) := by simp [clusterQuiesced]
@[simp] theorem State.updRegions_mem (k : Nat) (f : Region → Region) : (s.updRegions k f).mem = s.mem := rfl
@[simp] theorem State.undoRelocks_mem : s.undoRelocks.mem = s.mem := by simp [State.undoRelocks]
@[simp] theorem State.settleFloors_mem : s.settleFloors.mem = s.mem := by simp [State.settleFloors]
@[simp] theorem controlInterval_mem (watts : Nat) : SameMem s.mem (controlInterval watts s) := by simp [controlInterval]
@[simp] theorem fastLimiterSample_mem (watts : Nat) : SameMem s.mem (fastLimiterSample watts s) := by simp [fastLimiterSample]
@[simp] theorem thermalControlInterval_mem (tmax slope : Nat) :
    SameMem s.mem (thermalControlInterval tmax slope s) := by simp [thermalControlInterval]
@[simp] theorem thermalEmergency_mem : SameMem s.mem (thermalEmergency s) := by simp [thermalEmergency]
@[simp] theorem peakClear_mem : SameMem s.mem (peakClear s) := by simp [peakClear]
@[simp] theorem aostatLogClear_mem : SameMem s.mem (aostatLogClear s) := by simp [aostatLogClear]

/-! Machine/Outside -/

@[simp] theorem hbmCorrectedError_mem (stack : Nat) : SameMem s.mem (hbmCorrectedError stack s) := by simp [hbmCorrectedError]
@[simp] theorem hbmUncorrectableError_mem (stack pa : Nat) : SameMem s.mem (hbmUncorrectableError stack pa s) := by simp [hbmUncorrectableError]
@[simp] theorem patrolScrub_mem (stack : Nat) : SameMem s.mem (patrolScrub stack s) := by simp [patrolScrub]
@[simp] theorem channelIdleLend_mem (stack c : Nat) : SameMem s.mem (channelIdleLend stack c s) := by simp [channelIdleLend]
@[simp] theorem lendHandshakeDone_mem (stack c : Nat) :
    SameMem s.mem (lendHandshakeDone stack c s) := by simp only [lendHandshakeDone]; split <;> simp
@[simp] theorem lendReverse_mem (stack c : Nat) : SameMem s.mem (lendReverse stack c s) := by simp [lendReverse]
@[simp] theorem lendDisable_mem (stack : Nat) : SameMem s.mem (lendDisable stack s) := by simp [lendDisable]
@[simp] theorem dieLinkLaneError_mem (l : Nat) : SameMem s.mem (dieLinkLaneError l s) := by simp [dieLinkLaneError]
@[simp] theorem linkRetrainDone_mem (l : Nat) : SameMem s.mem (linkRetrainDone l s) := by simp [linkRetrainDone]
@[simp] theorem hostLinkDown_mem : SameMem s.mem (hostLinkDown s) := by simp [hostLinkDown]
@[simp] theorem State.askAtomicEn_mem : s.askAtomicEn.mem = s.mem := rfl
@[simp] theorem hostLinkUp_mem : SameMem s.mem (hostLinkUp s) := by simp [hostLinkUp]
@[simp] theorem hostdnClear_mem : SameMem s.mem (hostdnClear s) := by simp [hostdnClear]
@[simp] theorem firmwareVerifyDone_mem (ok : Nat) : SameMem s.mem (firmwareVerifyDone ok s) := by simp [firmwareVerifyDone]
@[simp] theorem dieLinksTrained_mem (failed : Nat) : SameMem s.mem (dieLinksTrained failed s) := by simp [dieLinksTrained]
@[simp] theorem hostPortTrained_mem : SameMem s.mem (hostPortTrained s) := by simp [hostPortTrained]
@[simp] theorem hbmTrained_mem (failed : Nat) : SameMem s.mem (hbmTrained failed s) := by simp [hbmTrained]
@[simp] theorem State.loseStreams_mem (p : Nat) : (s.loseStreams p).mem = s.mem := rfl
@[simp] theorem State.losePort_mem (p : Nat) : (s.losePort p).mem = s.mem := by simp [State.losePort]
@[simp] theorem flitReceive_mem (p flit : Nat) : SameMem s.mem (flitReceive p flit s) := by simp [flitReceive, -Nat.reducePow]
@[simp] theorem State.replay_mem (p : Nat) : (s.replay p).mem = s.mem := by simp [State.replay]
@[simp] theorem flitNakReplay_mem (p good : Nat) : SameMem s.mem (flitNakReplay p good s) := by simp [flitNakReplay]
@[simp] theorem flitReplayTimeout_mem (p : Nat) : SameMem s.mem (flitReplayTimeout p s) := by simp [flitReplayTimeout]
@[simp] theorem laneErrorInterval_mem (p lane : Nat) : SameMem s.mem (laneErrorInterval p lane s) := by simp [laneErrorInterval]
@[simp] theorem portRetrainDone_mem (p : Nat) : SameMem s.mem (portRetrainDone p s) := by simp [portRetrainDone]
@[simp] theorem portTrainingTimeout_mem (p : Nat) : SameMem s.mem (portTrainingTimeout p s) := by simp [portTrainingTimeout]
@[simp] theorem portDisable_mem (p : Nat) : SameMem s.mem (portDisable p s) := by simp [portDisable]
@[simp] theorem mctpMessage_mem (message : Nat) : SameMem s.mem (mctpMessage message s) := by simp [mctpMessage]
@[simp] theorem referenceClockLoss_mem : SameMem s.mem (referenceClockLoss s) := by simp [referenceClockLoss]
@[simp] theorem referenceClockReturn_mem : SameMem s.mem (referenceClockReturn s) := by simp [referenceClockReturn]
@[simp] theorem marginWarning_mem : SameMem s.mem (marginWarning s) := by simp [marginWarning]

/-! Machine/RegWrite -/

@[simp] theorem State.coreWrite_mem (core off : Nat) (w : RegW) : (s.coreWrite core off w).mem = s.mem := by unfold State.coreWrite; split <;> simp
@[simp] theorem State.ringWrite_mem (k off : Nat) (w : RegW) : (s.ringWrite k off w).mem = s.mem := by unfold State.ringWrite; split <;> rfl
@[simp] theorem State.queueWrite_mem (q off : Nat) (w : RegW) : (s.queueWrite q off w).mem = s.mem := by unfold State.queueWrite; split <;> simp
@[simp] theorem State.pkgWrite_mem (off : Nat) (w : RegW) : (s.pkgWrite off w).mem = s.mem := by unfold State.pkgWrite; split <;> simp
@[simp] theorem State.clusterWrite_mem (k off : Nat) (w : RegW) : (s.clusterWrite k off w).mem = s.mem := by unfold State.clusterWrite; split <;> simp
@[simp] theorem State.edgeWrite_mem (off : Nat) (w : RegW) : (s.edgeWrite off w).mem = s.mem := by simp [State.edgeWrite]
@[simp] theorem State.devWrite_mem (off : Nat) (w : RegW) : (s.devWrite off w).mem = s.mem := by
  unfold State.devWrite
  repeat' split
  case isFalse.isFalse.isFalse.isFalse.isTrue => exact State.updDisp_mem ..
  all_goals simp
@[simp] theorem State.regWrite_mem (pa size value : Nat) : (s.regWrite pa size value).mem = s.mem := by simp [State.regWrite]
@[simp] theorem registerWrite_mem (pa size value : Nat) : SameMem s.mem (registerWrite pa size value s) := by simp [registerWrite]

/-! Machine/Perform -/

@[simp] theorem State.smearCopies_mem (core : Nat) (bytes : NMap BByte) :
    (s.smearCopies core bytes).mem = s.mem := by unfold State.smearCopies; split <;> simp
@[simp] theorem State.releaseLine_mem (sid : Nat) (bytes : NMap BByte) :
    (s.releaseLine sid bytes).mem = s.mem := by unfold State.releaseLine; split <;> simp
@[simp] theorem State.segDone_mem (sid q k stamp : Nat) : (s.segDone sid q k stamp).mem = s.mem := by
  simp only [State.segDone]
  repeat' split
  all_goals simp
@[simp] theorem State.valueBack_mem (sid reg : Nat) (old : Bool) :
    SameMem s.mem (s.valueBack sid reg old) := by fun_cases State.valueBack <;> simp
@[simp] theorem stampReturn_mem (sid reg : Nat) : SameMem s.mem (stampReturn sid reg s) := by simp [stampReturn]
@[simp] theorem atomicOldValueReturn_mem (sid reg : Nat) : SameMem s.mem (atomicOldValueReturn sid reg s) := by simp [atomicOldValueReturn]
@[simp] theorem State.sendBy_mem (port : Option Nat) : (s.sendBy port).mem = s.mem := by unfold State.sendBy; split <;> rfl
@[simp] theorem State.takeLine_mem (core : Nat) (meet : BitVec 2) (pa : Nat) : (s.takeLine core meet pa).mem = s.mem := by simp [State.takeLine]
@[simp] theorem State.settleWindow_mem (core gang : Nat) : (s.settleWindow core gang).mem = s.mem := by simp [State.settleWindow]
@[simp] theorem vaccUpdatePerform_mem (sid q elem : Nat) : SameMem s.mem (vaccUpdatePerform sid q elem s) := by
  simp only [vaccUpdatePerform]
  repeat' split
  all_goals simp
@[simp] theorem State.sendCopies_mem (core sid q next : Nat) (x : AccWin) : (s.sendCopies core sid q next x).mem = s.mem := by
  rw [State.sendCopies, State.updStrand_mem, State.updCore_mem]
  exact foldl_mem _ _ fun s g => State.useBank_mem s core g

/-! Machine/Sync -/

@[simp] theorem scopeAcknowledge_mem (core ctx e : Nat) : SameMem s.mem (scopeAcknowledge core ctx e s) := by unfold scopeAcknowledge; split <;> simp
@[simp] theorem barrierArrival_mem (sid : Nat) : SameMem s.mem (barrierArrival sid s) := by fun_cases barrierArrival <;> simp
@[simp] theorem sleepExpiry_mem (sid : Nat) : SameMem s.mem (sleepExpiry sid s) := by unfold sleepExpiry; split <;> simp
@[simp] theorem State.wakeStrand_mem (sid reason : Nat) : (s.wakeStrand sid reason).mem = s.mem := rfl
@[simp] theorem qdlDeadlinePass_mem (sid : Nat) : SameMem s.mem (qdlDeadlinePass sid s) := by unfold qdlDeadlinePass; split <;> simp
@[simp] theorem watchedLineWrite_mem (core line : Nat) : SameMem s.mem (watchedLineWrite core line s) := by simp [watchedLineWrite]
@[simp] theorem l1LineInvalidate_mem (core line : Nat) : SameMem s.mem (l1LineInvalidate core line s) := by simp [l1LineInvalidate]
@[simp] theorem l2Eviction_mem (die line : Nat) : SameMem s.mem (l2Eviction die line s) := by simp [l2Eviction]

/-! Machine/Clock -/

@[simp] theorem State.markWaits_mem : s.markWaits.mem = s.mem := rfl
@[simp] theorem State.beginCore_mem (core : Nat) : (s.beginCore core).mem = s.mem := by simp [State.beginCore]
@[simp] theorem State.excludeTime_mem (d : Nat) : (s.excludeTime d).mem = s.mem := rfl
@[simp] theorem State.checkCounts_mem : s.checkCounts.mem = s.mem := rfl
@[simp] theorem State.leaveHomes_mem : s.leaveHomes.mem = s.mem := by simp [State.leaveHomes]
@[simp] theorem State.passTo_mem (t : Nat) : (s.passTo t).mem = s.mem := by simp [State.passTo]
@[simp] theorem State.tick_mem (q : Nat) : (s.tick q).mem = s.mem := by simp [State.tick]
@[simp] theorem localCountCheck_mem (kind region : Nat) : SameMem s.mem (localCountCheck kind region s) := by
  simp only [localCountCheck]
  repeat' split
  all_goals simp
@[simp] theorem pllRelockStop_mem (k : Nat) : SameMem s.mem (pllRelockStop k s) := by simp [pllRelockStop]
@[simp] theorem pllRelockEnd_mem (k : Nat) : SameMem s.mem (pllRelockEnd k s) := by simp [pllRelockEnd]
end

/-! ### The frame of an instruction: what its shared operation does, whatever its body is -/

/-- An outcome whose next state, where it has one, holds these bytes in memory. -/
structure NextMem (m : List Host.Cell) (o : Out) : Prop where
  mem_eq : ∀ s, o = .next s → s.mem = m

@[simp] theorem nextMem_next (m : List Host.Cell) (s : State) : NextMem m (.next s) ↔ s.mem = m :=
  ⟨fun h => h.mem_eq s rfl, fun h => ⟨by rintro _ ⟨rfl⟩; exact h⟩⟩
@[simp] theorem nextMem_ite (m : List Host.Cell) (c : Prop) [Decidable c] (o p : Out) :
    NextMem m (if c then o else p) ↔ (c → NextMem m o) ∧ (¬c → NextMem m p) := by split <;> simp_all

section
variable {s : State}

@[simp] theorem State.snapshot_mem {c : Ctx} {e : Nat} {ok : State → Sedge → State} (h : KeepsMem ok) : (s.snapshot c e ok).mem = s.mem := by
  simp [State.snapshot, h _ _]
@[simp] theorem State.superForm_mem {c : Ctx} {body : State → State} (h : KeepsMem fun u (_ : Unit) => body u) :
    (s.superForm c body).mem = s.mem := by
  simp [State.superForm, h s ()]
@[simp] theorem State.readRecord_mem {c : Ctx} {a n align : Nat} {body : State → Nat → State} (h : KeepsMem body) :
    (s.readRecord c a n align body).mem = s.mem := by
  simp only [State.readRecord]
  repeat' split
  all_goals simp [h _ _]
@[simp] theorem State.run_mem {v : View} {body : State → Ctx → State} (h : KeepsMem body) : NextMem s.mem (s.run v body) := by
  unfold State.run
  split <;> simp [h _ _]
@[simp] theorem State.runWhen_mem {v : View} {cond : State → Ctx → Bool} {body : State → Ctx → State} (h : KeepsMem body) :
    NextMem s.mem (s.runWhen v cond body) := by
  unfold State.runWhen
  split <;> simp [h _ _]
@[simp] theorem State.runVec_mem {v : View} {body : State → Ctx → State} (h : KeepsMem body) : NextMem s.mem (s.runVec v body) := by
  simp only [State.runVec]
  repeat' split
  all_goals simp [h _ _]
@[simp] theorem State.compute_mem (v : View) (f : Dword → Dword → Dword → Dword) : NextMem s.mem (s.compute v f) := by
  simp [State.compute]
@[simp] theorem State.float_mem (v : View) (f : Dword → Dword → Dword → Dword × Nat) : NextMem s.mem (s.float v f) := by
  simp [State.float]
@[simp] theorem State.divide_mem (v : View) (fl : Bool) (f : Dword → Dword → Dword → Dword × Nat) : NextMem s.mem (s.divide v fl f) := by
  simp [State.divide]
@[simp] theorem State.load_mem (xop size : Nat) (o : MOp) : NextMem s.mem (s.load xop size o) := by
  simp [State.load]
@[simp] theorem State.store_mem (xop size : Nat) (o : MOp) : NextMem s.mem (s.store xop size o) := by
  simp [State.store]
@[simp] theorem State.amo_mem (v : View) (xop lsid scope : Nat) (t0 : Target) : NextMem s.mem (s.amo v xop lsid scope t0) := by
  simp [State.amo]
@[simp] theorem State.fence_mem (kind : Nat) (o : AOp) : NextMem s.mem (s.fence kind o) := by
  simp [State.fence]
@[simp] theorem State.vecElems_mem (v : View) (o : VOp) (scalar : Bool) (draws : VEnv → Bool) (op : VEnv → Nat → Nat → Nat × Nat) :
    NextMem s.mem (s.vecElems v o scalar draws op) := by
  simp [State.vecElems]
@[simp] theorem State.vecArith_mem (v : View) (o : VOp) (scalar : Bool) (f : ArithOp) : NextMem s.mem (s.vecArith v o scalar f) := by
  simp [State.vecArith]
@[simp] theorem State.vecRaw_mem (v : View) (o : VOp) (scalar : Bool) (f : VEnv → Nat → Nat) : NextMem s.mem (s.vecRaw v o scalar f) := by
  simp [State.vecRaw]
@[simp] theorem State.vecMove_mem (v : View) (o : VOp) (keep : VEnv → Nat → Bool) (f : VEnv → Nat → Nat) (maskless : Bool) :
    NextMem s.mem (s.vecMove v o keep f maskless) := by
  simp [State.vecMove]
@[simp] theorem State.vecCmp_mem (v : View) (o : VOp) (rel : XV → XV → Bool) (onNan quietInv : Bool) :
    NextMem s.mem (s.vecCmp v o rel onNan quietInv) := by
  simp [State.vecCmp]
@[simp] theorem State.maskForm_mem (vop : Nat) (o : VOp) (f : Nat → Nat → Nat → Bool) : NextMem s.mem (s.maskForm vop o f) := by
  simp [State.maskForm]
@[simp] theorem State.vecReduce_mem (vop : Nat) (o : VOp) (scalar : Bool) (f : Strand → Nat → VEnv → Window → Option Nat × Window) :
    NextMem s.mem (s.vecReduce vop o scalar f) := by
  simp [State.vecReduce]
@[simp] theorem State.vecLoad_mem (vop : Nat) (o : VMOp) (f : MEnv → Ctx → Option Nat × Access) : NextMem s.mem (s.vecLoad vop o f) := by
  simp [State.vecLoad]
@[simp] theorem State.vecStore_mem (vop : Nat) (o : VMOp) (f : MEnv → Ctx → Option Nat × Access) : NextMem s.mem (s.vecStore vop o f) := by
  simp [State.vecStore]
@[simp] theorem State.tileForm_mem (pm : Nat) (o : TOp) : NextMem s.mem (s.tileForm pm o) :=
  State.run_mem fun s c => by split <;> simp
@[simp] theorem State.tileMove_mem (pm : Nat) (o : TOp) : NextMem s.mem (s.tileMove pm o) := by
  unfold State.tileMove
  refine State.runWhen_mem fun s c => ?_
  dsimp only
  repeat' split
  all_goals simp
@[simp] theorem State.tileRead_mem (pm : Nat) (o : TOp) : NextMem s.mem (s.tileRead pm o) := by
  simp [State.tileRead]
end
theorem execSpawn_mem (o : GOp) (s : State) : NextMem s.mem (execSpawn o s) :=
  State.runWhen_mem fun s c => State.readRecord_mem fun s x => by
    dsimp only
    split <;> simp
theorem execCtlRd_mem (o : GOp) (s : State) : NextMem s.mem (execCtlRd o s) := State.run_mem fun s c => by split <;> simp
theorem execCtlWr_mem (o : GOp) (s : State) : NextMem s.mem (execCtlWr o s) := State.run_mem fun s c => by split <;> simp
theorem execVlset_mem (o : GOp) (s : State) : NextMem s.mem (execVlset o s) := State.run_mem fun s c => by split <;> simp
theorem execVlmax_mem (o : GOp) (s : State) : NextMem s.mem (execVlmax o s) := State.run_mem fun s c => by split <;> simp
theorem execVacc_mem (o : VMOp) (s : State) : NextMem s.mem (execVacc o s) := State.runVec_mem fun s c => by split <;> simp
theorem execVamerge_mem (o : GOp) (s : State) : NextMem s.mem (execVamerge o s) :=
  State.runWhen_mem fun s c => by
    dsimp only
    repeat' split
    all_goals simp
theorem execCtxLoad_mem (o : GOp) (s : State) : NextMem s.mem (execCtxLoad o s) :=
  State.runWhen_mem fun s c => State.superForm_mem fun s _ => State.readRecord_mem fun s x => by simp
theorem execCpsCfg_mem (o : CPOp) (s : State) : NextMem s.mem (execCpsCfg o s) :=
  State.runWhen_mem fun s c => State.readRecord_mem fun s x => by
    dsimp only
    repeat' split
    all_goals simp

/-! ### What changes memory keeps its form -/

/-- An event that, when it happens, leaves memory in canonical form. -/
structure WfMem (o : Option State) : Prop where
  wf : ∀ s ∈ o, Memory.wf s.mem = true

@[simp] theorem wfMem_none : WfMem none := ⟨by simp⟩
@[simp] theorem wfMem_some (s : State) : WfMem (some s) ↔ Memory.wf s.mem = true := ⟨fun h => h.wf s rfl, fun h => ⟨by simpa using h⟩⟩
@[simp] theorem wfMem_map {α : Type} (o : Option α) (f : α → State) : WfMem (o.map f) ↔ ∀ a ∈ o, Memory.wf (f a).mem = true := by
  cases o <;> simp
@[simp] theorem wfMem_ite (c : Prop) [Decidable c] (o p : Option State) : WfMem (if c then o else p) ↔ (c → WfMem o) ∧ (¬c → WfMem p) := by
  split <;> simp_all
theorem WfMem.bind {o : Option State} {f : State → Option State} (h : WfMem o) (hf : ∀ u, Memory.wf u.mem = true → WfMem (f u)) :
    WfMem (o.bind f) := by
  cases o with
  | none => exact wfMem_none
  | some u => exact hf u (h.wf u rfl)
theorem WfMem.map {o : Option State} {f : State → State} (h : WfMem o) (hf : ∀ u, Memory.wf u.mem = true → Memory.wf (f u).mem = true) :
    WfMem (o.map f) :=
  (wfMem_map o f).2 fun u hu => hf u (h.wf u hu)
@[simp] theorem Memory.wf_ite (c : Prop) [Decidable c] (m n : List Host.Cell) :
    Memory.wf (if c then m else n) = true ↔ (c → Memory.wf m = true) ∧ (¬c → Memory.wf n = true) := by split <;> simp_all
theorem SameMem.wfMem {m : List Host.Cell} {o : Option State} (h : SameMem m o) (hm : Memory.wf m = true) : WfMem o :=
  ⟨fun s hs => h.mem_eq s hs ▸ hm⟩
theorem foldl_wf {α : Type} {f : State → α → State} (l : List α) (s : State) (hf : ∀ s a, Memory.wf s.mem = true → Memory.wf (f s a).mem = true)
    (h : Memory.wf s.mem = true) : Memory.wf (l.foldl f s).mem = true := by
  induction l generalizing s with
  | nil => exact h
  | cons a l ih => exact ih _ (hf s a h)

section
variable {s : State}

theorem State.coherent_wf (port stamp pa : Nat) (b : BByte) (h : Memory.wf s.mem = true) : Memory.wf (s.coherent port stamp pa b).mem = true := by
  simp only [State.coherent]
  split
  · exact Memory.wf_write _ _ _ h
  · exact h

theorem State.coherentAll_wf (port stamp : Nat) (bytes : NMap BByte) (h : Memory.wf s.mem = true) :
    Memory.wf (s.coherentAll port stamp bytes).mem = true :=
  foldl_wf _ _ (fun _ _ => State.coherent_wf _ _ _ _) h

@[simp] theorem State.performBytes_wf (port : Nat) (writer : Option Nat) (bytes : NMap BByte) (h : Memory.wf s.mem = true) :
    Memory.wf (s.performBytes port writer bytes).mem = true := by
  unfold State.performBytes
  split
  · exact h
  · simpa using State.coherentAll_wf _ _ _ h

@[simp] theorem State.streamPut_wf (core : Nat) (st : Stream) (pa v : Nat) (h : Memory.wf s.mem = true) :
    Memory.wf (s.streamPut core st pa v).mem = true := by
  simp [State.streamPut, h]
@[simp] theorem State.writeDone_wf (port pa status code core gid : Nat) (args : Dword) (qstart : Nat) (src : Option Nat) (h : Memory.wf s.mem = true) :
    Memory.wf (s.writeDone port pa status code core gid args qstart src).mem = true := by
  simp [State.writeDone, h]
@[simp] theorem State.rmw_wf (port : Nat) (writer : Option Nat) (pa size xop r t : Nat) (h : Memory.wf s.mem = true) :
    Memory.wf (s.rmw port writer pa size xop r t).2.mem = true := by
  simp only [State.rmw]
  split <;> simp [h]
@[simp] theorem State.arrive_wf (port : Nat) (bytes : NMap BByte) (h : Memory.wf s.mem = true) : Memory.wf (s.arrive port bytes).mem = true := by
  refine foldl_wf _ _ (fun u l hu => ?_) h
  dsimp only
  repeat' split
  all_goals simp [hu]
@[simp] theorem State.ownCore_wf (core : Nat) (asid : BitVec 16) (h : Memory.wf s.mem = true) : Memory.wf (s.ownCore core asid).mem = true := by
  simp only [State.ownCore]
  split
  · exact h
  · exact Memory.wf_filter _ _ h
@[simp] theorem State.packageResetOf_wf (h : Memory.wf s.mem = true) : Memory.wf s.packageResetOf.mem = true := by
  simp [State.packageResetOf, Memory.wf_filter, h]
@[simp] theorem State.placeBytes_wf (sid gang : Nat) (bytes : NMap BByte) (h : Memory.wf s.mem = true) :
    Memory.wf (s.placeBytes sid gang bytes).2.mem = true := by
  simp only [State.placeBytes]
  repeat' split
  all_goals simp [h]
@[simp] theorem State.saveWrite_wf (g : Gang) (root : Nat) (fs : List Field) (h : Memory.wf s.mem = true) :
    Memory.wf (s.saveWrite g root fs).2.mem = true := by
  induction fs generalizing s with
  | nil => exact h
  | cons f fs ih =>
    simp only [State.saveWrite]
    repeat' split
    all_goals simp [h, ih]
@[simp] theorem State.saveArea_wf (gid : Nat) (g : Gang) (scalar : Bool) (h : Memory.wf s.mem = true) :
    Memory.wf (s.saveArea gid g scalar).2.mem = true := by
  simp only [State.saveArea]
  repeat' split
  all_goals simp [h]
@[simp] theorem State.placeStart_wf (src : Nat) (r : StartRec) (core gid : Nat) (h : Memory.wf s.mem = true) :
    Memory.wf (s.placeStart src r core gid).mem = true := by
  simp [State.placeStart, h]
@[simp] theorem State.endKilled_wf (gid : Nat) (g : Gang) (h : Memory.wf s.mem = true) : Memory.wf (s.endKilled gid g).mem = true := by
  simp only [State.endKilled]
  split <;> simp [h]
@[simp] theorem State.leaveSaved_wf (gid : Nat) (g : Gang) (by_ : Nat) (area : Dword) (kept : List KeptStream) (bars : List Nat) (h : Memory.wf s.mem = true) :
    Memory.wf (s.leaveSaved gid g by_ area kept bars).mem = true := by
  simp only [State.leaveSaved]
  repeat' split
  all_goals simp [h]

theorem streamElementArrival_wf (core k i : Nat) (h : Memory.wf s.mem = true) : WfMem (streamElementArrival core k i s) := by
  simp only [streamElementArrival]
  repeat' split
  all_goals simp [h]
theorem streamRed2FinalWrite_wf (core k e : Nat) (h : Memory.wf s.mem = true) : WfMem (streamRed2FinalWrite core k e s) := by
  simp only [streamRed2FinalWrite]
  repeat' split
  all_goals simp [h]
theorem dispatcherTakeRecord_wf (src : Nat) (h : Memory.wf s.mem = true) : WfMem (dispatcherTakeRecord src s) := by
  simp only [dispatcherTakeRecord]
  split
  · exact wfMem_none
  rw [wfMem_map]
  intro r _
  split <;> simp [apply_ite, h]
theorem dispatchPlace_wf (h : Memory.wf s.mem = true) : WfMem (dispatchPlace s) := by
  simp only [dispatchPlace]
  repeat' split
  all_goals simp [h]
theorem gangComplete_wf (gid : Nat) (h : Memory.wf s.mem = true) : WfMem (gangComplete gid s) := by
  simp only [gangComplete]
  repeat' split
  all_goals simp [h]
theorem contextSaveComplete_wf (gid : Nat) (h : Memory.wf s.mem = true) : WfMem (contextSaveComplete gid s) := by
  simp only [contextSaveComplete]
  repeat' split
  all_goals simp [h]
theorem saveBroken_wf (gid : Nat) (h : Memory.wf s.mem = true) : WfMem (saveBroken gid s) := by
  simp only [saveBroken]
  repeat' split
  all_goals simp [h]
theorem contextRestore_wf (gid : Nat) (h : Memory.wf s.mem = true) : WfMem (contextRestore gid s) := by
  simp only [contextRestore]
  split
  · exact wfMem_none
  split
  · exact wfMem_none
  split
  · exact wfMem_none
  refine (wfMem_ite ..).2 ⟨fun _ => wfMem_none, fun _ => ?_⟩
  refine WfMem.map (WfMem.bind ((State.restoreStrands_mem ..).wfMem (by simp [h])) fun t ht =>
    WfMem.bind ((State.restoreTiles_mem ..).wfMem ht) fun u hu => WfMem.bind ((State.restoreStreams_mem ..).wfMem hu) fun v hv => ?_) fun u hu => by simp [hu]
  split
  · exact (State.restoreWindow_mem ..).wfMem hv
  · simpa using hv
theorem routerRecordWrite_wf (core : Nat) (h : Memory.wf s.mem = true) : WfMem (routerRecordWrite core s) := by
  simp only [routerRecordWrite]
  repeat' split
  all_goals simp [h]
theorem hardTrip_wf (h : Memory.wf s.mem = true) : WfMem (hardTrip s) := by
  simp [hardTrip, Memory.wf_filter, h]
theorem packageReset_wf (h : Memory.wf s.mem = true) : WfMem (packageReset s) := (wfMem_some _).2 (State.packageResetOf_wf h)
theorem hotReset_wf (h : Memory.wf s.mem = true) : WfMem (hotReset s) := (wfMem_some _).2 (State.packageResetOf_wf h)
theorem hostAtomicop_wf (op size pa value cmp : Nat) (h : Memory.wf s.mem = true) : WfMem (hostAtomicop op size pa value cmp s) := by
  simp [hostAtomicop, h]
theorem hostPostedWrite_wf (pa size value : Nat) (h : Memory.wf s.mem = true) : WfMem (hostPostedWrite pa size value s) := by
  simp [hostPostedWrite, h]
theorem fabricAccessArrival_wf (p kind size o value : Nat) (h : Memory.wf s.mem = true) : WfMem (fabricAccessArrival p kind size o value s) := by
  simp [fabricAccessArrival, -Nat.reducePow, h]
theorem storePerform_wf (sid q k : Nat) (h : Memory.wf s.mem = true) : WfMem (storePerform sid q k s) := by
  simp only [storePerform]
  repeat' split
  all_goals simp [h]
theorem heldWriteRelease_wf (line : Nat) (h : Memory.wf s.mem = true) : WfMem (heldWriteRelease line s) := by
  simp only [heldWriteRelease]
  repeat' split
  all_goals simp [h]
theorem atomicPerform_wf (sid q : Nat) (h : Memory.wf s.mem = true) : WfMem (atomicPerform sid q s) := by
  simp only [atomicPerform]
  repeat' split
  all_goals simp [h]
theorem vamergeFold_wf (sid q : Nat) (h : Memory.wf s.mem = true) : WfMem (vamergeFold sid q s) := by
  simp only [vamergeFold]
  repeat' split
  all_goals simp [h]
end

/-! ### Every instruction and every event -/

@[simp] theorem State.act_mem {s : State} {o : Option State} (h : SameMem s.mem o) : NextMem s.mem (s.act o) := by simp [State.act, h]

/-- The machine events that can change bytes of memory: those that perform a write, clear a scratchpad or reset the package. Nothing else does. -/
def mayWrite : Instr → Bool
  | .storePerform _ _ _ | .streamElementArrival _ _ _ | .streamRed2FinalWrite _ _ _ | .atomicPerform _ _
  | .heldWriteRelease _ | .vamergeFold _ _ | .routerRecordWrite _ | .contextSaveComplete _
  | .saveBroken _ | .contextRestore _ | .dispatcherTakeRecord _ | .dispatchPlace
  | .gangComplete _ | .hardTrip | .hostAtomicop _ _ _ _ _ | .hotReset
  | .fabricAccessArrival _ _ _ _ _ | .packageReset | .hostPostedWrite _ _ _ => true
  | _ => false

/-- The split is by instruction: a form is settled by the frame of the shared operation it runs, a form or an event without one by the frame
lemmas of what its body does. -/
theorem exec_mem (i : Instr) (s : State) (h : mayWrite i = false) : NextMem s.mem (exec i s) := by
  cases i with
  | mov o | sel o | movi o | orhi o | teq o | tne o | tlt o | tltu o | tle o | tleu o | tgt o | tgtu o | tge o | tgeu o | tbit o | teqi o | tnei o
  | tlti o | tltui o | tlei o | tleui o | tgti o | tgtui o | tgei o | tgeui o | tbiti o | add o | sub o | mul o | mulh o | mulhu o | and o | or o
  | xor o | andn o | shl o | shr o | sra o | rotl o | rotr o | min o | max o | minu o | maxu o | clz o | ctz o | popc o | sextb o | sexth o | sextw o
  | zextb o | zexth o | zextw o | abs o | addi o | andi o | ori o | xori o | shli o | shri o | srai o | rotli o | muli o | leai o | cMov o | cInc o
  | cDec o | cNot o | cNeg o | cZextw o | cSextw o | cZero o | cOne o => simp; exact State.compute_mem ..
  | div o | divu o | rem o | remu o | fdivS o | fsqrtS o | frsqrtS o | fdivD o | fsqrtD o | frsqrtD o => simp; exact State.divide_mem ..
  | faddS o | fsubS o | fmulS o | fmaS o | fminS o | fmaxS o | fcvtfiS o | fcvtifS o | fcvtffS o | fteqS o | ftltS o | ftleS o | fclassS o | faddD o
  | fsubD o | fmulD o | fmaD o | fminD o | fmaxD o | fcvtfiD o | fcvtifD o | fcvtffD o | fteqD o | ftltD o | ftleD o | fclassD o =>
    simp; exact State.float_mem ..
  | ldb o | ldbu o | ldh o | ldhu o | ldw o | ldwu o | ldd o => simp; exact State.load_mem ..
  | stb o | sth o | stw o | std o | stqw o | stqd o => simp; exact State.store_mem ..
  | aadd o | aand o | aor o | axor o | amin o | amax o | aminu o | amaxu o | aswap o | acas o | ainc o | abfa o | aaddw o | acasw o | aincw o =>
    simp; exact State.amo_mem ..
  | fenceAcq o | fenceRel o | fenceAr o | fenceSc o => simp; exact State.fence_mem ..
  | vadd o | vsub o | vrsub o | vmul o | vmadd o | vmsub o | vnmadd o | vsqrt o | vrsqrt o | vrecip o | vmin o | vmax o | vabs o | vneg o | vadds o
  | vsubs o | vmuls o | vmadds o | vmins o | vmaxs o => simp; exact State.vecArith_mem ..
  | vmulh o | vdiv o | vrem o | vsadd o | vssub o | vaadd o | vsmul o | vnclip o | vnsra o | vcvt o | vbcast o => simp; exact State.vecElems_mem ..
  | vand o | vor o | vxor o | vnot o | vshl o | vshr o | vsra o | vclass o | vshls o => simp; exact State.vecRaw_mem ..
  | vmerge o | vid o | vperm o | vslup o | vsldn o => simp; exact State.vecMove_mem ..
  | vceq o | vcne o | vclt o | vcle o | vcgt o | vcge o | vcun o => simp; exact State.vecCmp_mem ..
  | vrsum o | vrosum o | vrmax o | vrmin o | vrand o | vror o | vrxor o | vrsummx o => simp; exact State.vecReduce_mem ..
  | mand o | mor o | mxor o | mandn o | mnot o | mset o | mclr o | mfromv o => simp; exact State.maskForm_mem ..
  | vld o | vlds o | vldx o | vldseg o | vldff o | vldxo o | vldmx o => simp; exact State.vecLoad_mem ..
  | vst o | vsts o | vstx o | vstseg o | vstxo o | vsto o | vstmx o => simp; exact State.vecStore_mem ..
  | mzero o | mop o | mopmx o | mopd o | mvrow o => simp; exact State.tileForm_mem ..
  | mld o | mst o => simp; exact State.tileMove_mem ..
  | mrowv o | mcolv o => simp; exact State.tileRead_mem ..
  | spawn o => simp; exact execSpawn_mem ..
  | ctlRd o => simp; exact execCtlRd_mem ..
  | ctlWr o => simp; exact execCtlWr_mem ..
  | vlset o => simp; exact execVlset_mem ..
  | vlmax o => simp; exact execVlmax_mem ..
  | vamerge o => simp; exact execVamerge_mem ..
  | ctxLoad o => simp; exact execCtxLoad_mem ..
  | cpsCfg o => simp; exact execCpsCfg_mem ..
  | vacc o => simp; exact execVacc_mem ..
  | read o | null o | lpci o | br o | call o | bro o | callo o | halt o | yld o | sys o | brk o | bar o | gid o | gsize o | cid o | sleep o
  | scopeSet o | scopeGet o | scopeInv o | scopeGen o | qtime o | qlocal o | qdl o | qper o | tret o | tlbInv o | ctxSave o | vlget o
  | vrel o | vgrant o | vawin o | vawclr o | cpsGo o | cpsStep o | cpsAvail o | cpsWait o | cpsKill o | cNull o | vcvtmx o | vcompress o | vext o
  | vcnt o | mpop o | mfirst o | vins o | vldcs o | vgl o | vsc o | vwait o | mshape o =>
    simp [execRead, execNull, execLpci, execBr, execCall, execBro, execCallo, execHalt, execYld, execSys, execBrk, execBar, execGid, execGsize,
      execCid, execSleep, execScopeSet, execScopeGet, execScopeInv, execScopeGen, execQtime, execQlocal, execQdl, execQper, execTret, execTlbInv,
      execCtxSave, execVlget, execVrel, execVgrant, execVawin, execVawclr, execCpsGo, execCpsStep, execCpsAvail, execCpsWait, execCpsKill, execCNull,
      execVcvtmx, execVcompress, execVext, execVcnt, execMpop, execMfirst, execVins, execVldcs, execVgl, execVsc, execVwait, execMshape]
  | blockFetch _ _ | blockStart _ | blockQuiescent _ | blockTimeout _ | scalarProbeComplete _ _ | loadDataReturn _ _ _ | stampReturn _ _
  | divideStart _ | divideComplete _ _ | fpDivideStart _ | fpDivideComplete _ | vectorDispatch _ | vectorExecuteStart _ | vectorExecuteDone _
  | fifoAccept _ _ | laneSliceGate _ _ | localCountCheck _ _ | pllRelockStop _ | pllRelockEnd _ | referenceClockLoss | referenceClockReturn
  | marginWarning | matrixIssue _ | matrixPerformDone _ | tileMemoryMoveDone _ | streamStripFetch _ _ | streamDone _ _ | streamAccessFault _ _ _
  | interlockWaitEnd _ | scopeAcknowledge _ _ _ | atomicOldValueReturn _ _ | vaccUpdatePerform _ _ _ | watchedLineWrite _ _ | qdlDeadlinePass _
  | sleepExpiry _ | barrierArrival _ | l1LineInvalidate _ _ | l2Eviction _ _ | tlbWalkComplete _ | tlbInvalidatePerform _ | replayPendingReplay _
  | fatalRecord _ _ _ | resumeGo _ _ | resumeRedirect _ _ | resumeKill _ _ | contextSaveStart _ | qwrWrite _ _ | preemptWaitExpiry _
  | reclaimTimeout _ | laneGrant _ | clusterIdleEntry _ | clusterWake _ | clusterExitDone _ | packageC4Entry | packageC4Exit | quiesceDrain _
  | quiesceEvict _ | quiesceHold _ | quiesceRelease _ | clusterQuiesced _ | clusterWakeWrite _ _ | controlInterval _ | fastLimiterSample _
  | thermalControlInterval _ _ | thermalEmergency | peakClear | aostatLogClear | hbmCorrectedError _ | hbmUncorrectableError _ _ | patrolScrub _
  | channelIdleLend _ _ | lendHandshakeDone _ _ | lendReverse _ _ | dieLinkLaneError _ | linkRetrainDone _ | hostLinkDown | hostLinkUp
  | flitReceive _ _ | flitNakReplay _ _ | flitReplayTimeout _ | laneErrorInterval _ _ | portRetrainDone _ | portTrainingTimeout _
  | remoteLostDeferred _ | mctpMessage _ | tlbInvStart | portDisable _ | registerWrite _ _ _ | firmwareVerifyDone _ | dieLinksTrained _
  | hostPortTrained | hbmTrained _ | hostdnClear | lendDisable _ =>
    simp [execBlockFetch, execBlockStart, execBlockQuiescent, execBlockTimeout, execScalarProbeComplete, execLoadDataReturn, execStampReturn,
      execDivideStart, execDivideComplete, execFpDivideStart, execFpDivideComplete, execVectorDispatch, execVectorExecuteStart,
      execVectorExecuteDone, execFifoAccept, execLaneSliceGate, execLocalCountCheck, execPllRelockStop, execPllRelockEnd, execReferenceClockLoss,
      execReferenceClockReturn, execMarginWarning, execMatrixIssue, execMatrixPerformDone, execTileMemoryMoveDone, execStreamStripFetch,
      execStreamDone, execStreamAccessFault, execInterlockWaitEnd, execScopeAcknowledge, execAtomicOldValueReturn, execVaccUpdatePerform,
      execWatchedLineWrite, execQdlDeadlinePass, execSleepExpiry, execBarrierArrival, execL1LineInvalidate, execL2Eviction, execTlbWalkComplete,
      execTlbInvalidatePerform, execReplayPendingReplay, execFatalRecord, execResumeGo, execResumeRedirect, execResumeKill, execContextSaveStart,
      execQwrWrite, execPreemptWaitExpiry, execReclaimTimeout, execLaneGrant, execClusterIdleEntry, execClusterWake, execClusterExitDone,
      execPackageC4Entry, execPackageC4Exit, execQuiesceDrain, execQuiesceEvict, execQuiesceHold, execQuiesceRelease, execClusterQuiesced,
      execClusterWakeWrite, execControlInterval, execFastLimiterSample, execThermalControlInterval, execThermalEmergency, execPeakClear,
      execAostatLogClear, execHbmCorrectedError, execHbmUncorrectableError, execPatrolScrub, execChannelIdleLend, execLendHandshakeDone,
      execLendReverse, execDieLinkLaneError, execLinkRetrainDone, execHostLinkDown, execHostLinkUp, execFlitReceive, execFlitNakReplay,
      execFlitReplayTimeout, execLaneErrorInterval, execPortRetrainDone, execPortTrainingTimeout, execRemoteLostDeferred, execMctpMessage,
      execTlbInvStart, execPortDisable, execRegisterWrite, execFirmwareVerifyDone, execDieLinksTrained, execHostPortTrained, execHbmTrained,
      execHostdnClear, execLendDisable]
  | _ => cases h

/-- An outcome whose next state, where it has one, holds memory in canonical form. -/
structure NextWf (o : Out) : Prop where
  wf : ∀ s, o = .next s → Memory.wf s.mem = true

theorem nextWf_next {s : State} (h : Memory.wf s.mem = true) : NextWf (.next s) := ⟨by rintro _ ⟨rfl⟩; exact h⟩
theorem nextWf_fault (r : Fault) : NextWf (.fault r) := ⟨by simp⟩
theorem nextWf_refused (r : Refusal) : NextWf (.refused r) := ⟨by simp⟩
theorem NextMem.nextWf {m : List Host.Cell} {o : Out} (h : NextMem m o) (hm : Memory.wf m = true) : NextWf o := ⟨fun s hs => h.mem_eq s hs ▸ hm⟩
theorem State.act_wf {s : State} {o : Option State} (ho : WfMem o) (h : Memory.wf s.mem = true) : NextWf (s.act o) := by
  cases o with
  | none => exact nextWf_next h
  | some u => exact nextWf_next (ho.wf u rfl)

/-- What may not write leaves the bytes as they were; each event that may write keeps the form by its own lemma. -/
theorem exec_wf (i : Instr) {s : State} (h : Memory.wf s.mem = true) : NextWf (exec i s) := by
  cases hw : mayWrite i with
  | false => exact (exec_mem i s hw).nextWf h
  | true =>
    cases i with
    | storePerform sid item seg => simp; exact State.act_wf (storePerform_wf _ _ _ h) h
    | streamElementArrival core stream elem => simp; exact State.act_wf (streamElementArrival_wf _ _ _ h) h
    | streamRed2FinalWrite core stream elem => simp; exact State.act_wf (streamRed2FinalWrite_wf _ _ _ h) h
    | atomicPerform sid item => simp; exact State.act_wf (atomicPerform_wf _ _ h) h
    | heldWriteRelease line => simp; exact State.act_wf (heldWriteRelease_wf _ h) h
    | vamergeFold sid item => simp; exact State.act_wf (vamergeFold_wf _ _ h) h
    | routerRecordWrite core => simp; exact State.act_wf (routerRecordWrite_wf _ h) h
    | contextSaveComplete gang => simp; exact State.act_wf (contextSaveComplete_wf _ h) h
    | saveBroken gang => simp; exact State.act_wf (saveBroken_wf _ h) h
    | contextRestore gang => simp; exact State.act_wf (contextRestore_wf _ h) h
    | dispatcherTakeRecord src => simp; exact State.act_wf (dispatcherTakeRecord_wf _ h) h
    | dispatchPlace => simp; exact State.act_wf (dispatchPlace_wf h) h
    | gangComplete gang => simp; exact State.act_wf (gangComplete_wf _ h) h
    | hardTrip => simp; exact State.act_wf (hardTrip_wf h) h
    | hostAtomicop op size addr value cmp => simp; exact State.act_wf (hostAtomicop_wf _ _ _ _ _ h) h
    | hotReset => simp; exact State.act_wf (hotReset_wf h) h
    | fabricAccessArrival port kind size offset value => simp; exact State.act_wf (fabricAccessArrival_wf _ _ _ _ _ h) h
    | packageReset => simp; exact State.act_wf (packageReset_wf h) h
    | hostPostedWrite addr size value => simp; exact State.act_wf (hostPostedWrite_wf _ _ _ h) h
    | _ => cases hw

theorem fireRaw_wf (x : Nat) {s : State} (h : Memory.wf s.mem = true) : NextWf (fireRaw x s) := by
  unfold fireRaw
  split
  · exact exec_wf _ h
  · exact nextWf_refused _

theorem State.fireAt_wf {s : State} (sid idx : Nat) (h : Memory.wf s.mem = true) : NextWf (s.fireAt sid idx) := by
  unfold State.fireAt
  split
  · exact fireRaw_wf _ h
  · exact nextWf_next h

theorem perform_wf (a : Activity) {s : State} (h : Memory.wf s.mem = true) : NextWf (perform a s) := by
  cases a with
  | fire sid idx =>
    rw [perform]
    split
    · exact State.fireAt_wf sid idx h
    · exact nextWf_fault _
  | event i =>
    rw [perform]
    split
    · split
      · exact exec_wf i h
      · exact nextWf_next h
    · exact nextWf_fault _
  | tick q =>
    rw [perform]
    split
    · exact nextWf_next (by simpa using h)
    · exact nextWf_fault _

theorem step_wf {s : State} (h : Memory.wf s.mem = true) : NextWf (step s) := by
  unfold step
  split
  · exact perform_wf _ h
  · exact perform_wf _ h

/-- Settles O58: `step_wf`, by cases on what the step performs, with `exec_wf` for every instruction and every event. -/
theorem stepKeepsMemoryForm : Obligations.StepKeepsMemoryForm :=
  fun _ s' h hs => (step_wf h).wf s' hs

end Sys2Proof.Machine

/-! SUPPORT. The vector length forms (R145, R146), and the arithmetic of the lanes (R151 to R171). `vlset` and `vlmax` are front-end forms, each with one
equation for a good format word and one for a bad one. An arithmetic form, a form with a table of its own and a reduction are each one shared operation
(`State.vecArith`, `State.vecElems`, `State.vecReduce`) with a parameter from the form's table; what the operation does once the form acts is said once, for
every table. -/

namespace Sys2Proof.Machine

open Sys2Proof

/-! ### The vector length forms -/

section
variable {o : GOp} {s : State} {t : Strand} {w : Window} {sub : Nat}

/-- What `vlset` gives for the requested count on its left slot and the format word on its right (R145). -/
def State.vlsetCount (s : State) (t : Strand) (w : Window) : Nat :=
  min (s.left w).toNat (min (lengthOfWord t.slabs (s.right w).toNat) t.vceil.toNat)

theorem exec_vlset_of_good (h : s.fires (Instr.vlset o).view t w) (hw : lengthWordBad (s.right w).toNat = none) :
    exec (.vlset o) s = .next (s.updWin s.cursor.sid fun w' =>
      (({ w'.fire s.cursor.idx false with vl := some (s.vlsetCount t w) }).post s.cursor.idx (.vlset t.slabs)).deliverAll s.cursor.idx
        (s.token (.val (BitVec.ofNat 64 (s.vlsetCount t w)))) (Instr.vlset o).view.targets) := by
  simp only [view_vlset] at h
  simp only [exec_vlset, execVlset, run_of_fires _ h, ctxOf_r, hw, ctxOf_sid, ctxOf_idx, ctxOf_l, ctxOf_t, didFire_updWin, give_updWin _ _ h]
  rfl

theorem exec_vlset_of_bad (h : s.fires (Instr.vlset o).view t w) (hw : lengthWordBad (s.right w).toNat = some sub) :
    exec (.vlset o) s = .next (s.faulted 0x06 sub 0 0) := by
  simp only [view_vlset] at h
  simp only [exec_vlset, execVlset, run_of_fires _ h, ctxOf_r, hw, ctxOf_sid, ctxOf_idx, kFmtWord, raise_didFire _ _ _ _ h]

theorem exec_vlmax_of_good (h : s.fires (Instr.vlmax o).view t w) (hw : lengthWordBad (s.left w).toNat = none) :
    exec (.vlmax o) s = .next (s.answered (Instr.vlmax o).view (.val (BitVec.ofNat 64 (lengthOfWord t.slabs (s.left w).toNat)))) := by
  simp only [view_vlmax] at h ⊢
  simp only [exec_vlmax, execVlmax, run_of_fires _ h, ctxOf_l, hw, ctxOf_t, give_didFire _ h]

theorem exec_vlmax_of_bad (h : s.fires (Instr.vlmax o).view t w) (hw : lengthWordBad (s.left w).toNat = some sub) :
    exec (.vlmax o) s = .next (s.faulted 0x06 sub 0 0) := by
  simp only [view_vlmax] at h
  simp only [exec_vlmax, execVlmax, run_of_fires _ h, ctxOf_l, hw, ctxOf_sid, ctxOf_idx, kFmtWord, raise_didFire _ _ _ _ h]
end

/-- Settles O25: the formula of R145 is `lengthOfWord` of the grant that the forms see; then one lemma for each form and each outcome of the check of its format
word. -/
theorem vectorLengthForms : Obligations.VectorLengthForms := by
  unfold Obligations.VectorLengthForms
  intro o s t w most
  have most_eq (f : Nat) : most f = lengthOfWord t.slabs f := by
    simp only [most, lengthOfWord, Strand.slabs]
    cases t.posted <;> rfl
  simp only [most_eq]
  exact ⟨fun h => ⟨exec_vlset_of_good h, fun _ => exec_vlset_of_bad h⟩, fun h => ⟨exec_vlmax_of_good h, fun _ => exec_vlmax_of_bad h⟩⟩

/-! ### The shared operations of the lane arithmetic, once an instruction acts -/

section
variable {s : State} {v : View} {t : Strand} {w : Window} {p : PipeE}

/-- What an operation on elements writes of its destination group (R137, R151): its elements, their draws and events, then the tail. -/
def Window.writeElems (w : Window) (t : Strand) (idx : Nat) (o : VOp) (e : VEnv) (draws : Bool) (op : Nat → Nat → Nat × Nat) : Window :=
  let r := elemsLoop t idx e.fd.width e draws (fwMask e.fw) op w
  r.2.putGroup idx o.vd.toNat (fwGroup e.fw) e.vb (withTail e.old (8 * e.vb * fwGroup e.fw) e.n e.fd.width (fwTail e.fw) r.1)

/-- The operands of a form that acts at the cursor, with the scalar of its left slot for VS2 where it has one (R171). -/
def State.vEnvAt (s : State) (v : View) (t : Strand) (w : Window) (o : VOp) (scalar : Bool) (w' : Window) : VEnv :=
  vEnv t w' s.cursor.idx v o (if scalar then some (s.left w).toNat else none)

theorem vecElems_of_executes (o : VOp) (scalar : Bool) (draws : VEnv → Bool) (op : VEnv → Nat → Nat → Nat × Nat) (h : s.executes v t w p) :
    s.vecElems v o scalar draws op = .next ((s.didExecute p).updWin s.cursor.sid fun w' =>
      w'.writeElems t s.cursor.idx o (s.vEnvAt v t w o scalar w') (draws (s.vEnvAt v t w o scalar w')) (op (s.vEnvAt v t w o scalar w'))) :=
  runVec_of_executes _ h

theorem vecReduce_of_executes (vop : Nat) (o : VOp) (scalar : Bool) (f : Strand → Nat → VEnv → Window → Option Nat × Window)
    (h : s.executes (.v 0x26 vop o) t w p) :
    s.vecReduce vop o scalar f = .next ((s.didExecute p).updWin s.cursor.sid fun w' =>
      let e := s.vEnvAt (.v 0x26 vop o) t w o scalar w'
      (f t s.cursor.idx e w').2.putGroup s.cursor.idx o.vd.toNat (fwGroup e.fw) e.vb (e.reduced (f t s.cursor.idx e w').1)) :=
  runVec_of_executes _ h
end

/-- A fixed-point operation that shifts by nothing rounds nothing (R132). -/
theorem fixElem_zero (e : VEnv) (x : Int) (sat : Bool) : fixElem e x 0 sat = putInt e.fd.signed e.fd.width sat x := by
  simp [fixElem, fxShift]

/-! ### Each form is its shared operation with its table -/

section
variable {i : Instr} {o : VOp} {sc : Bool} (s : State)

theorem exec_of_arithForm {f : ArithOp} (h : ArithForm i o sc f) : exec i s = s.vecArith i.view o sc f := by
  cases h <;> rfl

theorem exec_of_elemForm {draws : VEnv → Bool} {f : VEnv → Nat → Nat → Nat × Nat} (h : ElemForm i o sc draws f) :
    exec i s = s.vecElems i.view o sc draws f := by
  cases h with
  | vsadd | vssub => simp only [exec_vsadd, exec_vssub, execVsadd, execVssub, fixElem_zero]; rfl
  | vmulh | vdiv | vrem | vsra | vaadd | vsmul | vnclip | vnsra | vclass | vcvt | vbcast => rfl

theorem exec_of_reduceForm {f : Strand → Nat → VEnv → Window → Option Nat × Window} (h : ReduceForm i o sc f) :
    ∃ vop, i.view = .v 0x26 vop o ∧ exec i s = s.vecReduce vop o sc f := by
  cases h <;> exact ⟨_, rfl, rfl⟩
end

/-! ### The results of the reductions -/

section
variable {e : VEnv} {j : Nat} {js : List Nat} (t : Strand) (idx : Nat) (w : Window)

/-- A rounding draws nothing unless the mode is stochastic (R130, R175). -/
theorem VEnv.roundAt_fst (hm : fwFrnd e.fw ≠ 5) (at_ : Nat) (x : XV) (ev : Nat) : (e.roundAt t idx at_ w x ev).1 = (e.put 0 x).1 := by
  have draw_zero : (if e.fd.isFlt then w.drawIf t (fwFrnd e.fw) (laneOf e.vb e.wm at_) else (0, w)).1 = 0 := by
    simp [Window.drawIf, hm]
  simp only [VEnv.roundAt, draw_zero]

section
variable (h : e.actives = [])
include h
theorem rsumOf_nil : rsumOf t idx e w = (none, w) := by simp [rsumOf, h]
theorem rosumOf_nil : rosumOf t idx e w = (some (e.scalar.getD 0 % 2 ^ e.fd.width), w) := by simp [rosumOf, h]
theorem rpickOf_nil (f : XV → XV → XV) : rpickOf f t idx e w = (none, w) := by simp [rpickOf, h]
theorem rbitsOf_nil (g : Nat → Nat → Nat) : rbitsOf g t idx e w = (none, w) := by simp [rbitsOf, h]
end

section
variable (h : e.actives = j :: js)
include h
theorem rsumOf_int (hi : e.f1.isInt = true) :
    (rsumOf t idx e w).1 = some (putInt e.fd.signed e.fd.width (fwSat e.fw) ((j :: js).foldl (fun a k => a + e.aInt k) 0)).1 := by
  simp [rsumOf, hi, VEnv.intSum, h]
theorem rosumOf_int (hi : e.f1.isInt = true) :
    (rosumOf t idx e w).1 = some (putInt e.fd.signed e.fd.width (fwSat e.fw) ((j :: js).foldl (fun a k => a + e.aInt k)
      (intOf e.fd.signed e.fd.width (e.scalar.getD 0 % 2 ^ e.fd.width)))).1 := by
  simp [rosumOf, hi, VEnv.intSum, h]
theorem rpickOf_cons (hm : fwFrnd e.fw ≠ 5) (f : XV → XV → XV) :
    (rpickOf f t idx e w).1 = some (e.put 0 (js.foldl (fun x k => f x (e.aX k)) (e.aX j))).1 := by
  simp [rpickOf, h, VEnv.roundAt_fst t idx _ hm]
theorem rbitsOf_cons (g : Nat → Nat → Nat) : rbitsOf g t idx e w = (some (js.foldl (fun x k => g x (e.pa k)) (e.pa j)), w) := by
  simp [rbitsOf, h]
end

/-- One rounding for each active element in order (R167): the fold that carries the block gives the same accumulator as the fold of the accumulator alone,
since without draws no rounding looks at the block. -/
theorem rosumOf_flt (hm : fwFrnd e.fw ≠ 5) (hi : e.f1.isInt = false) :
    (rosumOf t idx e w).1 = some (e.actives.foldl (fun acc k => (e.put 0 ((elemValue e.fd acc 0).add e.rdn (e.aX k))).1)
      (e.scalar.getD 0 % 2 ^ e.fd.width)) := by
  simp only [rosumOf, hi, Bool.false_eq_true, if_false, Option.some.injEq]
  exact (List.foldl_hom Prod.fst fun st k => (VEnv.roundAt_fst t idx st.2 hm k _ _).symm).symm
end

/-- Settles O32: each form is its shared operation with its own table, which acts as the operation's one lemma says; then the results of the reductions, by
whether an element is active. -/
theorem vectorArithmetic : Obligations.VectorArithmetic := by
  unfold Obligations.VectorArithmetic
  refine ⟨?arith, ?elem, ?reduce, ?results⟩
  case arith =>
    intro i o sc f s t w p hf h
    rw [exec_of_arithForm s hf]
    exact vecElems_of_executes o sc _ _ h
  case elem =>
    intro i o sc draws f s t w p hf h
    rw [exec_of_elemForm s hf]
    exact vecElems_of_executes o sc draws f h
  case reduce =>
    intro i o sc f s t w p hf h
    obtain ⟨vop, hv, he⟩ := exec_of_reduceForm s hf
    rw [hv] at h ⊢
    rw [he]
    exact vecReduce_of_executes vop o sc f h
  case results =>
    intro t idx e w
    refine ⟨fun h => ⟨rsumOf_nil t idx w h, rosumOf_nil t idx w h, fun f g => ⟨rpickOf_nil t idx w h f, rbitsOf_nil t idx w h g⟩⟩, fun j js h => ?_⟩
    refine ⟨fun hi => ⟨rsumOf_int t idx w h hi, rosumOf_int t idx w h hi⟩, fun hm => rpickOf_cons t idx w h hm, fun hm hi => ?_, rbitsOf_cons t idx w h⟩
    rw [← h]
    exact rosumOf_flt t idx w hm hi

end Sys2Proof.Machine

/-! SUPPORT. Memory channels, die links, bring-up and the reference clock (R283, R349 to R354, R365, R366). A happening outside the cores whose condition
holds answers the one next state that its definition names, so most of what is stated is that state with its fields read off. Two things need more: the loops
over clusters, dies, ports, lent channels and gangs, for which `foldl_keeps` and `foldl_establishes` say what a loop leaves alone and what it brings about;
and what a reset keeps of memory, which is a filter of a sorted map. -/

namespace Sys2Proof

/-! ### Loops -/

section
variable {σ α : Type} {f : σ → α → σ}

/-- What no step of a loop changes, the loop does not change. -/
theorem foldl_keeps {β : Type} (g : σ → β) (h : ∀ u a, g (f u a) = g u) (l : List α) (s : σ) : g (l.foldl f s) = g s :=
  List.foldlRecOn l f (motive := fun u => g u = g s) rfl fun u hu a _ => (h u a).trans hu

/-- What one step of a loop brings about, from a condition that every step keeps, holds after the loop, if every step keeps it too. -/
theorem foldl_establishes {I P : σ → Prop} {k : α} (hI : ∀ u a, I u → I (f u a)) (hP : ∀ u a, P u → P (f u a)) (hset : ∀ u, I u → P (f u k)) :
    ∀ (l : List α) (s : σ), k ∈ l → I s → P (l.foldl f s)
  | a :: l, s, hk, hs => by
    rcases List.mem_cons.1 hk with rfl | hk
    · exact List.foldlRecOn l f (hset s hs) fun u hu b _ => hP u b hu
    · exact foldl_establishes hI hP hset l _ hk (hI s a hs)
end

/-! ### Sparse maps -/

section
variable {α : Type}

theorem NMap.mem_of_get? {m : NMap α} {n : Nat} {x : α} (h : m.get? n = some x) : (n, x) ∈ m := by
  induction m with
  | nil => simp [NMap.get?] at h
  | cons kv m ih =>
    obtain ⟨k, v⟩ := kv
    simp only [NMap.get?] at h
    split at h
    · simp_all
    · split at h
      · simp at h
      · exact List.mem_cons_of_mem _ (ih h)

/-- A map has no key that no entry of it has. -/
theorem NMap.has_eq_false {m : NMap α} {n : Nat} (h : ∀ kv ∈ m, kv.1 ≠ n) : m.has n = false := by
  rw [NMap.has, Option.isSome_eq_false_iff, Option.isNone_iff_eq_none, Option.eq_none_iff_forall_ne_some]
  exact fun x hx => h _ (NMap.mem_of_get? hx) rfl

/-- Filtering a sorted map by its keys: a key that passes reads as before, another reads as unlisted. -/
theorem NMap.get?_filter_key (p : Nat → Bool) (m : NMap α) (n : Nat) (h : NMap.sorted m = true) :
    NMap.get? (m.filter fun kv => p kv.1) n = if p n then m.get? n else none := by
  induction m with
  | nil => simp [NMap.get?]
  | cons kv m ih =>
    obtain ⟨k, v⟩ := kv
    have hlt := NMap.lt_of_sorted _ _ h
    have ih := ih (NMap.sorted_tail _ _ h)
    by_cases hn : n ≤ k
    · -- the rest of the map lies above `n`
      have hrest : NMap.get? (m.filter fun kv => p kv.1) n = none :=
        NMap.get?_of_lt _ _ fun b hb => Nat.lt_of_le_of_lt hn (hlt b (List.mem_filter.1 hb).1)
      rcases Nat.eq_or_lt_of_le hn with rfl | hn
      · cases hp : p n <;> simp [hp, NMap.get?, hrest]
      · cases hp : p k <;> simp [hp, NMap.get?, hrest, hn, Nat.ne_of_lt hn]
    · have h1 : n ≠ k := by omega
      have h2 : ¬n < k := by omega
      cases hp : p k <;> simp [hp, NMap.get?, h1, h2, ih]
end

end Sys2Proof

namespace Sys2Proof.Machine

open Sys2Proof

/-! ### What the shared operations of the links and of bring-up leave alone -/

section
variable (s : State)

/-- The loop over the clusters in which floors settle (R341, R354) changes nothing but EFF, with its level, of some clusters. -/
theorem State.settleFloors_keeps {β : Type} (g : State → β)
    (h : ∀ (u : State) (k now q : Nat) (lv : Cluster → Nat), g (u.updCluster k fun x => { x.setEff now q with level := lv x }) = g u) : g s.settleFloors = g s := by
  unfold State.settleFloors
  refine foldl_keeps g (fun u k => ?_) _ s
  dsimp only
  split
  · rfl
  · split
    · exact h u k u.now (u.floorFor k) (·.level)
    · rfl

@[simp] theorem State.settleFloors_board : s.settleFloors.board = s.board := s.settleFloors_keeps State.board fun _ _ _ _ _ => rfl
@[simp] theorem State.settleFloors_link (l : Nat) : s.settleFloors.link l = s.link l := s.settleFloors_keeps (·.link l) fun _ _ _ _ _ => rfl
@[simp] theorem State.settleFloors_die (d : Nat) : s.settleFloors.die d = s.die d := s.settleFloors_keeps (·.die d) fun _ _ _ _ _ => rfl
@[simp] theorem State.settleFloors_floor (c : Nat) : (s.settleFloors.cluster c).floor = (s.cluster c).floor :=
  s.settleFloors_keeps (fun u => (u.cluster c).floor) fun u k now q lv => by
    by_cases h : c = k
    · subst h; simp [Cluster.setEff]
    · simp [State.updCluster_cluster_other _ _ _ _ h]

@[simp] theorem State.updRegions_cluster (k c : Nat) (f : Region → Region) : (s.updRegions k f).cluster c = s.cluster c := rfl
@[simp] theorem State.updRegions_now (k : Nat) (f : Region → Region) : (s.updRegions k f).now = s.now := rfl

/-- A relock that began in this quantum gives way to the width reduction of a link (R354): one cluster of `State.undoRelocks`. -/
def State.undoRelock (s : State) (k : Nat) : State :=
  if (s.cluster k).stopAt = some s.now then (s.updCluster k fun x => { x with stopAt := none }).updRegions k fun r => { r with frozen := none } else s

theorem State.undoRelocks_eq : s.undoRelocks = (List.range 8).foldl State.undoRelock s := rfl

@[simp] theorem State.undoRelock_now (k : Nat) : (s.undoRelock k).now = s.now := by
  unfold State.undoRelock; split <;> rfl

/-- The relocks that began in this quantum are the ones that give way, each in its own cluster. -/
theorem State.undoRelock_stopAt (k c : Nat) :
    ((s.undoRelock k).cluster c).stopAt = if c = k ∧ (s.cluster c).stopAt = some s.now then none else (s.cluster c).stopAt := by
  unfold State.undoRelock
  by_cases h : c = k
  · subst h; split <;> simp_all
  · split <;> simp [h, State.updCluster_cluster_other _ _ _ _ h]

theorem State.undoRelocks_stopAt (c : Nat) (hc : c < 8) :
    (s.undoRelocks.cluster c).stopAt = if (s.cluster c).stopAt = some s.now then none else (s.cluster c).stopAt := by
  rw [State.undoRelocks_eq]
  split
  case isTrue h =>
    refine foldl_establishes (I := fun u : State => u.now = s.now ∧ ((u.cluster c).stopAt = some s.now ∨ (u.cluster c).stopAt = none))
      (P := fun u : State => (u.cluster c).stopAt = none) (k := c) ?_ ?_ ?_ _ s (List.mem_range.2 hc) ⟨rfl, .inl h⟩
    · rintro u k ⟨hnow, hstop⟩
      simp only [State.undoRelock_now, State.undoRelock_stopAt]
      split <;> simp_all
    · intro u k hu
      simp [State.undoRelock_stopAt, hu]
    · rintro u ⟨hnow, hstop⟩
      rcases hstop with hstop | hstop <;> simp [State.undoRelock_stopAt, hnow, hstop]
  case isFalse h =>
    have hkeeps := List.foldlRecOn (List.range 8) State.undoRelock (b := s)
      (motive := fun u : State => u.now = s.now ∧ (u.cluster c).stopAt = (s.cluster c).stopAt) ⟨rfl, rfl⟩
      fun u ⟨hnow, hstop⟩ k _ => by simp [State.undoRelock_stopAt, hnow, hstop, h]
    exact hkeeps.2

/-- A fatal record is no matter of the die links. -/
@[simp] theorem State.fatal_link (gid core sub pa l : Nat) : (s.fatal gid core sub pa).link l = s.link l := by
  unfold State.fatal; split <;> rfl

/-- A fatal record gives its gang the code of R301, and no other gang. -/
theorem State.fatal_gang (gid core sub pa x : Nat) :
    (s.fatal gid core sub pa).gangs.get? x =
      if x = gid then (s.gangs.get? x).map fun g => { g with stopped := some (stopCode g.stopped sub) } else s.gangs.get? x := by
  unfold State.fatal
  by_cases hx : x = gid
  · subst hx
    cases h : s.gangs.get? x <;> simp [h, State.stopGang, State.updGang, NMap.get?_adjust_self]
  · cases h : s.gangs.get? gid <;> simp [hx, State.stopGang, State.updGang, NMap.get?_adjust_other _ _ _ _ hx]
end

/-- A happening that has a next state answers it. -/
theorem State.act_of_some {s u : State} {r : Option State} (h : r = some u) : s.act r = .next u := by rw [h]; rfl

/-! ### Memory channels (R349, R350) -/

section
variable (s : State)

theorem exec_hbmCorrectedError_eq (d : Nat) (hd : d < 8) : exec (.hbmCorrectedError d) s =
    .next (s.updDie d fun x => { x with cecnt := if x.cecnt = BitVec.allOnes _ then x.cecnt else x.cecnt + 1 }) := by
  simp [execHbmCorrectedError, hbmCorrectedError, hd, State.act, satInc]

/-- No copy of a line that has left a core's L1 is there. -/
theorem Core.dropL1_line (c : Core) (l : Nat) :
    (c.dropL1 (· == l)).l1.has l = false ∧ ∀ gl ∈ (c.dropL1 (· == l)).gl1, ∀ b ∈ gl.bytes, lineOf b.1 ≠ l := by
  constructor
  · exact NMap.has_eq_false fun kv hkv => by simpa using (List.mem_filter.1 hkv).2
  · intro gl hgl
    simpa using (List.mem_filter.1 hgl).2

/-- Changing every core that is listed changes every core by number, where the default one is not changed. -/
theorem core_mapVals (f : Core → Core) (h : f .reset = .reset) (c : Nat) : State.core { s with cores := s.cores.mapVals fun _ => f } c = f (s.core c) := by
  simp only [State.core, NMap.getD, NMap.get?_mapVals]
  cases s.cores.get? c <;> simp [h]

/-- Whether a line is bad is a matter of its die. -/
theorem State.poisoned_cores (cs : NMap Core) (pa : Nat) : State.poisoned { s with cores := cs } pa = s.poisoned pa := rfl

theorem exec_hbmUncorrectableError_bad (pa : Nat) (hpa : pa < hbmTop) :
    ∃ s', exec (.hbmUncorrectableError (homeDie pa) pa) s = .next s' ∧ s'.mem = s.mem ∧ s'.poisoned pa = true ∧
      ∀ c, (s'.core c).l1.has (pa / 64) = false ∧ ∀ gl ∈ (s'.core c).gl1, ∀ b ∈ gl.bytes, lineOf b.1 ≠ pa / 64 := by
  have hok : ¬(hbmTop ≤ pa ∨ homeDie pa ≠ homeDie pa) := by simpa using hpa
  refine ⟨_, State.act_of_some (if_neg hok), rfl, ?_, fun c => ?_⟩
  · rw [State.poisoned_cores]
    simp only [State.poisoned, State.updDie_die_self, placeOf, hpa, if_true, beq_self_eq_true, Bool.true_and]
    split <;> simp_all
  · exact (core_mapVals _ (·.dropL1 (· == lineOf pa)) rfl c) ▸ Core.dropL1_line _ _

theorem exec_channelIdleLend_begins (d c : Nat) (hd : d < 8) (hc : c < 32) (hlend : (s.die d).lend = true) (hlent : (s.die d).lent = 0)
    (hh : (s.die d).handshake = []) (hidle : (s.die d).chanIdle s.now c = true) (hbusy : (s.die d).chanIdle s.now (c ^^^ 1) = false) :
    exec (.channelIdleLend d c) s = .next (s.updDie d fun x => { x with handshake := [(c, 1)] }) := by
  simp [execChannelIdleLend, channelIdleLend, State.act, State.updDie, partner, hlend, hlent, hidle, hbusy, Nat.not_le.2 hd, Nat.not_le.2 hc, hh, NMap.has,
    NMap.get?, NMap.put]

/-- A channel's bit of LENT, set or cleared, and the bits of the others. -/
theorem getLsbD_setBit (x : BitVec 32) (b : Bool) (c j : Nat) (hj : j < 32) :
    (if b then x ||| BitVec.ofNat 32 (2 ^ c) else x &&& ~~~BitVec.ofNat 32 (2 ^ c)).getLsbD j = if j = c then b else x.getLsbD j := by
  have hbit : (BitVec.ofNat 32 (2 ^ c)).getLsbD j = decide (j = c) := by
    rw [BitVec.getLsbD_ofNat, Nat.testBit_two_pow]
    simp [hj, eq_comm]
  cases b
  · simp only [Bool.false_eq_true, if_false, BitVec.getLsbD_and, BitVec.getLsbD_not, hbit]
    by_cases h : j = c <;> simp [h, hj]
  · simp only [if_true, BitVec.getLsbD_or, hbit]
    by_cases h : j = c <;> simp [h]

theorem exec_lendHandshakeDone_ends (d c k : Nat) (hh : (s.die d).handshake = [(c, k)]) :
    ∃ x, exec (.lendHandshakeDone d c) s = .next { s with dies := s.dies.put d x } ∧ x.handshake = [] ∧
      ∀ j, j < 32 → x.lent.getLsbD j =
        if j = c then (decide (k = 1) && (s.die d).chanIdle s.now c && !(s.die d).chanIdle s.now (c ^^^ 1) && !s.asks d c) else (s.die d).lent.getLsbD j := by
  have hget : (s.die d).handshake.get? c = some k := by simp [hh, NMap.get?]
  refine ⟨_, by simp only [exec_lendHandshakeDone, execLendHandshakeDone, lendHandshakeDone, hget, State.act, Option.getD_some]; rfl, ?_, fun j hj => ?_⟩
  · simp [hh, NMap.erase]
  · exact getLsbD_setBit _ _ _ _ hj

theorem exec_lendReverse_begins (d c : Nat) (hlent : (s.die d).lent.getLsbD c = true) (hh : (s.die d).handshake.has c = false)
    (hwhy : (s.die d).chanIdle s.now c = false ∨ (s.die d).chanIdle s.now (c ^^^ 1) = true ∨ s.asks d c = true ∨ (∀ k, k < 8 → (s.cluster k).state = 3)) :
    exec (.lendReverse d c) s = .next (s.updDie d fun x => { x with handshake := x.handshake.put c 2 }) := by
  have hback : (!(s.die d).chanIdle s.now c || (s.die d).chanIdle s.now (partner c) || s.asks d c || (List.range 8).all fun k => (s.cluster k).state == 3) = true := by
    rcases hwhy with h | h | h | h <;> simp_all [partner]
  simp only [exec_lendReverse, execLendReverse, lendReverse, hlent, hh, hback]
  rfl

theorem exec_lendDisable_returns (d : Nat) (hd : d < 8) :
    ∃ s', exec (.lendDisable d) s = .next s' ∧ (s'.die d).lend = false ∧ (s'.die d).lent = (s.die d).lent ∧
      ∀ c, c < 32 → (s.die d).lent.getLsbD c = true → (s'.die d).handshake.get? c = some 2 := by
  refine ⟨_, State.act_of_some (if_neg (Nat.not_le.2 hd)), by simp, by simp, fun c hc hlent => ?_⟩
  rw [State.updDie_die_self]
  refine foldl_establishes (I := fun _ => True) (P := fun m : NMap Nat => m.get? c = some 2) (k := c) (fun _ _ h => h) ?_ ?_ _ _ ?_ trivial
  · intro m k hm
    by_cases h : c = k
    · rw [h, NMap.get?_put_self]
    · rw [NMap.get?_put_other _ _ _ _ h, hm]
  · exact fun m _ => NMap.get?_put_self m c 2
  · exact List.mem_filter.2 ⟨List.mem_range.2 hc, hlent⟩

/-- What asks for a channel waits while its lanes are away. -/
theorem chanOpen_of_away (pa : Nat) (hpa : pa < hbmTop) (hmiss : (s.die (homeDie pa)).cached (lineOf pa) = false)
    (haway : (s.die (homeDie pa)).lent.getLsbD (homeChan pa) = true ∨ (s.die (homeDie pa)).handshake.has (homeChan pa) = true) : s.chanOpen pa = false := by
  have hopen : s.chanOpen pa = (decide (hbmTop ≤ pa) || s.homeFree pa && ((s.die (homeDie pa)).cached (lineOf pa) ||
    (!(s.die (homeDie pa)).lent.getLsbD (homeChan pa) && !(s.die (homeDie pa)).handshake.has (homeChan pa)))) := rfl
  rcases haway with h | h <;> simp [hopen, hmiss, h, Nat.not_le.2 hpa]
end

/-! ### Die links (R353, R354) -/

section
variable (s : State) (l : Nat)

/-- A lane's errors on a link that carries data, by what lane repair and the width of the link leave. -/
theorem dieLinkLaneError_persists (hl : l < 16) (hlost : (s.link l).lost = false) (hre : (s.link l).retraining = false) :
    dieLinkLaneError l s = if (s.link l).mods = 1 then
      some (s.gangs.foldl (fun (s : State) kv => if kv.2.resident then s.fatal kv.1 kv.2.core 2 0 else s) (s.updLink l fun k => { k with lost := true }))
    else some (((s.updLink l fun k => { k with mods := k.mods >>> 1, repaired := true, retraining := true }).undoRelocks).notify 6).settleFloors := by
  have hmod : l % repairMark = l := Nat.mod_eq_of_lt hl
  have h1 : ¬2 * repairMark ≤ l := by unfold repairMark; omega
  have h2 : ¬repairMark ≤ l := Nat.not_le.2 hl
  simp only [dieLinkLaneError, hmod, h1, h2, hlost, hre, Bool.false_eq_true, or_self, if_false]
  rfl

theorem dieLinkLaneError_repaired (hl : l < 16) (hlost : (s.link l).lost = false) (hre : (s.link l).retraining = false) :
    dieLinkLaneError (16 + l) s = some (s.updLink l fun k => { k with repaired := true }) := by
  have hmod : (16 + l) % repairMark = l := by unfold repairMark; omega
  have h1 : ¬2 * repairMark ≤ 16 + l := by unfold repairMark; omega
  have h2 : repairMark ≤ 16 + l := Nat.le_add_right ..
  simp [dieLinkLaneError, hmod, h1, h2, hlost, hre]

/-- Fatal records with SUB 2 for the resident gangs of a list stop each of them that is listed. -/
theorem foldl_fatal_stopped {gid : Nat} {g : Gang} (gs : List (Nat × Gang)) (hmem : (gid, g) ∈ gs) (hres : g.resident = true)
    (hu : (s.gangs.get? gid).isSome = true) :
    ((gs.foldl (fun (s : State) kv => if kv.2.resident then s.fatal kv.1 kv.2.core 2 0 else s) s).gangs.get? gid).map (·.stopped) = some (some 2) := by
  have hcode : ∀ old, stopCode old 2 = 2 := by rintro (_ | k) <;> simp [stopCode]
  refine foldl_establishes (I := fun u : State => (u.gangs.get? gid).isSome = true)
    (P := fun u : State => (u.gangs.get? gid).map (·.stopped) = some (some 2)) (k := (gid, g)) ?_ ?_ ?_ gs s hmem hu
  · intro u kv h
    split
    · rw [State.fatal_gang]; split <;> simp [h]
    · exact h
  · intro u kv h
    split
    · obtain ⟨x, hx, -⟩ := Option.map_eq_some_iff.1 h
      rw [State.fatal_gang]; split <;> simp_all
    · exact h
  · intro u h
    obtain ⟨x, hx⟩ := Option.isSome_iff_exists.1 h
    simp [hres, State.fatal_gang, hx, hcode]

theorem exec_dieLinkLaneError_lost (hl : l < 16) (hlost : (s.link l).lost = false) (hre : (s.link l).retraining = false) (hm : (s.link l).mods = 1) :
    ∃ s', exec (.dieLinkLaneError l) s = .next s' ∧ (s'.link l).lost = true ∧
      ∀ gid g, s.gangs.get? gid = some g → g.resident = true → (s'.gangs.get? gid).map (·.stopped) = some (some 2) := by
  refine ⟨_, State.act_of_some ((dieLinkLaneError_persists s l hl hlost hre).trans (if_pos hm)), ?_, fun gid g hg hres => ?_⟩
  · rw [foldl_keeps (fun u : State => u.link l)]
    · simp
    · intro u kv
      split <;> simp
  · exact foldl_fatal_stopped _ _ (NMap.mem_of_get? hg) hres (by simp [hg])

theorem exec_linkRetrainDone_carries (hre : (s.link l).retraining = true) :
    ∃ s', exec (.linkRetrainDone l) s = .next s' ∧ (s'.link l).retraining = false ∧ (s'.link l).mods = (s.link l).mods ∧ s'.mem = s.mem :=
  ⟨_, State.act_of_some (if_pos hre), by simp, by simp, by simp⟩
end

/-! ### Resets, bring-up and the clock (R283, R365, R366) -/

section
variable (s : State)

/-- The reset state, but for what a reset keeps (R365, log 35). -/
def State.resetKeeping (s : State) : State :=
  { State.reset with plan := s.plan, free := s.free, mem := s.mem.filter fun c => outsideByte c.1, ao := s.ao, out := s.out }

theorem State.packageResetOf_eq : s.packageResetOf = if s.ao.trip = true then s.resetKeeping.notify 2 else s.resetKeeping := rfl

/-- What lies outside the package reads after a reset as before, and the rest of memory as nothing has written it. -/
theorem read_resetKeeping (h : Memory.wf s.mem = true) (a : Nat) :
    Memory.read s.resetKeeping.mem a = if outsideByte a then Memory.read s.mem a else Memory.unlisted := by
  have hget := NMap.get?_filter_key outsideByte s.mem a ((Memory.wf_iff _).1 h).1
  simp only [Memory.read, NMap.getD, State.resetKeeping, hget]
  split <;> rfl

theorem exec_resets (h : Memory.wf s.mem = true) : ∃ m r, r = { State.reset with plan := s.plan, free := s.free, mem := m, ao := s.ao, out := s.out } ∧
    Memory.wf m = true ∧ exec .packageReset s = .next (if s.ao.trip = true then r.notify 2 else r) ∧
    exec .hotReset s = .next (if s.ao.trip = true then r.notify 2 else r) ∧
    ∀ a, (placeOf a = .host ∨ placeOf a = .fabric → Memory.read m a = Memory.read s.mem a) ∧
      (placeOf a = .hbm ∨ placeOf a = .scratch → Memory.read m a = 0) := by
  have hreset := State.act_of_some (s := s) (congrArg some s.packageResetOf_eq)
  refine ⟨s.resetKeeping.mem, s.resetKeeping, rfl, Memory.wf_filter _ _ h, hreset, hreset, fun a => ?_⟩
  rw [read_resetKeeping s h]
  constructor
  · rintro (ha | ha) <;> simp [outsideByte, ha]
  · rintro (ha | ha) <;> simp [outsideByte, ha, Memory.unlisted]

theorem exec_firmwareVerifyDone_phase (hp : s.board.phase = 2) :
    exec (.firmwareVerifyDone 1) s = .next (s.updBoard fun b => { b with phase := 3 }) ∧
    exec (.firmwareVerifyDone 0) s = .next (s.updBoard fun b => { b with phase := 0xE, failInfo := 2, romOnly := true }) :=
  ⟨State.act_of_some (if_neg (not_not_intro hp)), State.act_of_some (if_neg (not_not_intro hp))⟩

theorem exec_dieLinksTrained_phase (l : Nat) (hp : s.board.phase = 3) :
    (l < 16 → exec (.dieLinksTrained l) s = .next (s.updBoard fun b => { b with phase := 0xE, failInfo := BitVec.ofNat 8 l })) ∧
    (16 ≤ l → exec (.dieLinksTrained l) s = .next (s.updBoard fun b => { b with phase := 4 })) := by
  have h : exec (.dieLinksTrained l) s =
      .next (s.updBoard fun b => if l < 16 then { b with phase := 0xE, failInfo := BitVec.ofNat 8 l } else { b with phase := 4 }) :=
    State.act_of_some (if_neg (not_not_intro hp))
  constructor <;> intro hl
  · simp [h, hl]
  · simp [h, Nat.not_lt.2 hl]

/-- The ports that are enabled and idle begin to train when the host port has trained: one port. -/
def State.trainPort (s : State) (p : Nat) : State :=
  s.updPort p fun x => if x.en ∧ x.state = 0 then { x with state := 1, pending := 2, retraining := true, since := s.now } else x

theorem foldl_trainPort (p : Nat) (ps : List Nat) (hp : p ∈ ps) (hen : (s.port p).en = true) (hstate : (s.port p).state = 0) :
    ((ps.foldl State.trainPort s).port p).state = 1 := by
  refine foldl_establishes (I := fun u : State => (u.port p).en = true ∧ ((u.port p).state = 0 ∨ (u.port p).state = 1))
    (P := fun u : State => (u.port p).state = 1) (k := p) ?_ ?_ ?_ ps s hp ⟨hen, .inl hstate⟩
  · rintro u k ⟨hen, hstate⟩
    by_cases h : p = k
    · subst h
      rcases hstate with hstate | hstate <;> simp [State.trainPort, hen, hstate]
    · simpa [State.trainPort, State.updPort_port_other _ _ _ _ h, hen] using hstate
  · intro u k hstate
    by_cases h : p = k
    · subst h; simp [State.trainPort, hstate]
    · simp [State.trainPort, State.updPort_port_other _ _ _ _ h, hstate]
  · rintro u ⟨hen, hstate | hstate⟩ <;> simp [State.trainPort, hen, hstate]

/-- Reduced service as it begins, before the ports train (R366). -/
def State.reduceService (s : State) : State :=
  (s.updBoard fun b => { b with phase := 5, reduced := true }).askAtomicEn.updCluster 0 fun k => { k.setEff s.now (max 8 s.pkg.floor) with floor := 8 }

theorem hostPortTrained_eq (hp : s.board.phase = 4) : hostPortTrained s = some ((List.range 18).foldl State.trainPort s.reduceService) :=
  if_neg (not_not_intro hp)

/-- The ports alone train: the board and the clusters are as reduced service left them. -/
theorem foldl_trainPort_frame (ps : List Nat) :
    (ps.foldl State.trainPort s).board = s.board ∧ ∀ c, (ps.foldl State.trainPort s).cluster c = s.cluster c :=
  ⟨foldl_keeps (f := State.trainPort) State.board (fun _ _ => rfl) ps s, fun c => foldl_keeps (f := State.trainPort) (State.cluster · c) (fun _ _ => rfl) ps s⟩

/-- Under reduced service only cluster 0 is on (R366). -/
theorem clocked_of_reduced (h : s.board.reduced = true) (c : Nat) (hc : 4 ≤ c) : s.clocked c = false := by
  simp [State.clocked, h, hc]

theorem exec_hostPortTrained_reduced (hp : s.board.phase = 4) : ∃ s', exec .hostPortTrained s = .next s' ∧
    s'.board = { s.board with phase := 5, reduced := true } ∧ (s'.cluster 0).floor = 8 ∧ (s'.cluster 0).eff = max 8 s.pkg.floor ∧
    (∀ c, 4 ≤ c → s'.clocked c = false) ∧ ∀ p, p < 18 → (s.port p).en = true → (s.port p).state = 0 → (s'.port p).state = 1 := by
  obtain ⟨hboard, hcluster⟩ := foldl_trainPort_frame s.reduceService (List.range 18)
  have hred : s.reduceService.board = { s.board with phase := 5, reduced := true } := rfl
  have hzero : s.reduceService.cluster 0 = { (s.cluster 0).setEff s.now (max 8 s.pkg.floor) with floor := 8 } := State.updCluster_cluster_self ..
  refine ⟨_, State.act_of_some (hostPortTrained_eq s hp), hboard.trans hred, ?_, ?_, clocked_of_reduced _ ?_, fun p hlt hen hstate => ?_⟩
  · rw [hcluster, hzero]
  · rw [hcluster, hzero]; rfl
  · rw [hboard, hred]
  · exact foldl_trainPort _ p _ (List.mem_range.2 hlt) hen hstate

theorem exec_hbmTrained_failed (d : Nat) (hp : s.board.phase = 5) (hd : d < 8) :
    exec (.hbmTrained d) s = .next (s.updBoard fun b => { b with phase := 0xF, failInfo := BitVec.ofNat 8 d }) :=
  State.act_of_some ((if_neg (not_not_intro hp)).trans (if_pos hd))

/-- Every stack is trained after the loop over the dies. -/
theorem foldl_trained (k : Nat) (hk : k < 8) :
    (((List.range 8).foldl (fun (s : State) d => s.updDie d fun x => { x with trained := true, slough := [] }) s).die k).trained = true := by
  refine foldl_establishes (I := fun _ => True) (P := fun u : State => (u.die k).trained = true) (k := k) (fun _ _ h => h) ?_ ?_ _ s (List.mem_range.2 hk) trivial
  · intro u d hu
    by_cases h : k = d
    · subst h; simp
    · simp [State.updDie_die_other _ _ _ _ h, hu]
  · intro u _
    simp

@[simp] theorem State.notify_cluster (b c : Nat) : (s.notify b).cluster c = s.cluster c := rfl
@[simp] theorem State.notify_die (b d : Nat) : (s.notify b).die d = s.die d := rfl
@[simp] theorem State.updBoard_die (f : Board → Board) (d : Nat) : (s.updBoard f).die d = s.die d := rfl
@[simp] theorem State.updCluster_die (k : Nat) (f : Cluster → Cluster) (d : Nat) : (s.updCluster k f).die d = s.die d := rfl

theorem exec_hbmTrained_full (d : Nat) (hp : s.board.phase = 5) (hd : 8 ≤ d) : ∃ s', exec (.hbmTrained d) s = .next s' ∧ s'.board.phase = 6 ∧
    s'.board.reduced = false ∧ (s'.cluster 0).floor = 2 ∧ s'.mem = s.mem ∧ ∀ k, k < 8 → (s'.die k).trained = true := by
  refine ⟨_, State.act_of_some ((if_neg (not_not_intro hp)).trans (if_neg (Nat.not_lt.2 hd))), ?_, ?_, ?_, ?_, fun k hk => ?_⟩
  · simp [State.notify]
  · simp [State.notify]
  · simp
  · simp
  · simp [foldl_trained _ k hk]

theorem exec_referenceClockLoss_notifies (h : s.board.refClock = true) :
    exec .referenceClockLoss s = .next ((s.updBoard fun b => { b with refClock := false }).notify 0) :=
  State.act_of_some (if_pos h)

theorem exec_referenceClockReturn_present (h : s.board.refClock = false) :
    exec .referenceClockReturn s = .next (s.updBoard fun b => { b with refClock := true }) :=
  State.act_of_some (if_neg (by simp [h]))
end

/-- Settles O52: one lemma for each happening, in the order of the statement. -/
theorem boardEventsComplete : Obligations.BoardEventsComplete := by
  unfold Obligations.BoardEventsComplete
  intro s
  refine ⟨exec_hbmCorrectedError_eq s, exec_hbmUncorrectableError_bad s, fun d hd => State.act_of_some (if_pos hd), exec_channelIdleLend_begins s,
    fun d c k _ => exec_lendHandshakeDone_ends s d c k, exec_lendReverse_begins s, exec_lendDisable_returns s, ?away, ?link, exec_linkRetrainDone_carries s,
    exec_resets s, exec_firmwareVerifyDone_phase s, exec_dieLinksTrained_phase s, exec_hostPortTrained_reduced s,
    fun d hp => ⟨exec_hbmTrained_failed s d hp, exec_hbmTrained_full s d hp⟩, exec_referenceClockLoss_notifies s, exec_referenceClockReturn_present s,
    rfl, fun _ _ => ⟨rfl, rfl⟩⟩
  case away =>
    rintro d c pa hpa rfl rfl
    exact chanOpen_of_away s pa hpa
  case link =>
    intro l hl hlost hre
    refine ⟨fun hm => ⟨?_, s.undoRelocks_stopAt⟩, fun hm _ => exec_dieLinkLaneError_lost s l hl hlost hre hm,
      State.act_of_some (dieLinkLaneError_repaired s l hl hlost hre)⟩
    exact State.act_of_some ((dieLinkLaneError_persists s l hl hlost hre).trans (if_neg hm))

end Sys2Proof.Machine
